-- ==== Sys2Proof/Word.lean ====
section
/-! DEFINITION. The word types of the device (00_scope R4): registers, descriptors and in-memory
structures are 32-bit words; bytes are the smallest unit of host memory and of the stores. -/

namespace Sys2Proof

/-- A 32-bit register, descriptor or result word (R4). -/
abbrev Word := BitVec 32

/-- One byte. -/
abbrev Byte := BitVec 8

/-- A 32-bit handle (R10), kept as the number it is compared and stored by. -/
abbrev Handle := Nat

end Sys2Proof
end

