-- ==== Sys2Proof/Syntax.lean ====
section
/-! DEFINITION. The commands and events the block takes, one constructor per row of
spec/opcode_table.json, with the operands of the rule each row names. A row that is a mailbox opcode
carries the page it came from and its descriptor; a row that is an event carries what the outside
world brings with it. The table gives no bit encodings. -/

namespace Sys2Proof

/-- A command descriptor without its opcode (R36, Table 2-5). -/
structure Desc where
  tag : BitVec 16 := 0
  bodyLen : BitVec 16 := 0
  bulk : Bool := false
  /-- Word 1 [31:17], reserved. -/
  rsvd1 : BitVec 15 := 0
  epoch : Word := 0
  /-- Word 3, reserved. -/
  rsvd3 : Word := 0
  /-- Words 4–15. -/
  body : List Word := List.replicate 12 0
  deriving DecidableEq, Repr

/-- One access to a BAR of a function (R25, R26, R376): function 0 is the physical function. -/
structure Access where
  fn : Fin 16 := 0
  offset : BitVec 23 := 0
  write : Bool := false
  /-- Bytes requested, 1 to 8. -/
  bytes : Fin 9 := 1
  deriving DecidableEq, Repr

/-- A BAR2 write to the MSI-X table, or the function's MSI-X enable (R376): word 3 bit 0 of a table
entry is its mask bit, as PCIe Base 5.0 lays the table out. -/
inductive MsixWrite where
  | entry (vector : Fin 64) (word : Fin 4) (value : Word)
  | enable (on : Bool)
  deriving DecidableEq, Repr

/-- A power fail during bring-up (R389, R391): before or after the boot ROM has chosen the slot, by a brown-out or by
PFAIL_N, whether VSTORE holds until the store is complete, and the rows that do not read back. -/
structure BootFail where
  afterSlot : Bool := false
  brownOut : Bool := false
  completes : Bool := true
  failed : List (Fin 13312) := []
  deriving DecidableEq, Repr

/-- What the firmware learns of a namespace at enumeration (R323). -/
structure DriveInfo where
  serial : BitVec 64 := 0
  nsid : Word := 1
  qualifies : Bool := true
  /-- Capacity in 1 MiB slots. -/
  slots : Nat := 0
  /-- The drive refuses Set Features for the volatile write cache (R324), and Flush. -/
  cacheStays : Bool := false
  refusesFlush : Bool := false
  /-- A pool header found on it: pool identity and member index. -/
  header : Option (BitVec 64 × Fin 256) := none
  deriving DecidableEq, Repr

/-- The straps and outcomes outside the manual that one start-up meets (R415–R422, R434, R444):
DEBUG_EN and TEST_MODE, the Ethernet reference, the size SFDP reports, the known-answer tests of R355,
the always-on check pattern, the regulator's answer, the namespaces that the firmware finds, with their root ports
(R323, R339), the ageing monitors and the root-port reference output. -/
structure Straps where
  debugEn : Bool := false
  testMode : Bool := false
  ethRefclk : Bool := true
  sfdpBytes : Nat := 134217728
  selfTestOk : Bool := true
  entropyOk : Bool := true
  patternKept : Bool := true
  pmbusNack : Bool := false
  drives : List (Fin 4 × DriveInfo) := []
  /-- What the ageing monitors read at firmware ready (R402, R403); a monitor without a reading keeps its last. -/
  slowdowns : List (BitVec 24) := []
  /-- Time from the release to a stable root-port reference output, in µs (R442). -/
  refOutUs : Nat := 0
  /-- The rows that do not read back in the stores that end with this row: those before a device reset, and the one that
  records a tamper latch (R386, R396). -/
  failedRows : List (Fin 13312) := []
  /-- A power fail that falls in the bring-up (R391). -/
  fails : Option BootFail := none
  deriving DecidableEq, Repr

/-- A colour tag (Table 4-2, GET_OBJECT_INFO word 5). -/
structure Colour where
  matrix : Nat := 2
  transfer : Nat := 0
  primaries : Nat := 2
  full : Bool := false
  deriving DecidableEq, Repr

/-- What the parameter sets of an encoded stream signal (R342): the chroma sample location type and the colour tag. -/
structure Vui where
  chromaLoc : Nat := 0
  colour : Colour := {}
  deriving DecidableEq, Repr

/-- One ancillary packet (R93, R287). -/
structure Anc where
  did : Nat := 0
  sdid : Nat := 0
  line : Nat := 0
  hoff : Nat := 0
  words : List Nat := []
  badSum : Bool := false
  deriving DecidableEq, Repr

/-- What an RTP packet says of the access unit it belongs to (R98, R330). -/
structure AuMark where
  first : Bool := true
  last : Bool := true
  /-- The unit is a random-access point (R98). -/
  rap : Bool := false
  /-- The VUI of the parameter sets it carries (R342). -/
  vui : Option Vui := none
  deriving DecidableEq, Repr

/-- The essence an RTP packet carries: a bitstream (R307), ST 2110-20 samples of one row (R85),
PCM samples (R258) or ancillary packets (R93). -/
inductive Essence where
  | bitstream (au : AuMark)
  | video (bottom : Bool) (line offset : Nat) (samples : List Nat)
  | audio (samples : List Int)
  | anc (packets : List Anc)
  deriving DecidableEq, Repr

/-- One RTP packet. -/
structure Rtp where
  pt : Nat := 96
  seq : BitVec 16 := 0
  ts : Word := 0
  marker : Bool := false
  payload : List Byte := []
  ess : Essence := .bitstream {}
  deriving DecidableEq, Repr

/-- What a decode core reports of a picture (R96–R98): the stream error it met, if any, and what the
parameter sets said. -/
structure Picture where
  rap : Bool := false
  /-- A bitstream error of R98. -/
  error : Bool := false
  /-- A parameter set beyond the declaration (R98). -/
  unsupported : Bool := false
  width : Nat := 0
  height : Nat := 0
  /-- 0 frame, 1 top field, 2 bottom field. -/
  parity : Fin 3 := 0
  vui : Option Colour := none
  /-- Both fields of a frame in one MBAFF picture (R96). -/
  mbaff : Bool := false
  /-- The damaged areas: x0, y0, x1, y1 (R98). -/
  areas : List (Nat × Nat × Nat × Nat) := []
  deriving DecidableEq, Repr

/-- One audio packet at an audio input (R258): its samples per channel, interleaved. -/
structure AudPacket where
  pt : Nat := 0
  samples : List Int := []
  bytes : Nat := 0
  deriving DecidableEq, Repr

/-- A PTP message on an Ethernet port (R277): the PTP domain, 0 Announce, 1 Sync, 2 Follow_Up, its sender and sequence
number; what an Announce says of its grandmaster, in the order that the best-master algorithm compares; whether a
Sync is two-step; and the time it carries with the servo offset it gives. -/
structure PtpMsg where
  domain : BitVec 8 := 0
  type : Fin 3 := 0
  sender : BitVec 80 := 0
  seq : BitVec 16 := 0
  quality : List Nat := []
  twoStep : Bool := false
  seconds : BitVec 48 := 0
  nanoseconds : Word := 0
  offsetNs : Int := 0
  deriving DecidableEq, Repr

/-- A 130-bit block on a lane (R284): its sync header, its payload as sent, scrambled, bit k being the k-th sent, and
the 58 bits of payload sent before it on the lane, the latest in bit 57. -/
structure CtlBlock where
  lane : Fin 4 := 0
  header : BitVec 2 := 2
  wire : BitVec 128 := 0
  before : BitVec 58 := 0
  deriving DecidableEq, Repr

/-- A back-channel message (R289). -/
structure BackMsg where
  type : Byte := 1
  payload : List Byte := []
  crc : Byte := 0
  deriving DecidableEq, Repr

/-- What a received packet is: UDP with RTP, TCP, or an ARP request or neighbour solicitation from a MAC address
(R304). -/
inductive EthKind where
  | udp
  | tcp
  | solicit (mac : BitVec 48)
  deriving DecidableEq, Repr

/-- A packet received on an Ethernet port (R304, R305). -/
structure EthPacket where
  length : Nat := 64
  vlan : Option Nat := none
  ipv6 : Bool := false
  dst : BitVec 128 := 0
  src : BitVec 128 := 0
  udp : BitVec 16 := 0
  subport : Fin 4 := 0
  /-- The packet buffers were full at its arrival (Table 1-3). -/
  bufferFull : Bool := false
  rtp : Rtp := {}
  kind : EthKind := .udp
  deriving DecidableEq, Repr

/-- The commands and events of spec/opcode_table.json, one constructor per row, in the table's order. -/
inductive Instr where
  /-- CMD_TAIL_WRITE (R30). -/
  | cmdTailWrite (page : Fin 16) (value : Word)
  /-- CPL_HEAD_WRITE (R34). -/
  | cplHeadWrite (page : Fin 16) (value : Word)
  /-- NTF_HEAD_WRITE (R34). -/
  | ntfHeadWrite (page : Fin 16) (value : Word)
  /-- NTF_OVF_CLEAR (R28). -/
  | ntfOvfClear (page : Fin 16) (again : Bool)
  /-- PTR_ERR_CLEAR (R28). -/
  | ptrErrClear (page : Fin 16) (again : Bool)
  /-- NTF_LOST_READ (R28). -/
  | ntfLostRead (page : Fin 16) (again : Bool)
  /-- PTIME_LO_READ (R23). -/
  | ptimeLoRead (wide : Bool)
  /-- ERR_VALID_CLEAR (R26). -/
  | errValidClear (rival : Option Access)
  /-- ERR_MORE_CLEAR (R22). -/
  | errMoreClear (rival : Option Access)
  /-- ACCESS_REFUSED (R25). -/
  | accessRefused (a : Access)
  /-- CAUSE_CLEAR (R375). -/
  | causeClear (source : Fin 256) (clear : BitVec 16) (raised : BitVec 16)
  /-- SEVERITY_WRITE (R379). -/
  | severityWrite (source : Fin 256) (value : Word)
  /-- FIRST_VALID_CLEAR (R381). -/
  | firstValidClear (rival : Option (Fin 256 × Fin 16))
  /-- OVERFLOW_CLEAR (R381). -/
  | overflowClear (rival : Option (Fin 256 × Fin 16))
  /-- QUIET_MS_WRITE (R382). -/
  | quietMsWrite (value : Word)
  /-- REGISTER_WRITE (R6). -/
  | registerWrite (fn : Fin 16) (offset : BitVec 23) (value : Word) (high : Option Word := none)
  /-- MSIX_UNMASK (R376). -/
  | msixUnmask (fn : Fin 16) (w : MsixWrite)
  /-- BAR2_ACCESS_REFUSED (R376). -/
  | bar2AccessRefused (a : Access)
  /-- COMMAND_TAKE (R38). -/
  | commandTake
  /-- LATE_COMPLETION (R31). -/
  | lateCompletion (page : Fin 16)
  /-- COMMIT_HAND_OFF (R51). -/
  | commitHandOff
  /-- IDENTIFY (R55). -/
  | identify (page : Fin 16) (d : Desc)
  /-- GET_CAPABILITIES (R56). -/
  | getCapabilities (page : Fin 16) (d : Desc)
  /-- GET_VERSIONS (R57). -/
  | getVersions (page : Fin 16) (d : Desc)
  /-- RESET (R58). -/
  | reset (page : Fin 16) (d : Desc)
  /-- PARTITION_RESET_QUIET (R58). -/
  | partitionResetQuiet
  /-- DEVICE_RESET_DELAY (R58). -/
  | deviceResetDelay (st : Straps)
  /-- ECHO (R59). -/
  | echo (page : Fin 16) (d : Desc)
  /-- COMMIT (R60). -/
  | commit (page : Fin 16) (d : Desc)
  /-- DISCARD_STAGED (R61). -/
  | discardStaged (page : Fin 16) (d : Desc)
  /-- GET_EPOCH (R61). -/
  | getEpoch (page : Fin 16) (d : Desc)
  /-- CREATE_PARTITION (R74). -/
  | createPartition (page : Fin 16) (d : Desc)
  /-- DELETE_PARTITION (R71). -/
  | deletePartition (page : Fin 16) (d : Desc)
  /-- PARTITION_FREED (R71). -/
  | partitionFreed (part : Fin 16)
  /-- SET_QUOTA (R75). -/
  | setQuota (page : Fin 16) (d : Desc)
  /-- GET_QUOTA (R75). -/
  | getQuota (page : Fin 16) (d : Desc)
  /-- GRANT_SOURCE (R76). -/
  | grantSource (page : Fin 16) (d : Desc)
  /-- REVOKE_GRANT (R70). -/
  | revokeGrant (page : Fin 16) (d : Desc)
  /-- LIST_GRANTS (R77). -/
  | listGrants (page : Fin 16) (d : Desc)
  /-- READ_CHANGE_LOG (R78). -/
  | readChangeLog (page : Fin 16) (d : Desc)
  /-- CREATE_LINK_STREAM (R103). -/
  | createLinkStream (page : Fin 16) (d : Desc)
  /-- CREATE_2110_STREAM (R103). -/
  | create2110Stream (page : Fin 16) (d : Desc)
  /-- CREATE_SURFACE_SOURCE (R101). -/
  | createSurfaceSource (page : Fin 16) (d : Desc)
  /-- MODIFY_STREAM (R104). -/
  | modifyStream (page : Fin 16) (d : Desc)
  /-- START_STREAM (R105). -/
  | startStream (page : Fin 16) (d : Desc)
  /-- STOP_STREAM (R90). -/
  | stopStream (page : Fin 16) (d : Desc)
  /-- DELETE_STREAM (R90). -/
  | deleteStream (page : Fin 16) (d : Desc)
  /-- GET_STREAM_STATUS (R105). -/
  | getStreamStatus (page : Fin 16) (d : Desc)
  /-- READ_ANC (R106). -/
  | readAnc (page : Fin 16) (d : Desc)
  /-- UPLOAD_SURFACE (R102). -/
  | uploadSurface (page : Fin 16) (d : Desc)
  /-- SURFACE_DONE (R102). -/
  | surfaceDone (source : Word) (pcieError : Bool)
  /-- CREATE_DECODE_CONTEXT (R95). -/
  | createDecodeContext (page : Fin 16) (d : Desc)
  /-- DELETE_DECODE_CONTEXT (R107). -/
  | deleteDecodeContext (page : Fin 16) (d : Desc)
  /-- GET_DECODE_STATUS (R107). -/
  | getDecodeStatus (page : Fin 16) (d : Desc)
  /-- RESYNC_DECODE (R107). -/
  | resyncDecode (page : Fin 16) (d : Desc)
  /-- FRAME_START (R115). -/
  | frameStart (source : Word) (bottom : Bool)
  /-- FRAME_CLOSE (R85). -/
  | frameClose (source : Word)
  /-- PATCH_COPY_DONE (R86). -/
  | patchCopyDone (source : Word)
  /-- STREAM_STALL_TIMEOUT (R89). -/
  | streamStallTimeout (source : Word)
  /-- ST2110_PACKET (R85). -/
  | st2110Packet (flow : Fin 1024) (p : Rtp)
  /-- ANC_PACKET (R93). -/
  | ancPacket (source : Word) (a : Anc)
  /-- STREAM_ENTRY_PACKET (R307). -/
  | streamEntryPacket (entry : Word) (p : Rtp)
  /-- DECODE_PICTURE_DONE (R96). -/
  | decodePictureDone (ctx : Word) (pic : Picture)
  /-- DECODE_BUDGET_EXPIRY (R97). -/
  | decodeBudgetExpiry (ctx : Word) (pic : Picture := {})
  /-- ACQUIRE_OBJECT (R132). -/
  | acquireObject (page : Fin 16) (d : Desc) (rivals : Nat := 0)
  /-- RELEASE_OBJECT (R132). -/
  | releaseObject (page : Fin 16) (d : Desc)
  /-- GET_OBJECT_INFO (R133). -/
  | getObjectInfo (page : Fin 16) (d : Desc)
  /-- READ_OBJECT (R134). -/
  | readObject (page : Fin 16) (d : Desc)
  /-- SET_PLACEMENT (R135). -/
  | setPlacement (page : Fin 16) (d : Desc)
  /-- CREATE_TIMESHIFT (R136). -/
  | createTimeshift (page : Fin 16) (d : Desc)
  /-- SEEK_TIMESHIFT (R137). -/
  | seekTimeshift (page : Fin 16) (d : Desc)
  /-- DELETE_TIMESHIFT (R137). -/
  | deleteTimeshift (page : Fin 16) (d : Desc)
  /-- GET_RING_STATUS (R138). -/
  | getRingStatus (page : Fin 16) (d : Desc)
  /-- GET_TOYBOX_STATUS (R139). -/
  | getToyboxStatus (page : Fin 16) (d : Desc)
  /-- SPILL_COPY_DONE (R123). -/
  | spillCopyDone (source : Word) (failed : Bool)
  /-- SPILL_LATE (R123). -/
  | spillLate (source : Word)
  /-- RECALL_START (R124). -/
  | recallStart (source : Word)
  /-- RECALL_DONE (R124). -/
  | recallDone (source : Word) (failed : Bool)
  /-- TIMESHIFT_PRESENTATION (R124). -/
  | timeshiftPresentation (source : Word)
  /-- CREATE_PROCESSED_SOURCE (R161). -/
  | createProcessedSource (page : Fin 16) (d : Desc)
  /-- MODIFY_PROCESSED_SOURCE (R161). -/
  | modifyProcessedSource (page : Fin 16) (d : Desc)
  /-- DELETE_PROCESSED_SOURCE (R161). -/
  | deleteProcessedSource (page : Fin 16) (d : Desc)
  /-- LOAD_KERNEL_DATA (R162). -/
  | loadKernelData (page : Fin 16) (d : Desc)
  /-- SET_LADDER (R163). -/
  | setLadder (page : Fin 16) (d : Desc)
  /-- SUBMIT_JOB (R164). -/
  | submitJob (page : Fin 16) (d : Desc) (rivals : Nat := 0)
  /-- CANCEL_JOB (R165). -/
  | cancelJob (page : Fin 16) (d : Desc)
  /-- GET_JOB_STATUS (R165). -/
  | getJobStatus (page : Fin 16) (d : Desc)
  /-- GET_ENGINE_STATUS (R166). -/
  | getEngineStatus (page : Fin 16) (d : Desc)
  /-- GET_KERNEL_LIBRARY (R166). -/
  | getKernelLibrary (page : Fin 16) (d : Desc)
  /-- LOAD_KERNEL (R140). -/
  | loadKernel (page : Fin 16) (d : Desc)
  /-- JOB_RELEASE (R149). -/
  | jobRelease (route : Word) (same : Bool := false) (more : Nat := 0)
  /-- WORK_ITEM_DONE (R142). -/
  | workItemDone (engine : Fin 512)
  /-- DEADLINE_MISS (R159). -/
  | deadlineMiss (job : Word)
  /-- ENGINE_FAULT (R142). -/
  | engineFault (engine : Fin 512) (trap : Bool)
  /-- LM_ECC_CORRECTED (R160). -/
  | lmEccCorrected (engine : Fin 512)
  /-- CAPACITY_RISE_HOLD (R158). -/
  | capacityRiseHold
  /-- ADD_ROUTE (R184). -/
  | addRoute (page : Fin 16) (d : Desc)
  /-- MODIFY_ROUTE (R185). -/
  | modifyRoute (page : Fin 16) (d : Desc)
  /-- DELETE_ROUTE (R186). -/
  | deleteRoute (page : Fin 16) (d : Desc)
  /-- STAGE_SALVO (R187). -/
  | stageSalvo (page : Fin 16) (d : Desc)
  /-- GET_ROUTE_STATUS (R188). -/
  | getRouteStatus (page : Fin 16) (d : Desc)
  /-- GET_DESTINATION (R188). -/
  | getDestination (page : Fin 16) (d : Desc)
  /-- SET_LAYER (R193). -/
  | setLayer (page : Fin 16) (d : Desc)
  /-- SET_COMPOSITION (R196). -/
  | setComposition (page : Fin 16) (d : Desc)
  /-- SET_MATRIX (R213). -/
  | setMatrix (page : Fin 16) (d : Desc)
  /-- LOAD_COEFFICIENTS (R207). -/
  | loadCoefficients (page : Fin 16) (d : Desc)
  /-- READ_COEFFICIENTS (R214). -/
  | readCoefficients (page : Fin 16) (d : Desc)
  /-- GET_LAYER_STATUS (R215). -/
  | getLayerStatus (page : Fin 16) (d : Desc)
  /-- GET_HEAD_BUDGET (R215). -/
  | getHeadBudget (page : Fin 16) (d : Desc)
  /-- SET_HEAD_MODE (R243). -/
  | setHeadMode (page : Fin 16) (d : Desc)
  /-- BIND_SINK (R244). -/
  | bindSink (page : Fin 16) (d : Desc)
  /-- SET_CRC_RECTS (R245). -/
  | setCrcRects (page : Fin 16) (d : Desc)
  /-- GET_HEAD_STATUS (R246). -/
  | getHeadStatus (page : Fin 16) (d : Desc)
  /-- HEAD_APPLY_LINE (R221). -/
  | headApplyLine (head : Fin 64) (same : Bool := false) (more : Nat := 0)
  /-- BLANK_START (R234). -/
  | blankStart (head : Fin 64) (rivals : Nat := 0)
  /-- LINE_MATCH (R234). -/
  | lineMatch (head : Fin 64) (rivals : Nat := 0)
  /-- HEAD_FETCH_START (R218). -/
  | headFetchStart (head : Fin 64)
  /-- HEAD_LINE_ZERO (R238). -/
  | headLineZero (head : Fin 64)
  /-- LAYER_UNDERRUN (R232). -/
  | layerUnderrun (head : Fin 64) (layer : Fin 8) (line : BitVec 16) (pixel : BitVec 16)
  /-- DOMAIN_FRAME_TICK (R218). -/
  | domainFrameTick (td : Fin 16) (same : Bool := false) (more : Nat := 0)
  /-- CREATE_AUDIO_INPUT (R262). -/
  | createAudioInput (page : Fin 16) (d : Desc)
  /-- DELETE_AUDIO_INPUT (R262). -/
  | deleteAudioInput (page : Fin 16) (d : Desc)
  /-- CREATE_AUDIO_OUTPUT (R262). -/
  | createAudioOutput (page : Fin 16) (d : Desc)
  /-- DELETE_AUDIO_OUTPUT (R262). -/
  | deleteAudioOutput (page : Fin 16) (d : Desc)
  /-- SET_OUTPUT_CHANNELS (R257). -/
  | setOutputChannels (page : Fin 16) (d : Desc)
  /-- GET_AUDIO_STATUS (R263). -/
  | getAudioStatus (page : Fin 16) (d : Desc)
  /-- SET_AUDIO_CLOCK (R262). -/
  | setAudioClock (page : Fin 16) (d : Desc)
  /-- AUDIO_CLOCK_MOVE (R262). -/
  | audioClockMove
  /-- AUDIO_PACKET (R258). -/
  | audioPacket (source : Word) (p : AudPacket)
  /-- AUDIO_PLAYOUT_MISSING (R258). -/
  | audioPlayoutMissing (source : Word)
  /-- AUDIO_BUFFER_TARGET (R258). -/
  | audioBufferTarget (source : Word)
  /-- SRC_UNLOCK (R251). -/
  | srcUnlock (source : Word)
  /-- AUDIO_RAMP_END (R255). -/
  | audioRampEnd (output : Word) (channel : Fin 64)
  /-- SET_CANDIDATE (R264). -/
  | setCandidate (page : Fin 16) (d : Desc)
  /-- SET_SELECTION (R268). -/
  | setSelection (page : Fin 16) (d : Desc)
  /-- SET_TIMING_DOMAIN (R275). -/
  | setTimingDomain (page : Fin 16) (d : Desc)
  /-- SET_FRAME_PULSE (R276). -/
  | setFramePulse (page : Fin 16) (d : Desc)
  /-- GET_TIMING_STATUS (R280). -/
  | getTimingStatus (page : Fin 16) (d : Desc)
  /-- SELECTOR_EVALUATION (R268). -/
  | selectorEvaluation
  /-- CANDIDATE_FAULT (R266). -/
  | candidateFault (index : Fin 8)
  /-- QUAL_TIME_EXPIRY (R266). -/
  | qualTimeExpiry (index : Fin 8)
  /-- REFIN_EDGE (R264). -/
  | refinEdge (refin : Fin 4) (falling : Bool) (phaseNs : Int)
  /-- PTP_MESSAGE (R277). -/
  | ptpMessage (port : Fin 8) (m : PtpMsg)
  /-- SLEW_DONE (R270). -/
  | slewDone
  /-- HOLDOVER_DATA_VALID (R272). -/
  | holdoverDataValid
  /-- SET_LINK_PORT (R302). -/
  | setLinkPort (page : Fin 16) (d : Desc)
  /-- RETRAIN (R302). -/
  | retrain (page : Fin 16) (d : Desc)
  /-- GET_LINK_STATUS (R303). -/
  | getLinkStatus (page : Fin 16) (d : Desc)
  /-- SET_LINK_TEST (R297). -/
  | setLinkTest (page : Fin 16) (d : Desc)
  /-- GET_LINK_CAPS (R303). -/
  | getLinkCaps (page : Fin 16) (d : Desc)
  /-- LINK_CK_DETECTED (R290). -/
  | linkCkDetected (port : Fin 32)
  /-- TRAIN_BLOCK (R290). -/
  | trainBlock (port : Fin 32) (b : CtlBlock) (locked : BitVec 4)
  /-- LINK_LOCK_HELD (R290). -/
  | linkLockHeld (port : Fin 32)
  /-- ALIGN_BLOCK (R285). -/
  | alignBlock (port : Fin 32) (b : CtlBlock) (agree : Bool)
  /-- ALIGN_INTERVAL (R285). -/
  | alignInterval (port : Fin 32) (lane : Fin 4)
  /-- CAPS_BLOCK (R292). -/
  | capsBlock (port : Fin 32) (b : CtlBlock)
  /-- CAPS_MESSAGE (R292). -/
  | capsMessage (port : Fin 32) (m : BackMsg)
  /-- STATUS_MESSAGE (R289). -/
  | statusMessage (port : Fin 32) (m : BackMsg)
  /-- STATUS_PERIOD (R289). -/
  | statusPeriod (port : Fin 32)
  /-- BACK_LOST (R289). -/
  | backLost (port : Fin 32)
  /-- LP_BLOCK (R295). -/
  | lpBlock (port : Fin 32) (b : CtlBlock)
  /-- LP_ACK (R295). -/
  | lpAck (port : Fin 32) (m : BackMsg)
  /-- LP_NAK (R295). -/
  | lpNak (port : Fin 32) (m : BackMsg)
  /-- LOW2_IDLE_EXPIRY (R296). -/
  | low2IdleExpiry (port : Fin 32)
  /-- FS_BLOCK (R286). -/
  | fsBlock (port : Fin 32) (b : CtlBlock)
  /-- LS_BLOCK (R286). -/
  | lsBlock (port : Fin 32) (b : CtlBlock) (data : List CtlBlock) (full : Bool := false)
  /-- FE_BLOCK (R286). -/
  | feBlock (port : Fin 32) (b : CtlBlock)
  /-- ANC_BLOCK (R287). -/
  | ancBlock (port : Fin 32) (b : CtlBlock) (data : List CtlBlock)
  /-- AUD_BLOCK (R288). -/
  | audBlock (port : Fin 32) (b : CtlBlock) (data : List CtlBlock)
  /-- LINK_LOS (R294). -/
  | linkLos (port : Fin 32)
  /-- LINK_LOL (R294). -/
  | linkLol (port : Fin 32)
  /-- LINK_STATE_TIMEOUT (R291). -/
  | linkStateTimeout (port : Fin 32)
  /-- LINK_ERROR_HOLD (R291). -/
  | linkErrorHold (port : Fin 32)
  /-- LINK_ACTIVE_HOLD (R291). -/
  | linkActiveHold (port : Fin 32)
  /-- SET_ETH_PORT (R322). -/
  | setEthPort (page : Fin 16) (d : Desc)
  /-- CREATE_STREAM_ENTRY (R307). -/
  | createStreamEntry (page : Fin 16) (d : Desc)
  /-- DELETE_STREAM_ENTRY (R322). -/
  | deleteStreamEntry (page : Fin 16) (d : Desc)
  /-- SET_RELAY (R309). -/
  | setRelay (page : Fin 16) (d : Desc)
  /-- CREATE_FLOW (R310). -/
  | createFlow (page : Fin 16) (d : Desc)
  /-- DELETE_FLOW (R322). -/
  | deleteFlow (page : Fin 16) (d : Desc)
  /-- ARM_YOYO (R322). -/
  | armYoyo (page : Fin 16) (d : Desc)
  /-- YOYO_SWITCH (R320). -/
  | yoyoSwitch (page : Fin 16) (d : Desc)
  /-- GET_ETH_STATUS (R322). -/
  | getEthStatus (page : Fin 16) (d : Desc)
  /-- SEND_ANC (R313). -/
  | sendAnc (page : Fin 16) (d : Desc)
  /-- ETH_PACKET (R305). -/
  | ethPacket (port : Fin 8) (p : EthPacket)
  /-- ETH_LINK_DOWN (R321). -/
  | ethLinkDown (port : Fin 8) (sub : Fin 4 := 0)
  /-- ETH_LINK_UP (R321). -/
  | ethLinkUp (port : Fin 8) (sub : Fin 4 := 0)
  /-- YOYO_EVALUATION (R315). -/
  | yoyoEvaluation (pair : Fin 4)
  /-- SILENCE_TIMEOUT (R315). -/
  | silenceTimeout (pair : Fin 4)
  /-- NEXTHOP_PROBE (R315). -/
  | nexthopProbe (pair : Fin 4)
  /-- NEXTHOP_TIMEOUT (R315). -/
  | nexthopTimeout (pair : Fin 4)
  /-- ARP_REPLY (R304). -/
  | arpReply (port : Fin 8) (address : BitVec 128) (mac : BitVec 48) (sub : Fin 4 := 0)
  /-- NEXTHOP_REFRESH (R304). -/
  | nexthopRefresh
  /-- HOLDOFF_EXPIRY (R318). -/
  | holdoffExpiry (pair : Fin 4)
  /-- HOLDOFF_RESTORE (R318). -/
  | holdoffRestore (pair : Fin 4)
  /-- BOTH_LOST_NEXTHOP_HOLD (R319). -/
  | bothLostNexthopHold (pair : Fin 4) (portB : Bool)
  /-- GET_POOL_DRIVES (R345). -/
  | getPoolDrives (page : Fin 16) (d : Desc)
  /-- FORMAT_POOL (R327). -/
  | formatPool (page : Fin 16) (d : Desc)
  /-- POOL_DONE (R327). -/
  | poolDone
  /-- GET_POOL_STATUS (R345). -/
  | getPoolStatus (page : Fin 16) (d : Desc)
  /-- CREATE_RECORDING (R328). -/
  | createRecording (page : Fin 16) (d : Desc)
  /-- CLOSE_RECORDING (R345). -/
  | closeRecording (page : Fin 16) (d : Desc)
  /-- ASSIGN_RECORDING (R339). -/
  | assignRecording (page : Fin 16) (d : Desc)
  /-- EXPORT_SEGMENTS (R341). -/
  | exportSegments (page : Fin 16) (d : Desc)
  /-- READ_MANIFEST (R341). -/
  | readManifest (page : Fin 16) (d : Desc)
  /-- MARK_EXPORTED (R341). -/
  | markExported (page : Fin 16) (d : Desc)
  /-- DELETE_SEGMENTS (R340). -/
  | deleteSegments (page : Fin 16) (d : Desc)
  /-- GET_RECORDING_STATUS (R345). -/
  | getRecordingStatus (page : Fin 16) (d : Desc)
  /-- CREATE_ENCODE_CONTEXT (R343). -/
  | createEncodeContext (page : Fin 16) (d : Desc)
  /-- DELETE_ENCODE_CONTEXT (R342). -/
  | deleteEncodeContext (page : Fin 16) (d : Desc)
  /-- GET_ENCODE_STATUS (R345). -/
  | getEncodeStatus (page : Fin 16) (d : Desc)
  /-- ENCODE_FRAME_DONE (R343). -/
  | encodeFrameDone (ctx : Word) (bytes : BitVec 32) (clipped : Bool)
  /-- DRIVE_PRESENCE_CHANGE (R323). -/
  | drivePresenceChange (root : Fin 4) (d : DriveInfo) (added : Bool)
  /-- NVME_COMPLETION (R324). -/
  | nvmeCompletion (slot : Fin 256) (ok : Bool)
  /-- NVME_TIMEOUT (R325). -/
  | nvmeTimeout (slot : Fin 256)
  /-- STALL_HEADER_RETRY (R325). -/
  | stallHeaderRetry (slot : Fin 256) (ok : Bool)
  /-- SMART_POLL (R323). -/
  | smartPoll (root : Fin 4) (warning : Bool)
  /-- SEGMENT_TIME_LIMIT (R331). -/
  | segmentTimeLimit (stream : Word)
  /-- POSTROLL_EXPIRY (R337). -/
  | postrollExpiry (stream : Word)
  /-- MANIFEST_SIGNED (R336). -/
  | manifestSigned
  /-- GENERATE_KEY (R352). -/
  | generateKey (page : Fin 16) (d : Desc)
  /-- ZEROISE_KEY (R348). -/
  | zeroiseKey (page : Fin 16) (d : Desc)
  /-- GET_ATTESTATION (R352). -/
  | getAttestation (page : Fin 16) (d : Desc)
  /-- GET_IDENTITY (R350). -/
  | getIdentity (page : Fin 16) (d : Desc)
  /-- SIGN_DIGEST (R353). -/
  | signDigest (page : Fin 16) (d : Desc)
  /-- CRYPT_DATA (R354). -/
  | cryptData (page : Fin 16) (d : Desc)
  /-- GET_VAULT_STATUS (R357). -/
  | getVaultStatus (page : Fin 16) (d : Desc)
  /-- ENTROPY_HEALTH_CHANGE (R355). -/
  | entropyHealthChange (healthy : Bool)
  /-- SET_DOMINO (R372). -/
  | setDomino (page : Fin 16) (d : Desc)
  /-- GET_DOMINO_STATUS (R372). -/
  | getDominoStatus (page : Fin 16) (d : Desc)
  /-- CREATE_EXPORT (R369). -/
  | createExport (page : Fin 16) (d : Desc)
  /-- DELETE_EXPORT (R372). -/
  | deleteExport (page : Fin 16) (d : Desc)
  /-- CREATE_IMPORT (R370). -/
  | createImport (page : Fin 16) (d : Desc)
  /-- DOMINO_QUERY (R370). -/
  | dominoQuery (page : Fin 16) (d : Desc)
  /-- GROUP_FRAME_START (R361). -/
  | groupFrameStart
  /-- BEACON_BLOCK (R364). -/
  | beaconBlock (ring : Fin 4) (b : CtlBlock) (dNs : Int)
  /-- MARK_BLOCK (R364). -/
  | markBlock (ring : Fin 4) (b : CtlBlock) (dNs : Int)
  /-- STATE_BLOCK (R363). -/
  | stateBlock (ring : Fin 4) (b : CtlBlock)
  /-- REQUEST_BLOCK (R362). -/
  | requestBlock (ring : Fin 4) (b : CtlBlock)
  /-- ANSWER_BLOCK (R370). -/
  | answerBlock (ring : Fin 4) (b : CtlBlock)
  /-- IMPORT_REQUEST_TIMEOUT (R370). -/
  | importRequestTimeout
  /-- SUBSCRIPTION_RENEW (R370). -/
  | subscriptionRenew (source : Word)
  /-- RENEW_EXPIRED (R370). -/
  | renewExpired (member : Fin 4) (xport : Fin 64) (ring : Fin 4)
  /-- LEADERLESS_TIMEOUT (R366). -/
  | leaderlessTimeout
  /-- FORM_FAIL (R366). -/
  | formFail (loopNs : BitVec 32)
  /-- DIVERGENCE_PERSIST (R367). -/
  | divergencePersist
  /-- SET_EVENT_DELIVERY (R384). -/
  | setEventDelivery (page : Fin 16) (d : Desc)
  /-- READ_EVENTS (R384). -/
  | readEvents (page : Fin 16) (d : Desc)
  /-- SET_SEVERITY (R384). -/
  | setSeverity (page : Fin 16) (d : Desc)
  /-- GET_FAULT_STATUS (R384). -/
  | getFaultStatus (page : Fin 16) (d : Desc)
  /-- SET_QUIET_PERIOD (R384). -/
  | setQuietPeriod (page : Fin 16) (d : Desc)
  /-- ACK_FAULT (R384). -/
  | ackFault (page : Fin 16) (d : Desc)
  /-- SET_EVENT_TIMER (R384). -/
  | setEventTimer (page : Fin 16) (d : Desc)
  /-- EVENT_TIMER_EXPIRY (R384). -/
  | eventTimerExpiry (timer : Fin 4)
  /-- HBM_ECC_UNCORRECTED (R380). -/
  | hbmEccUncorrected (rivals : List (Fin 256 × Fin 16))
  /-- HBM_ECC_CORRECTED (R373). -/
  | hbmEccCorrected
  /-- FAULT_EXIT (R382). -/
  | faultExit (rival : Option (Fin 256 × Fin 16))
  /-- MUSIC_BOX_FOLD_EXPIRY (R379). -/
  | musicBoxFoldExpiry (source : Fin 256)
  /-- FIRMWARE_EXCEPTION (R373). -/
  | firmwareException
  /-- WRITE_PARAM_PAGE (R398). -/
  | writeParamPage (page : Fin 16) (d : Desc)
  /-- READ_PARAM_PAGE (R399). -/
  | readParamPage (page : Fin 16) (d : Desc)
  /-- STORE (R399). -/
  | store (page : Fin 16) (d : Desc)
  /-- RECALL_PARAMS (R399). -/
  | recallParams (page : Fin 16) (d : Desc)
  /-- READ_MUSIC_BOX (R400). -/
  | readMusicBox (page : Fin 16) (d : Desc)
  /-- WRITE_NOTE (R400). -/
  | writeNote (page : Fin 16) (d : Desc)
  /-- GET_PERSIST_STATUS (R401). -/
  | getPersistStatus (page : Fin 16) (d : Desc)
  /-- GET_TAMPER (R401). -/
  | getTamper (page : Fin 16) (d : Desc)
  /-- SET_TAMPER (R401). -/
  | setTamper (page : Fin 16) (d : Desc)
  /-- STORE_DONE (R386). -/
  | storeDone (failed : List (Fin 13312))
  /-- POWER_FAIL_DETECT (R389). -/
  | powerFailDetect (brownOut : Bool) (pfail : Bool) (storeCompletes : Bool) (failed : List (Fin 13312) := [])
  /-- CHECKPOINT_TIMER (R390). -/
  | checkpointTimer
  /-- TAMPER_EDGE (R395). -/
  | tamperEdge (input : Fin 4) (high : Bool)
  /-- VBAT_CHECK (R397). -/
  | vbatCheck (millivolts : BitVec 16)
  /-- SET_ENVELOPE (R405). -/
  | setEnvelope (page : Fin 16) (d : Desc)
  /-- SET_THERMAL (R414). -/
  | setThermal (page : Fin 16) (d : Desc)
  /-- SET_ADC (R414). -/
  | setAdc (page : Fin 16) (d : Desc)
  /-- GET_HEALTH (R414). -/
  | getHealth (page : Fin 16) (d : Desc)
  /-- PLANNER_RUN (R403). -/
  | plannerRun (slowdowns : List (BitVec 24)) (nack : Bool) (edges : List (Fin 5 × Fin 32 × Fin 4 × Bool))
  /-- THERMAL_SAMPLE (R406). -/
  | thermalSample (readings : List Int) (lost : Option (Fin 512 × Bool) := none)
  /-- THROTTLE_HOLD_EXPIRY (R407). -/
  | throttleHoldExpiry (lost : Option (Fin 512 × Bool) := none)
  /-- HBM_TEMPERATURE (R408). -/
  | hbmTemperature (tenths : Int) (stack : Fin 2 := 0)
  /-- RAIL_EXCURSION (R409). -/
  | railExcursion (rail : Fin 10) (above : Bool) (back : Nat := 0)
  /-- ADC_CONVERSION_DONE (R410). -/
  | adcConversionDone (input : Fin 8) (startCode : BitVec 12) (endCode : BitVec 12)
  /-- GET_FW_STATUS (R427). -/
  | getFwStatus (page : Fin 16) (d : Desc)
  /-- FLASH_READ (R425). -/
  | flashRead (page : Fin 16) (d : Desc)
  /-- FLASH_ERASE (R425). -/
  | flashErase (page : Fin 16) (d : Desc)
  /-- FLASH_WRITE (R425). -/
  | flashWrite (page : Fin 16) (d : Desc)
  /-- FLASH_DONE (R425). -/
  | flashDone (badAddress : Option (BitVec 32))
  /-- FW_ACTIVATE (R426). -/
  | fwActivate (page : Fin 16) (d : Desc)
  /-- FW_CONFIRM (R426). -/
  | fwConfirm (page : Fin 16) (d : Desc)
  /-- PORST_N_RELEASE (R422). -/
  | porstNRelease (st : Straps)
  /-- PORST_N_ASSERT (R390). -/
  | porstNAssert
  /-- WATCHDOG_EXPIRY (R417). -/
  | watchdogExpiry
  /-- LOCKED_SEQUENCE_TIMEOUT (R429). -/
  | lockedSequenceTimeout (master : Fin 6) (target : BitVec 23)
  /-- PCIE_LINK_DOWN (R44). -/
  | pcieLinkDown
  /-- PCIE_LINK_UP (R373). -/
  | pcieLinkUp
  /-- PCIE_HOT_RESET (R44). -/
  | pcieHotReset
  /-- VF_FLR (R44). -/
  | vfFlr (fn : Fin 16)
  /-- PF_FLR (R44). -/
  | pfFlr
  /-- GPIO_EDGE (R373). -/
  | gpioEdge (pin : Fin 16)
  /-- SRC_RELOCK (R251). -/
  | srcRelock (source : Word)
  /-- PRBS_SYNC (R297). -/
  | prbsSync (port : Fin 32) (lane : Fin 4)
  /-- PRBS_SYNC_LOST (R297). -/
  | prbsSyncLost (port : Fin 32) (lane : Fin 4) (errors : BitVec 32) (blocks : BitVec 32)
  /-- FEC_CODEWORD_UNCORRECTED (R321). -/
  | fecCodewordUncorrected (port : Fin 8) (sub : Fin 4 := 0)
  /-- RESOLVE_FAIL (R309). -/
  | resolveFail (port : Fin 8) (address : BitVec 128) (sub : Fin 4 := 0)
  /-- READ_OBJECT_DONE (R134). -/
  | readObjectDone (rows : BitVec 16) (pcieError : Bool)
  /-- EXPORT_DONE (R341). -/
  | exportDone (units : BitVec 16) (pcieError : Bool)
  /-- DIGEST_SIGNED (R353). -/
  | digestSigned
  /-- HBM_SLEEP_EXIT (R227). -/
  | hbmSleepExit
  /-- AUDIO_OUTPUT_PACKET (R259). -/
  | audioOutputPacket (output : Word)
  /-- PCIE_AER_ERROR (R373). -/
  | pcieAerError (uncorrectable : Bool)
  /-- DEBUG_ATTACH (R373). -/
  | debugAttach
  /-- DEBUG_DETACH (R373). -/
  | debugDetach
  /-- DEBUG_HALT (R373). -/
  | debugHalt
  /-- VDD_CORE_BROWN_OUT_END (R415). -/
  | vddCoreBrownOutEnd (st : Straps)
  deriving DecidableEq, Repr

end Sys2Proof
end

