-- ==== Sys2Proof/Decode.lean ====
section
/-! DEFINITION. The opcode table gives its rows no bits, so no word of the table spells a command. A mailbox opcode
arrives as a descriptor (R36): which page, opcode and descriptor a row has (Tables 2-8 to 20-6). -/

namespace Sys2Proof

/-- The command a word spells by the table's bits: the table gives none, so none. -/
def decodeTableWord (_nbits _w : Nat) : Option Instr := none

/-- The page, opcode and descriptor of a row that is a mailbox opcode; none for an event, nor for a request that meets
closes in its cycle (R16), whose effect is more than its descriptor's. -/
def Instr.command (i : Instr) : Option (Fin 16 × Nat × Desc) :=
  match i with
  | .cmdTailWrite _ _ => none
  | .cplHeadWrite _ _ => none
  | .ntfHeadWrite _ _ => none
  | .ntfOvfClear _ _ => none
  | .ptrErrClear _ _ => none
  | .ntfLostRead _ _ => none
  | .ptimeLoRead _ => none
  | .errValidClear _ => none
  | .errMoreClear _ => none
  | .accessRefused _ => none
  | .causeClear _ _ _ => none
  | .severityWrite _ _ => none
  | .firstValidClear _ => none
  | .overflowClear _ => none
  | .quietMsWrite _ => none
  | .registerWrite _ _ _ _ => none
  | .msixUnmask _ _ => none
  | .bar2AccessRefused _ => none
  | .commandTake => none
  | .lateCompletion _ => none
  | .commitHandOff => none
  | .identify p d => some (p, 0x0100, d)
  | .getCapabilities p d => some (p, 0x0101, d)
  | .getVersions p d => some (p, 0x0102, d)
  | .reset p d => some (p, 0x0103, d)
  | .partitionResetQuiet => none
  | .deviceResetDelay _ => none
  | .echo p d => some (p, 0x0104, d)
  | .commit p d => some (p, 0x0110, d)
  | .discardStaged p d => some (p, 0x0111, d)
  | .getEpoch p d => some (p, 0x0112, d)
  | .createPartition p d => some (p, 0x0200, d)
  | .deletePartition p d => some (p, 0x0201, d)
  | .partitionFreed _ => none
  | .setQuota p d => some (p, 0x0202, d)
  | .getQuota p d => some (p, 0x0203, d)
  | .grantSource p d => some (p, 0x0204, d)
  | .revokeGrant p d => some (p, 0x0205, d)
  | .listGrants p d => some (p, 0x0206, d)
  | .readChangeLog p d => some (p, 0x0207, d)
  | .createLinkStream p d => some (p, 0x0300, d)
  | .create2110Stream p d => some (p, 0x0301, d)
  | .createSurfaceSource p d => some (p, 0x0302, d)
  | .modifyStream p d => some (p, 0x0303, d)
  | .startStream p d => some (p, 0x0304, d)
  | .stopStream p d => some (p, 0x0305, d)
  | .deleteStream p d => some (p, 0x0306, d)
  | .getStreamStatus p d => some (p, 0x0307, d)
  | .readAnc p d => some (p, 0x0308, d)
  | .uploadSurface p d => some (p, 0x0309, d)
  | .surfaceDone _ _ => none
  | .createDecodeContext p d => some (p, 0x0310, d)
  | .deleteDecodeContext p d => some (p, 0x0311, d)
  | .getDecodeStatus p d => some (p, 0x0312, d)
  | .resyncDecode p d => some (p, 0x0313, d)
  | .frameStart _ _ => none
  | .frameClose _ => none
  | .patchCopyDone _ => none
  | .streamStallTimeout _ => none
  | .st2110Packet _ _ => none
  | .ancPacket _ _ => none
  | .streamEntryPacket _ _ => none
  | .decodePictureDone _ _ => none
  | .decodeBudgetExpiry _ _ => none
  | .acquireObject p d rivals => if rivals = 0 then some (p, 0x0400, d) else none
  | .releaseObject p d => some (p, 0x0401, d)
  | .getObjectInfo p d => some (p, 0x0402, d)
  | .readObject p d => some (p, 0x0403, d)
  | .setPlacement p d => some (p, 0x0404, d)
  | .createTimeshift p d => some (p, 0x0405, d)
  | .seekTimeshift p d => some (p, 0x0406, d)
  | .deleteTimeshift p d => some (p, 0x0407, d)
  | .getRingStatus p d => some (p, 0x0408, d)
  | .getToyboxStatus p d => some (p, 0x0409, d)
  | .spillCopyDone _ _ => none
  | .spillLate _ => none
  | .recallStart _ => none
  | .recallDone _ _ => none
  | .timeshiftPresentation _ => none
  | .createProcessedSource p d => some (p, 0x0500, d)
  | .modifyProcessedSource p d => some (p, 0x0501, d)
  | .deleteProcessedSource p d => some (p, 0x0502, d)
  | .loadKernelData p d => some (p, 0x0503, d)
  | .setLadder p d => some (p, 0x0504, d)
  | .submitJob p d rivals => if rivals = 0 then some (p, 0x0505, d) else none
  | .cancelJob p d => some (p, 0x0506, d)
  | .getJobStatus p d => some (p, 0x0507, d)
  | .getEngineStatus p d => some (p, 0x0508, d)
  | .getKernelLibrary p d => some (p, 0x0509, d)
  | .loadKernel p d => some (p, 0x050A, d)
  | .jobRelease _ _ _ => none
  | .workItemDone _ => none
  | .deadlineMiss _ => none
  | .engineFault _ _ => none
  | .lmEccCorrected _ => none
  | .capacityRiseHold => none
  | .addRoute p d => some (p, 0x0600, d)
  | .modifyRoute p d => some (p, 0x0601, d)
  | .deleteRoute p d => some (p, 0x0602, d)
  | .stageSalvo p d => some (p, 0x0603, d)
  | .getRouteStatus p d => some (p, 0x0604, d)
  | .getDestination p d => some (p, 0x0605, d)
  | .setLayer p d => some (p, 0x0700, d)
  | .setComposition p d => some (p, 0x0701, d)
  | .setMatrix p d => some (p, 0x0702, d)
  | .loadCoefficients p d => some (p, 0x0703, d)
  | .readCoefficients p d => some (p, 0x0704, d)
  | .getLayerStatus p d => some (p, 0x0705, d)
  | .getHeadBudget p d => some (p, 0x0706, d)
  | .setHeadMode p d => some (p, 0x0800, d)
  | .bindSink p d => some (p, 0x0801, d)
  | .setCrcRects p d => some (p, 0x0802, d)
  | .getHeadStatus p d => some (p, 0x0803, d)
  | .headApplyLine _ _ _ => none
  | .blankStart _ _ => none
  | .lineMatch _ _ => none
  | .headFetchStart _ => none
  | .headLineZero _ => none
  | .layerUnderrun _ _ _ _ => none
  | .domainFrameTick _ _ _ => none
  | .createAudioInput p d => some (p, 0x0900, d)
  | .deleteAudioInput p d => some (p, 0x0901, d)
  | .createAudioOutput p d => some (p, 0x0902, d)
  | .deleteAudioOutput p d => some (p, 0x0903, d)
  | .setOutputChannels p d => some (p, 0x0904, d)
  | .getAudioStatus p d => some (p, 0x0905, d)
  | .setAudioClock p d => some (p, 0x0906, d)
  | .audioClockMove => none
  | .audioPacket _ _ => none
  | .audioPlayoutMissing _ => none
  | .audioBufferTarget _ => none
  | .srcUnlock _ => none
  | .audioRampEnd _ _ => none
  | .setCandidate p d => some (p, 0x0A00, d)
  | .setSelection p d => some (p, 0x0A01, d)
  | .setTimingDomain p d => some (p, 0x0A02, d)
  | .setFramePulse p d => some (p, 0x0A03, d)
  | .getTimingStatus p d => some (p, 0x0A04, d)
  | .selectorEvaluation => none
  | .candidateFault _ => none
  | .qualTimeExpiry _ => none
  | .refinEdge _ _ _ => none
  | .ptpMessage _ _ => none
  | .slewDone => none
  | .holdoverDataValid => none
  | .setLinkPort p d => some (p, 0x0B00, d)
  | .retrain p d => some (p, 0x0B01, d)
  | .getLinkStatus p d => some (p, 0x0B02, d)
  | .setLinkTest p d => some (p, 0x0B03, d)
  | .getLinkCaps p d => some (p, 0x0B04, d)
  | .linkCkDetected _ => none
  | .trainBlock _ _ _ => none
  | .linkLockHeld _ => none
  | .alignBlock _ _ _ => none
  | .alignInterval _ _ => none
  | .capsBlock _ _ => none
  | .capsMessage _ _ => none
  | .statusMessage _ _ => none
  | .statusPeriod _ => none
  | .backLost _ => none
  | .lpBlock _ _ => none
  | .lpAck _ _ => none
  | .lpNak _ _ => none
  | .low2IdleExpiry _ => none
  | .fsBlock _ _ => none
  | .lsBlock _ _ _ _ => none
  | .feBlock _ _ => none
  | .ancBlock _ _ _ => none
  | .audBlock _ _ _ => none
  | .linkLos _ => none
  | .linkLol _ => none
  | .linkStateTimeout _ => none
  | .linkErrorHold _ => none
  | .linkActiveHold _ => none
  | .setEthPort p d => some (p, 0x0C00, d)
  | .createStreamEntry p d => some (p, 0x0C01, d)
  | .deleteStreamEntry p d => some (p, 0x0C02, d)
  | .setRelay p d => some (p, 0x0C03, d)
  | .createFlow p d => some (p, 0x0C04, d)
  | .deleteFlow p d => some (p, 0x0C05, d)
  | .armYoyo p d => some (p, 0x0C06, d)
  | .yoyoSwitch p d => some (p, 0x0C07, d)
  | .getEthStatus p d => some (p, 0x0C08, d)
  | .sendAnc p d => some (p, 0x0C09, d)
  | .ethPacket _ _ => none
  | .ethLinkDown _ _ => none
  | .ethLinkUp _ _ => none
  | .yoyoEvaluation _ => none
  | .silenceTimeout _ => none
  | .nexthopProbe _ => none
  | .nexthopTimeout _ => none
  | .arpReply _ _ _ _ => none
  | .nexthopRefresh => none
  | .holdoffExpiry _ => none
  | .holdoffRestore _ => none
  | .bothLostNexthopHold _ _ => none
  | .getPoolDrives p d => some (p, 0x0D00, d)
  | .formatPool p d => some (p, 0x0D01, d)
  | .poolDone => none
  | .getPoolStatus p d => some (p, 0x0D02, d)
  | .createRecording p d => some (p, 0x0D03, d)
  | .closeRecording p d => some (p, 0x0D04, d)
  | .assignRecording p d => some (p, 0x0D05, d)
  | .exportSegments p d => some (p, 0x0D06, d)
  | .readManifest p d => some (p, 0x0D07, d)
  | .markExported p d => some (p, 0x0D08, d)
  | .deleteSegments p d => some (p, 0x0D09, d)
  | .getRecordingStatus p d => some (p, 0x0D0A, d)
  | .createEncodeContext p d => some (p, 0x0D10, d)
  | .deleteEncodeContext p d => some (p, 0x0D11, d)
  | .getEncodeStatus p d => some (p, 0x0D12, d)
  | .encodeFrameDone _ _ _ => none
  | .drivePresenceChange _ _ _ => none
  | .nvmeCompletion _ _ => none
  | .nvmeTimeout _ => none
  | .stallHeaderRetry _ _ => none
  | .smartPoll _ _ => none
  | .segmentTimeLimit _ => none
  | .postrollExpiry _ => none
  | .manifestSigned => none
  | .generateKey p d => some (p, 0x0E00, d)
  | .zeroiseKey p d => some (p, 0x0E01, d)
  | .getAttestation p d => some (p, 0x0E02, d)
  | .getIdentity p d => some (p, 0x0E03, d)
  | .signDigest p d => some (p, 0x0E04, d)
  | .cryptData p d => some (p, 0x0E05, d)
  | .getVaultStatus p d => some (p, 0x0E06, d)
  | .entropyHealthChange _ => none
  | .setDomino p d => some (p, 0x0F00, d)
  | .getDominoStatus p d => some (p, 0x0F01, d)
  | .createExport p d => some (p, 0x0F02, d)
  | .deleteExport p d => some (p, 0x0F03, d)
  | .createImport p d => some (p, 0x0F04, d)
  | .dominoQuery p d => some (p, 0x0F05, d)
  | .groupFrameStart => none
  | .beaconBlock _ _ _ => none
  | .markBlock _ _ _ => none
  | .stateBlock _ _ => none
  | .requestBlock _ _ => none
  | .answerBlock _ _ => none
  | .importRequestTimeout => none
  | .subscriptionRenew _ => none
  | .renewExpired _ _ _ => none
  | .leaderlessTimeout => none
  | .formFail _ => none
  | .divergencePersist => none
  | .setEventDelivery p d => some (p, 0x1000, d)
  | .readEvents p d => some (p, 0x1001, d)
  | .setSeverity p d => some (p, 0x1002, d)
  | .getFaultStatus p d => some (p, 0x1003, d)
  | .setQuietPeriod p d => some (p, 0x1004, d)
  | .ackFault p d => some (p, 0x1005, d)
  | .setEventTimer p d => some (p, 0x1006, d)
  | .eventTimerExpiry _ => none
  | .hbmEccUncorrected _ => none
  | .hbmEccCorrected => none
  | .faultExit _ => none
  | .musicBoxFoldExpiry _ => none
  | .firmwareException => none
  | .writeParamPage p d => some (p, 0x1100, d)
  | .readParamPage p d => some (p, 0x1101, d)
  | .store p d => some (p, 0x1102, d)
  | .recallParams p d => some (p, 0x1103, d)
  | .readMusicBox p d => some (p, 0x1104, d)
  | .writeNote p d => some (p, 0x1105, d)
  | .getPersistStatus p d => some (p, 0x1106, d)
  | .getTamper p d => some (p, 0x1107, d)
  | .setTamper p d => some (p, 0x1108, d)
  | .storeDone _ => none
  | .powerFailDetect _ _ _ _ => none
  | .checkpointTimer => none
  | .tamperEdge _ _ => none
  | .vbatCheck _ => none
  | .setEnvelope p d => some (p, 0x1200, d)
  | .setThermal p d => some (p, 0x1201, d)
  | .setAdc p d => some (p, 0x1202, d)
  | .getHealth p d => some (p, 0x1203, d)
  | .plannerRun _ _ _ => none
  | .thermalSample _ _ => none
  | .throttleHoldExpiry _ => none
  | .hbmTemperature _ _ => none
  | .railExcursion _ _ _ => none
  | .adcConversionDone _ _ _ => none
  | .getFwStatus p d => some (p, 0x1300, d)
  | .flashRead p d => some (p, 0x1301, d)
  | .flashErase p d => some (p, 0x1302, d)
  | .flashWrite p d => some (p, 0x1303, d)
  | .flashDone _ => none
  | .fwActivate p d => some (p, 0x1304, d)
  | .fwConfirm p d => some (p, 0x1305, d)
  | .porstNRelease _ => none
  | .porstNAssert => none
  | .watchdogExpiry => none
  | .lockedSequenceTimeout _ _ => none
  | .pcieLinkDown => none
  | .pcieLinkUp => none
  | .pcieHotReset => none
  | .vfFlr _ => none
  | .pfFlr => none
  | .gpioEdge _ => none
  | .srcRelock _ => none
  | .prbsSync _ _ => none
  | .prbsSyncLost _ _ _ _ => none
  | .fecCodewordUncorrected _ _ => none
  | .resolveFail _ _ _ => none
  | .readObjectDone _ _ => none
  | .exportDone _ _ => none
  | .digestSigned => none
  | .hbmSleepExit => none
  | .audioOutputPacket _ => none
  | .pcieAerError _ => none
  | .debugAttach => none
  | .debugDetach => none
  | .debugHalt => none
  | .vddCoreBrownOutEnd _ => none

end Sys2Proof
end

