-- ==== Sys2Proof/Config.lean ====
section
/-! DEFINITION. What an implementation, a firmware image or a standard outside the manual fixes:
constants without a body, so that nothing can be proved about the value chosen, and the free values
(`free…`), which stand for every value the manual leaves open. -/

namespace Sys2Proof.Config

/-- Boot ROM version (R57). -/
opaque romVersion : Word
/-- The 64-bit device unique number (R55). -/
opaque uniqueNumber : BitVec 64
/-- The pool identity is 64 random bits (R327, Table 14-2): one value for each format. -/
opaque poolIdentity : Nat → BitVec 64

/-- Default coefficient banks (R206, Table 8-6): the manual names their shape and gives no number;
bank, then the index of the halfword in the block of Table 8-7. -/
opaque defaultHCoef : Nat → Nat → BitVec 16
opaque defaultVCoef : Nat → Nat → BitVec 16

/-- ECDSA P-384 verification (R420): public key bytes, digest, signature bytes. -/
opaque ecdsaVerify : List Byte → BitVec 384 → List Byte → Bool
/-- Public keys of the roots, in the boot ROM and in the identity certificate: 0 production, 1 test (R420, Table 15-2). -/
opaque bootRoot : Nat → List Byte
/-- A byte of a boot control copy on the flash: the manual names its fields and gives no layout (R419); ACTIVE,
TRIAL, SEQ, CRC good, and the offset. -/
opaque bootControlByte : List Nat → Nat → Byte
/-- The device is of grade E, not I (Table 0-1), and its factory AVS setpoint in mV (R437). -/
opaque gradeE : Bool
opaque avsSetpoint : Nat
/-- The result of a conversion whose start and end samples differ: the manual does not say which it is (R410). -/
opaque adcResult : Nat → Nat → Nat

/-- SHA-384, a named standard outside the manual (R41, R331, R336, R351): bytes in, 384 bits out. -/
opaque sha384 : List Byte → BitVec 384
/-- ECDSA P-384 (R336, R352, R353): key number, digest, nonce; 96 bytes r then s. -/
opaque ecdsaSign : Nat → BitVec 384 → Nat → BitVec 768
/-- The public part of a P-384 key, x then y, 48 bytes each (Table 15-2, Table 15-3). -/
opaque ecdsaPublic : Nat → BitVec 768
/-- The root's signature over an identity certificate (Table 15-2). -/
opaque rootSig : Nat → BitVec 384 → BitVec 768
/-- AES-256-GCM (R354): key number, nonce, additional data and text; the ciphertext, the 16-byte tag of a
ciphertext, and the plaintext. -/
opaque gcmSeal : Nat → List Byte → List Byte → List Byte → List Byte
opaque gcmTag : Nat → List Byte → List Byte → List Byte → List Byte
opaque gcmOpen : Nat → List Byte → List Byte → List Byte → List Byte

/-- G.711 expansion (R251): µ-law or A-law, and the byte. -/
opaque g711Expand : Bool → Byte → BitVec 16
/-- A sample of an asynchronous rate converter's output (R247, R251), 24 bits: of an input channel, from its rate in Hz and
its packets with their playout times; and of an output channel. -/
opaque resample : Nat → Nat → List (Nat × List Int) → Nat → BitVec 24
opaque reclock : Nat → List Int → Nat → BitVec 24
/-- A phase in ns or a frequency in 0.001 ppm that the manual leaves to measurement (R270–R272). -/
opaque measured : Nat → Int
/-- The output frequency of the DPLL after an alignment event in LOCKED, before the limit of SLOPE (R271): BANDWIDTH,
the phase error, the frequency so far and the candidate's. -/
opaque tracked : Nat → Int → Int → Int → Int

/-- Where the manual names a quotient and gives no rounding: whether it is rounded up. -/
opaque roundUp : Nat → Nat → Bool
/-- A chroma sample whose neighbour lies outside the line (R83): the sample and its inner neighbour. -/
opaque edgeChroma : Nat → Nat → Nat
/-- A pixel that an edge of a polygon passes through belongs to it (R148); the place of a block grid of the given
size on an axis (R148); the part of a line of text at a place: 0 none, 1 box, 2 glyph (R148): size, characters, x and
y; the alpha of what a shape or text covers (R148): P4 variant. -/
opaque shapeEdge : Nat → Nat → Bool
opaque blockOrigin : Nat → Nat → Nat
opaque glyphAt : Nat → List Nat → Nat → Nat → Nat
opaque shapeAlpha : Nat → Nat
/-- A byte of what a work item leaves in an engine's local memory (R140): content number and address. -/
opaque localByte : Nat → Nat → Byte
/-- The PTP time carried while no KIND 3 entry gives one (R111, R277): seconds and nanoseconds. -/
opaque ptpOpen : Nat → Nat × Nat

/-- The scrambler of a lane of a port before its first block (R284): 58 bits. -/
opaque scramblerSeed : Nat → Nat → BitVec 58
/-- Bits in error that a lane's PRBS checker sees in a microsecond (R297): port, lane, powered time. -/
opaque prbsErrors : Nat → Nat → Nat → Nat
/-- Where a lane's PRBS generator starts (R297): port and lane. -/
opaque prbsSeed : Nat → Nat → Nat
/-- Which bit of every 10^RATE_EXP a lane inverts with RATE (R297): port and lane. -/
opaque prbsOffset : Nat → Nat → Nat

/-- Byte j of an encoded frame (R342): the value of State.free, the 4:2:0 picture, and j. -/
opaque encodedByte : Nat → List Nat → Nat → Byte

/-- How far ahead of the compositor a scanning head's layers have fetched, in ns: head and powered time (R226). -/
opaque fetchAhead : Nat → Nat → Nat

/-- A sample position beyond the last pixel in the last 64-bit word of a P20 row (R110): padding. -/
opaque padSample : Nat → Nat
/-- The four header words of a READ_ANC entry (R106): the manual names what an entry holds and gives the
header no layout; the fields, then the word's number. -/
opaque ancHeader : List Nat → Nat → Word

/-- A field of a SEND_ANC entry's header: 0 DID, 1 SDID, 2 line, 3 horizontal offset, 4 data count. -/
opaque ancField : List Word → Nat → Nat

/-- The MAC address of a port or sub-port, derived from the device unique number (R304). -/
opaque macAddress : Nat → Nat → Nat

/-- The SET_DOMINO body that another member was given (R363), and the 16-bit digest of an export table, whose
making the manual leaves open: export, peer partition and source of each entry. -/
opaque peerBody : Nat → List Word
opaque exportDigest : List (Nat × Nat × Nat) → BitVec 16
/-- A field of the format of a peer's export (R369, R370): member, export, field number. -/
opaque importFormat : Nat → Nat → Nat → Nat

/-- Work items of a job beyond one for each output tile: kernel, variant, output pixels (R142). -/
opaque extraItems : Nat → Nat → Nat → Nat

/-- Which bytes of a row that a store did not finish are new (R388, Table 18-1 code 3), and what byte of a row that did
not read back the medium holds (R386). -/
opaque tornTakes : Nat → Nat → Bool
opaque failedByte : Nat → Nat → Byte
/-- CRC-32 in the tag of a control row (R385): the manual names what STORE_MARK and CHECKPOINT hold and gives the row no
layout; what it holds, and the store number. -/
opaque controlRowTag : List Nat → Word
/-- A free 32-bit value: the n-th value the manual leaves open. -/
opaque freeWord : Nat → Word
/-- A free number. -/
opaque freeNat : Nat → Nat
/-- A free pixel: object content the manual does not compute, by content number, x and y. -/
opaque freePixel : Nat → Nat → Nat → Nat × Nat × Nat × Nat

end Sys2Proof.Config
end

