-- ==== Sys2Proof/Machine/State.lean ====
section
/-! DEFINITION. The state of the block as plain data: every register, queue, table, counter, mode and
pin the manual names (INVENTORY.md, State), and the queue of waiting commands. A structure's field
defaults are its values at reset; `State.reset` is the machine right after reset. Where the manual
gives no reset value the default is marked in notes/assumptions. -/

namespace Sys2Proof.Machine

open Sys2Proof

/-- A table by number: pairs of key and value, read through `Tbl.find` (Machine/Bits.lean). A key that
is not listed reads as the kind's reset value. -/
abbrev Tbl (α : Type) := List (Nat × α)

/-- A byte memory: listed cells differ from what an unlisted address reads as (Machine/Bits.lean). -/
abbrev Mem := List Host.Cell

/-- An exact non-negative fraction (R8, R48: exact amounts, without rounding). -/
structure Frac where
  num : Nat
  den : Nat := 1
  deriving DecidableEq, Repr

/-- Why the machine stops. -/
inductive Fault where
  /-- Raised by a meaning whose operands fail `Instr.wf` (WellFormed.lean): the term is no command of
  the table. Safe: no command the device takes is concerned. -/
  | illFormed
  deriving DecidableEq, Repr

/-- Why a command has no meaning here. -/
inductive Refusal where
  /-- Raised by an arm of Dispatch.lean that has no meaning yet. Safe. -/
  | notModelled (mnemonic : String)
  deriving DecidableEq, Repr

/-! ### Identity, status, reset and pins (R22, R390, R415–R423, R433–R434) -/

/-- How far the device has come (R415–R422, R434). -/
inductive Phase where
  /-- After a reset, before start-up: registers hold their reset values and no command is taken. -/
  | reset
  /-- VDD_CORE below its brown-out threshold, or PORST_N low: held in reset (R415). -/
  | held
  /-- TEST_MODE was high at PORST_N release: the device does not boot (R434). -/
  | factoryTest
  /-- No slot was accepted (R421). -/
  | romRecovery
  /-- Firmware ready (R422 step 10). -/
  | ready
  deriving DecidableEq, Repr

/-- The global block and the reset machinery. -/
structure Sys where
  phase : Phase := .reset
  fwReady : Bool := false
  debug : Bool := false
  maintTiming : Bool := true
  bootSlot : Nat := 0
  /-- Versions of the image that booted (Table 2-2, R57, Table 20-4); 0 before the first boot. -/
  fwVersion : Word := 0
  cmdsetVersion : Word := 0
  klibVersion : Word := 0
  /-- Powered time in µs (R9, R390) and the holding register of R23. -/
  ptime : BitVec 64 := 0
  ptimeRuns : Bool := false
  /-- PORST_N is low; VDD_CORE is below its brown-out threshold (R415). -/
  porstLow : Bool := true
  brownOut : Bool := false
  ptimeHold : Word := 0
  bootCount : Word := 0
  errOffset : BitVec 23 := 0
  errFunc : BitVec 4 := 0
  errWrite : Bool := false
  errSize : BitVec 3 := 0
  errMore : Bool := false
  errValid : Bool := false
  scratch : Word := 0
  /-- A device reset that is due: its cause (1 device reset, 2 watchdog) and the powered time (R58, R417). -/
  resetDue : Option (Nat × Nat) := none
  /-- The watchdog runs, and when it was started (R417). -/
  watchdog : Bool := false
  watchdogAt : Nat := 0
  /-- Host PCIe link (R44, R422). -/
  pcieUp : Bool := false
  ethRefclk : Bool := true
  /-- A debugger is attached (source 255). -/
  debugAttached : Bool := false
  /-- Levels of the GPIO inputs last seen (source 253); the balls reset to inputs with a pull-down (R434). -/
  gpio : BitVec 16 := 0
  /-- A locked sequence was broken (R429): the master whose remaining accesses are refused. -/
  lockBroken : Option Nat := none
  /-- RP_PERST_N0–3, held low until the powered time that follows: 100 ms after the reference output is stable (R442). -/
  rpPerst : BitVec 4 := 0
  perstDue : Option Nat := none
  deriving DecidableEq, Repr

/-! ### Mailbox pages (R27–R52) -/

/-- One entry of the replay window (R41): the tag, the digested message and the completion. -/
structure WinEntry where
  tag : BitVec 16
  digest : BitVec 128
  completion : List Word
  deriving DecidableEq, Repr

/-- What a commit's change applies to (R49, R52): a head, another destination of Table 7-1, a stream,
or an audio output. -/
inductive DestKey where
  | head (h : Nat)
  | dest (id : Nat)
  | source (h : Handle)
  | audio (id : Nat)
  deriving DecidableEq, Repr

/-- An admitted commit some destination has not applied yet (R52). -/
structure Outstanding where
  epoch : Word
  total : Nat
  waiting : List DestKey
  deriving DecidableEq, Repr

/-- A format block (Table 4-2). -/
structure Format where
  width : Nat := 64
  height : Nat := 64
  rate : Nat := 8
  interlaced : Bool := false
  sampling : Nat := 0
  depth : Nat := 0
  store : Nat := 0
  follow : Bool := false
  colour : Colour := {}
  ringDepth : Nat := 4
  stallFrames : Nat := 3
  ic : Nat := 15
  ancEn : Bool := false
  deriving DecidableEq, Repr

/-- A rectangle (R7). -/
structure Rect where
  x0 : Nat := 0
  y0 : Nat := 0
  x1 : Nat := 0
  y1 : Nat := 0
  deriving DecidableEq, Repr

/-- A head's raster timing (Table 9-1, Table 9-5); the defaults are maintenance timing. -/
structure Timing where
  hactive : Nat := 1280
  htotal : Nat := 1650
  hfront : Nat := 110
  hsync : Nat := 40
  hback : Nat := 220
  vactive : Nat := 720
  vtotal : Nat := 750
  vfront : Nat := 5
  vsync : Nat := 5
  vback : Nat := 20
  hpol : Bool := true
  vpol : Bool := true
  deriving DecidableEq, Repr

/-- A head's mode (SET_HEAD_MODE, Table 9-7). -/
structure HeadMode where
  enable : Bool := false
  sr : Bool := false
  format : Nat := 1
  rate : Nat := 8
  td : Nat := 0
  applyLine : Nat := 720
  lineMatch : Nat := 65535
  srFrames : Nat := 4
  timing : Timing := {}
  deriving DecidableEq, Repr

/-- A layer's parameters (SET_LAYER, Table 8-1). -/
structure LayerCfg where
  enable : Bool := false
  blend : Nat := 0
  opaqueBit : Bool := false
  galpha : Nat := 1023
  hbank : Nat := 0
  vbank : Nat := 0
  prescale : Bool := false
  preset : Nat := 0
  crop : Rect := {}
  dst : Rect := {}
  deriving DecidableEq, Repr

/-- SET_COMPOSITION (Table 8-2). -/
structure Comp where
  order : BitVec 24 := 0xFAC688
  background : BitVec 30 := 0
  transfer : Nat := 0
  primaries : Nat := 2
  outPreset : Nat := 1
  deriving DecidableEq, Repr

/-- A custom matrix: twelve entries, c00 c01 c02 off0 c10 … (Table 8-5). -/
abbrev Matrix := List Int

/-- A coefficient bank (R206): taps, 512 horizontal and 384 vertical entries. -/
structure Bank where
  vtaps : Nat := 6
  hcoef : List (BitVec 16) := []
  vcoef : List (BitVec 16) := []
  deriving DecidableEq, Repr

/-- A head's sink (R238, R244). -/
inductive Sink where
  | none
  | link (port sub lanes sampling depth : Nat)
  | ip (flow : Nat)
  | encoder (ctx : Handle)
  deriving DecidableEq, Repr

/-- Parameters of a processed source (Table 6-8). -/
structure ProcParams where
  kernel : Nat := 1
  variant : Nat := 0
  slot : Nat := 0
  ringDepth : Nat := 4
  outW : Nat := 0
  outH : Nat := 0
  outColour : Nat := 0
  strength : Nat := 0
  deriving DecidableEq, Repr

/-- A degradation ladder (R163). -/
structure Ladder where
  priority : Nat := 8
  rungs : List (Nat × Nat) := []
  deriving DecidableEq, Repr

/-- SET_OUTPUT_CHANNELS for one channel (Table 10-7). -/
structure ChanCfg where
  sel : Nat := 0
  src : Nat := 0
  inCh : Nat := 0
  mute : Bool := false
  align : Bool := false
  gain : Int := 0
  /-- Set by P0, which needs no grant (R250). -/
  byP0 : Bool := false
  ramp : Nat := 480
  delay : Int := 0
  delayMax : Nat := 9600
  deriving DecidableEq, Repr

/-- A staged change of a destination's route (R180). -/
inductive RouteOp where
  | add (route : Handle) (fade : Nat)
  | modify (route : Handle) (mode variant : Nat)
  | delete (route : Handle) (fade : Nat)
  deriving DecidableEq, Repr

/-- One staged item (R46). -/
inductive Staged where
  | route (dest : Nat) (op : RouteOp)
  | layer (head layer : Nat) (cfg : LayerCfg)
  | comp (head : Nat) (cfg : Comp)
  | matrix (head target : Nat) (m : Matrix)
  | coef (head bank : Nat) (b : Bank)
  | mode (head : Nat) (m : HeadMode)
  | sink (head : Nat) (k : Sink)
  | crc (head : Nat) (rects : List Rect)
  | stream (source : Handle) (f : Format)
  | proc (source : Handle) (p : ProcParams)
  | ladder (target : Handle) (l : Ladder)
  | audio (output first : Nat) (chans : List ChanCfg)
  deriving DecidableEq, Repr

/-- A mailbox page (Table 2-3, Table 2-4). -/
structure Mailbox where
  active : Bool := false
  ready : Bool := false
  ntfOvf : Bool := false
  ptrErr : Bool := false
  cplIE : Bool := false
  ntfIE : Bool := false
  stallIE : Bool := false
  cmdHead : BitVec 8 := 0
  cmdTail : BitVec 8 := 0
  cplHead : BitVec 9 := 0
  cplTail : BitVec 9 := 0
  ntfHead : BitVec 9 := 0
  ntfTail : BitVec 9 := 0
  epochStaged : Word := 0
  ntfLost : Nat := 0
  tagLast : BitVec 16 := 0
  ntfSeq : BitVec 16 := 0
  /-- The rings: command ring by word number, the others by slot. -/
  cmdRing : Tbl Word := []
  cplRing : Tbl (List Word) := []
  ntfRing : Tbl (List Word) := []
  window : List WinEntry := []
  staged : List Staged := []
  /-- Admitted commits not yet applied everywhere, oldest first, and the last epoch of this mailbox each
  destination has applied or resolved (R52). -/
  outstanding : List Outstanding := []
  applied : List (DestKey × Word) := []
  /-- A function-level reset waits for the executing command (R44). -/
  flrWaits : Bool := false
  deriving DecidableEq, Repr

/-- What a command that has been taken waits for before it completes (R31, R65). -/
inductive Waiting where
  /-- COMMIT waits until it is outside the apply span (R51): the epoch and the commit group. -/
  | handOff (epoch : Word) (group : List Nat)
  /-- RESET with scope PARTITION (R58). -/
  | quiet (target : Nat)
  /-- READ_OBJECT (R134): object slot, address, pitch, rectangle. -/
  | readObject (slot addr pitch : Nat) (r : Rect)
  /-- EXPORT_SEGMENTS or READ_MANIFEST (R341): stream, first, address, units. -/
  | exportSegs (stream : Handle) (first addr units : Nat)
  | exportMans (stream : Handle) (first addr units : Nat)
  /-- ZEROISE_KEY (R348): the key slot, whose last segments are being written. -/
  | zeroise (slot : Nat)
  /-- SIGN_DIGEST (R353): key slot, address, digest. -/
  | signDigest (slot addr : Nat) (digest : List Byte)
  /-- CREATE_IMPORT or DOMINO_QUERY waits for an ANSWER (R370): request number. -/
  | importReq (req origin xport ring : Nat) (f : Format)
  | query (req origin : Nat)
  /-- STORE (R399): the number of its store. -/
  | store (number : Nat)
  /-- SET_TAMPER with CLEAR (R401): the store that holds the latch's record. -/
  | tamper (number : Nat)
  deriving DecidableEq, Repr

/-- The command Puppeteer is executing (R65). -/
structure Executing where
  page : Nat
  opcode : Nat
  tag : BitVec 16
  epoch : Word
  digest : BitVec 128
  firstHandle : Nat
  takenAt : Nat
  /-- The longest time it may take, in µs, and whether LATE_COMPLETION has been raised (R31). -/
  bound : Nat
  late : Bool := false
  waits : Waiting
  deriving DecidableEq, Repr

/-! ### Partitions (R62–R78) -/

/-- Quotas in the order of Table 3-1, codes 1–11; heads and ports are bitmaps. -/
structure Partition where
  quota : List Nat := List.replicate 11 0
  /-- Deleted, its index held until its last object is freed (R71). -/
  held : Bool := false
  /-- Kernel data slots 0–15 (R147): the words of Table 6-2. -/
  kernelData : Tbl (List Word) := []
  deriving DecidableEq, Repr

/-- A grant (R69). -/
structure Grant where
  source : Handle
  grantee : Nat
  allowRecord : Bool := false
  allowEgress : Bool := false
  deriving DecidableEq, Repr

/-! ### Sources, rings and objects (R79–R139) -/

/-- A run of pixels of one line, from column x on. -/
structure Run where
  y : Nat
  x : Nat
  px : List (Nat × Nat × Nat × Nat)
  deriving DecidableEq, Repr

/-- A run of samples as it arrived, from column x on: c0, c1 and c2 of each pixel. -/
structure RawRun where
  y : Nat
  x : Nat
  px : List (Nat × Nat × Nat)
  deriving DecidableEq, Repr

/-- The content of an object: black (R86), content the manual does not compute, a decoded picture or a field of
one (R96), one colour, runs of pixels (line, first x, pixels; newest first) over earlier content, or a rectangle
of one content over another. What jobs write: a blend of two frames at a phase in 1/64 (R173), a polygon of one
content over another and the mean of each block of a frame of w × h pixels (R148), a line of text (R148), a
content moved right and down, the
mapping of KRN_HDRMAP from one tag to another through a LUT of the given grid (R146), and a conversion to a
surface's variant and tag (R164). A pixel is c0, c1, c2 and alpha. -/
inductive Content where
  | black
  | free (n : Nat)
  | decoded (n parity h : Nat)
  | solid (pixel : Nat × Nat × Nat × Nat)
  | rows (below : Content) (runs : List Run)
  | patch (below : Content) (r : Rect) (above : Content)
  | blend (old new : Content) (w : Nat)
  | poly (below : Content) (vertices : List (Nat × Nat)) (above : Content)
  | mosaic (below : Content) (block w h : Nat) (half : Bool)
  | shift (below : Content) (dx dy : Nat)
  | text (below : Content) (x y size : Nat) (chars : List Nat) (ink box : Nat × Nat × Nat × Nat) (opacity : Nat)
  | hdr (below : Content) (format variant w : Nat) (source target : Colour) (grid : Nat) (lut : List Word)
  | convert (below : Content) (format variant w : Nat) (source : Colour) (toVariant : Nat) (target : Colour)
  /-- The lines of one field of a frame, and a frame of two fields (R96, R98). -/
  | field (below : Content) (parity : Nat)
  | weave (top bottom : Content)
  deriving DecidableEq, Repr

/-- Who holds a reference to an object (R116). -/
inductive Holder where
  | layer (head layer : Nat)
  | job (id : Nat)
  | encode (ctx : Handle)
  | flow (n : Nat)
  | spill (source : Handle)
  | host (part : Nat)
  | reader
  | patcher (source : Handle)
  | route (h : Handle)
  deriving DecidableEq, Repr

/-- A Toybox object (R108–R114). -/
structure Obj where
  gen : Nat := 0
  source : Handle := 0
  seq : Nat := 0
  /-- 1 P4, 2 P20, 3 P2 and the P4 variant (R133). -/
  format : Nat := 1
  variant : Nat := 0
  w : Nat := 0
  h : Nat := 0
  parity : Nat := 0
  colour : Colour := {}
  patched : Bool := false
  concealed : Bool := false
  vuiAbsent : Bool := false
  recalled : Bool := false
  tier : Nat := 1
  capture : Nat := 0
  ptpSeconds : Nat := 0
  ptpNanos : Nat := 0
  ptpLock : Nat := 0
  /-- Powered time of the close (R173) and its order among closes and frees (R115); 0: never closed. -/
  closedAt : Nat := 0
  closeOrder : Nat := 0
  freeOrder : Nat := 0
  writing : Bool := false
  latest : Bool := false
  refs : List Holder := []
  /-- The format its source had when the writer took the slot (R161); of a converted frame, that of its input. -/
  fmt : Format := {}
  /-- The format of the frame it was pre-scaled from (R211). -/
  pre : Option Format := none
  content : Content := .black
  deriving DecidableEq, Repr

/-- A slot of a ring: the object slot, its tier 1 charge and who pays (R113, R117, R120). -/
structure Slot where
  id : Nat
  pages : Nat
  payer : Nat
  ext : Bool := false
  /-- To be removed when its object is free (R117, R128). -/
  surplus : Bool := false
  deriving DecidableEq, Repr

/-- A frame that has started and not closed (R85, R86). -/
structure Frame where
  /-- The slot it is written into; none when the ring was starved (R118). -/
  slot : Option Nat := none
  started : Nat := 0
  bottom : Bool := false
  number : Word := 0
  /-- Lines received and lines discarded beyond the declared count (R85). -/
  lines : Nat := 0
  dropped : Nat := 0
  /-- What came of the lines beyond the declared count, newest first: line, its last column, and how many runs had come
  before (R87). -/
  beyond : List (Nat × Nat × Nat) := []
  /-- Pixels or blocks came beyond what their LS names (R299). -/
  excess : Bool := false
  /-- Lines from one to another in which a sequence gap lies (R85). -/
  gaps : List (Nat × Nat) := []
  /-- The crossing queue was full: the rest of the frame is discarded (R88). -/
  discarded : Bool := false
  /-- The frame has ended and its patch copy runs; the loss event that waits for its SHORT (R88). -/
  copying : Bool := false
  ended : Bool := false
  /-- What has arrived, newest first, and the frame patch lines come from (R86). -/
  raw : List RawRun := []
  base : Option Nat := none
  /-- RTP timestamp of an ST 2110-20 frame. -/
  ts : Word := 0
  /-- The format the frame was started with, and whether LOS or LOL ended it (R88). -/
  fmt : Format := {}
  byLoss : Bool := false
  /-- The IC unit that carries it: a change of IC applies at a frame start (R104). -/
  ic : Nat := 0
  deriving DecidableEq, Repr

/-- A source's kind (R79, R105). -/
inductive SrcKind where
  | link (port sub lanes : Nat)
  | st2110 (flow : Nat) (blockPacking : Bool) (ancFlow : Option Nat)
  | surface
  | decoded (ctx : Handle)
  | processed
  | delayed
  | audio (flow : Nat)
  | entry
  | imported (origin xport ring : Nat)
  deriving DecidableEq, Repr

/-- The state of an ingress stream (R89). -/
inductive StreamState where
  | stopped | waiting | running | stalled
  deriving DecidableEq, Repr

/-- A queued ancillary packet with the object sequence number it arrived with (R93). -/
structure AncEntry where
  packet : Anc
  object : Nat
  deriving DecidableEq, Repr

/-- A type 1 source. -/
structure Source where
  owner : Nat := 0
  kind : SrcKind := .surface
  fmt : Format := {}
  ic : Nat := 15
  state : StreamState := .stopped
  deleted : Bool := false
  slots : List Slot := []
  latest : Option Nat := none
  nextSeq : Nat := 1
  writing : List Frame := []
  lastStart : Nat := 0
  /-- A MODIFY_STREAM handed off and not applied, with its mailbox and epoch (R104, R52). -/
  pendingFmt : Option (Format × Nat × Word) := none
  /-- Commits of other mailboxes that it supersedes and that apply with it (R50). -/
  pendingAlso : List (Nat × Word) := []
  suspect : Bool := false
  shape : Option (Nat × Nat) := none
  shapeCount : Nat := 0
  lastShape : Nat × Nat := (0, 0)
  lastPatched : Bool := false
  rxColour : Option Colour := none
  frames : Nat := 0
  patchedCount : Nat := 0
  short : Nat := 0
  long : Nat := 0
  shortLines : Nat := 0
  longLines : Nat := 0
  lostPkts : Nat := 0
  latePkts : Nat := 0
  linesDropped : Nat := 0
  lastSeq : Option (BitVec 16) := none
  /-- RTP timestamps of frames that have ended, newest first (R85). -/
  endedTs : List Word := []
  /-- No frame has closed since START_STREAM: its frames are patched from none before it (R86). -/
  fresh : Bool := false
  ancQueue : List AncEntry := []
  ancDropped : Nat := 0
  tier0 : Bool := false
  tier0Pages : Nat := 0
  droppedRing : Nat := 0
  starvedSecond : Option Nat := none
  deriving DecidableEq, Repr

/-- A surface transfer in progress (R102). -/
structure Upload where
  issuer : Nat
  addr : Nat
  pitch : Nat
  rect : Rect
  slot : Nat
  capture : Nat
  deriving DecidableEq, Repr

/-- An access unit in a bitstream buffer: its bytes, whether it is a random-access point or damaged
(R98), and the instant its first packet arrived (R111). -/
structure Au where
  bytes : Nat := 0
  rap : Bool := false
  bad : Bool := false
  capture : Nat := 0
  ptp : Nat × Nat × Nat := (0, 0, 0)
  deriving DecidableEq, Repr

/-- A decode context (R95–R107). -/
structure DecodeCtx where
  owner : Nat
  input : Handle
  source : Handle
  core : Nat
  h265 : Bool
  depth10 : Bool
  conceal : Bool
  dpb : Nat
  rate : Nat
  maxW : Nat
  maxH : Nat
  maxAu : Nat
  refUnits : Nat
  running : Bool := false
  /-- Stopped by a RESET of its partition until RESYNC_DECODE (R58). -/
  stopped : Bool := false
  /-- CONCEAL: damage up to the next random-access point. -/
  damaged : Bool := false
  /-- Access units are dropped until the next random-access point (R99). -/
  flooding : Bool := false
  /-- The units in the bitstream buffer, oldest first, and the one arriving. -/
  units : List Au := []
  arriving : Option Au := none
  lastSeq : Option (BitVec 16) := none
  pictures : Nat := 0
  errors : Nat := 0
  abandoned : Nat := 0
  dropped : Nat := 0
  concealed : Nat := 0
  /-- The most recent decoded picture: its parity (0 frame) and its pixels (R98). -/
  latest : Option (Nat × Content) := none
  /-- Kinds of fault not to be posted until the context enters RUNNING again (R100). -/
  posted : List Nat := [0, 1, 2, 3]
  deriving DecidableEq, Repr

/-- A kept frame of a time-shift buffer (R122–R124). -/
structure Kept where
  capture : Nat
  seq : Nat
  absent : Bool := false
  spilling : Bool := false
  /-- 0 not recalled, 1 recall running, 2 recalled. -/
  recalling : Nat := 0
  /-- It has had its presentation instant. -/
  shown : Bool := false
  /-- The object slot it is copied from, and the attributes it was closed with. -/
  slot : Nat := 0
  info : Obj := {}
  deriving DecidableEq, Repr

/-- A time-shift buffer, by its delayed source (R122–R125, R136). -/
structure Shift where
  source : Handle
  keepEvery : Nat
  frames : Nat
  delayMs : Nat
  tier2 : Nat
  kept : List Kept := []
  skip : Nat := 0
  /-- 0 FILLING, 1 PLAYING, 2 FAULT. -/
  state : Nat := 0
  spillLate : Nat := 0
  recallLate : Nat := 0
  held : Nat := 0
  deriving DecidableEq, Repr

/-! ### Engines (R140–R166) -/

/-- A processed source (R149–R151, R161). -/
structure Proc where
  input : Handle
  params : ProcParams
  /-- A MODIFY_PROCESSED_SOURCE handed off, until the next job is released. -/
  pending : Option ProcParams := none
  ladder : Ladder := {}
  rung : Nat := 0
  /-- The input format the last job was released on (R161). -/
  inFmt : Format := {}
  /-- Derived from a granted source: ALLOW_RECORD, ALLOW_EGRESS (R151). -/
  granted : Option (Bool × Bool) := none
  /-- Made by Kaleidoscope for a layer (R211). -/
  prescale : Option (Nat × Nat) := none
  misses : Nat := 0
  deriving DecidableEq, Repr

/-- A job (R141–R165). -/
structure Job where
  part : Nat
  /-- The route or processed source of a generated job; none for a one-shot job. -/
  stream : Option Handle := none
  kernel : Nat
  variant : Nat
  dataWords : List Word := []
  /-- OUT_COLOUR of a one-shot KRN_HDRMAP job. -/
  tag : Colour := {}
  inputs : List Nat := []
  target : Handle := 0
  outSlot : Option Nat := none
  rect : Rect := {}
  phase : Nat := 0
  /-- Content time of a route's frame (R173) and the sequence number of the newer input. -/
  time : Nat := 0
  seq : Nat := 0
  pixels : Nat := 0
  /-- C of R144 as a fraction, in engine-µs. -/
  costNum : Nat := 0
  costDen : Nat := 1
  released : Nat := 0
  /-- The deadline in powered µs, exact (R8, Table 6-3), and DEADLINE_US of a one-shot job. -/
  deadline : Frac := ⟨0, 1⟩
  deadlineUs : Nat := 0
  /-- Its partition has been reset or deleted: it ends at its deadline if not before (R130). -/
  ends : Bool := false
  itemsWaiting : Nat := 0
  itemsRunning : Nat := 0
  cancelled : Bool := false
  discard : Bool := false
  missed : Bool := false
  /-- 0 PENDING, 1 RUNNING, 2 ENDED; the outcome of R164. -/
  state : Nat := 0
  outcome : Nat := 0
  endOrder : Nat := 0
  deriving DecidableEq, Repr

/-- Spinning Top and the engines. -/
structure Engines where
  offline : List Nat := []
  /-- The job each busy engine works on, and the partition of each engine's last work item (R141). -/
  busy : Tbl Nat := []
  lastPart : Tbl Nat := []
  /-- What each engine's 48 KiB of local memory holds: the number of a content that work items have left there;
  an engine that is not listed holds none (R140, R141). -/
  localMem : Tbl Nat := []
  clockMHz : Nat := 1600
  /-- Jobs by their handles (R152, R164). -/
  jobs : Tbl Job := []
  endOrder : Nat := 0
  /-- Powered time since which the capacity has been up (R158). -/
  upSince : Option Nat := none
  capacitySeen : Nat := 512000
  deriving DecidableEq, Repr

/-! ### Routes and destinations (R167–R188) -/

/-- A route. -/
structure Route where
  source : Handle
  dest : Nat
  owner : Nat
  mode : Nat := 0
  variant : Nat := 0
  fade : Nat := 0
  /-- 0 STAGED, 1 PENDING, 2 ACTIVE, 3 FADING. -/
  state : Nat := 0
  ladder : Ladder := {}
  rung : Nat := 0
  epoch : Word := 0
  repeats : Nat := 0
  skips : Nat := 0
  /-- The last sequence number shown and the converted frame ready for the next apply (R173–R176). -/
  lastSeq : Nat := 0
  output : Option Nat := none
  outTime : Nat := 0
  outSeq : Nat := 0
  ring : List Slot := []
  /-- The frame held until a converted frame is later than this time (R176): object slot and time. -/
  hold : Option (Nat × Nat) := none
  /-- What it showed last: object slot, content time, and 0 REPEAT_DROP, 1 BLEND, 2 MCFRC. -/
  last : Option (Nat × Nat × Nat) := none
  /-- The read instant of the frame its last job was released for (R149). -/
  jobFor : Option Frac := none
  /-- The rung of the mode that a MODIFY_ROUTE brings, handed off and not applied: from 0 (R185, R225). -/
  rungNext : Option Nat := none
  misses : Nat := 0
  deriving DecidableEq, Repr

/-- A destination of Table 7-1. -/
structure Dest where
  active : Option Handle := none
  incoming : Option Handle := none
  fadeN : Nat := 0
  fadeI : Nat := 0
  applied : Word := 0
  /-- Changes handed off and not applied, oldest first, each with its mailbox and epoch. -/
  pending : List (Option RouteOp × Nat × Word) := []
  /-- Routes that end at the next apply instant, with the cause 2 or 3 (R172). -/
  ending : List (Handle × Nat) := []
  /-- Object slots shown in the present frame: by the active route and by the incoming one. -/
  shown : List Nat := []
  shownIn : List Nat := []
  /-- The routes that had a frame at the apply instant of the coming frame, with the mode of each then (R158, R177). -/
  atA : List (Handle × Nat) := []
  /-- The read instant D = A + 1,000 µs of an encode context's or flow's frame that has not been read, and what its active
  route showed in the frame before: object slot and close (Table 7-2, R344). -/
  readAt : Option Nat := none
  before : Option (Nat × Nat) := none
  deriving DecidableEq, Repr

/-! ### Heads (R189–R246) -/

/-- A head's parameter set (R221). -/
structure HeadSet where
  mode : HeadMode := {}
  layers : Tbl LayerCfg := []
  comp : Comp := {}
  mats : Tbl Matrix := []
  banks : Tbl Bank := []
  sink : Sink := .none
  crc : List Rect := List.replicate 4 {}
  deriving DecidableEq, Repr

/-- A head. -/
structure Head where
  /-- 0 OFF, 1 MAINT, 2 RUNNING, 3 SELF_REFRESH (R216). -/
  state : Nat := 1
  act : HeadSet := {}
  /-- The set named for the next apply line, and the mailboxes and epochs it carries (R221). -/
  pend : Option HeadSet := none
  pendEpochs : List (Nat × Word) := []
  appliedEpoch : Word := 0
  pendingEpoch : Word := 0
  rejectedEpoch : Word := 0
  frameCount : Nat := 0
  /-- The line at the last line event, and its powered time. -/
  line : Nat := 0
  lineAt : Nat := 0
  resyncs : Nat := 0
  timingRejects : Nat := 0
  layerRejects : Nat := 0
  underruns : List Nat := List.replicate 8 0
  crcVals : List Word := List.replicate 4 0
  crcFrame : Nat := 0
  crcUnderrun : Bool := false
  clipped : List Bool := List.replicate 4 false
  /-- Layers turned off for the rest of the frame, with line and pixel; the underrun post mark (R232, R233). -/
  off : List (Nat × Nat × Nat) := []
  /-- A layer of its own has underrun in this frame, not only its partner's (R231, R233, R237). -/
  underran : Bool := false
  /-- A layer of its own has underrun since the last apply line (R228). -/
  uneasy : Bool := false
  underrunSecond : Option Nat := none
  /-- Per layer: opaque in this frame, colour mismatch, tiles skipped and fetched (R199, R204, R215). -/
  opaqueNow : List Nat := []
  mismatch : List Nat := []
  tilesSkipped : Tbl Nat := []
  tilesFetched : Tbl Nat := []
  /-- Quiet frames that have passed toward SELF_REFRESH, whether the coming frame binds as before, and
  whether it carries the entry marker (R228). -/
  quiet : Nat := 0
  steady : Bool := false
  srEntry : Bool := false
  /-- A restart of the timing generator is due, and the earliest instant at which the new line 0 may fall (R223). -/
  restart : Bool := false
  zeroFrom : Frac := ⟨0, 1⟩
  /-- Events of the present line that have been served with another one of it (R218, R234): 0 BLANK_START, 1 apply
  line, 2 LINE_MATCH, 3 line 0, 4 the tick that marks line 0. -/
  served : List Nat := []
  scanning : Bool := false
  /-- The set the frame in active scan was started with (R222). -/
  scanSet : HeadSet := {}
  scanOpaque : List Nat := []
  scanMarker : Bool := false
  scanShown : Tbl (List Nat × List Nat × Nat) := []
  /-- The sink that receives the raster now (R238). -/
  feeding : Sink := .none
  paired : Bool := false
  /-- Charges that stand (R208, R209, R225), and pre-scale handles by layer (R211). -/
  prescale : Tbl Handle := []
  /-- The plan of the latched set, and the pre-scale source a layer has switched to (R211, R225). -/
  prescaleOk : Tbl Handle := []
  prescaleAct : Tbl Handle := []
  /-- Pre-scale sources of routes that are fading out and that the latched plan no longer holds (R178, R211). -/
  prescaleOut : Tbl Handle := []
  /-- What each layer bound at the last apply line: object slot and close (R228). -/
  bound : Tbl (List (Nat × Nat)) := []
  deriving DecidableEq, Repr

/-! ### Audio (R247–R263) -/

/-- An audio input, by its source. -/
structure AudioIn where
  owner : Nat
  kind : Nat
  channels : Nat
  fs : Nat
  ptime125 : Bool
  l16 : Bool
  flow : Option Nat
  first : Nat
  gap : Bool := false
  locked : Bool := true
  /-- The packet played last and those buffered after it, each with its playout time; and the playout time of a
  packet that was missing (R258). -/
  buffered : List (Nat × List Int) := []
  missedAt : Option Nat := none
  lostPkts : Nat := 0
  gapSamples : Nat := 0
  badPkt : Nat := 0
  /-- AUD packets at 44.1 kHz and the samples they held (R288). -/
  sent441 : Nat × Nat := (0, 0)
  /-- Powered time since which silence is played, and of the first packet after it (R258). -/
  gapSince : Nat := 0
  resumeFrom : Option Nat := none
  /-- When a link input whose stream is lost enters GAP: a packet of 1 ms after the first that is missing (R258). -/
  gapDue : Option Nat := none
  deriving DecidableEq, Repr

/-- A running cross-ramp (R255, R256): the outgoing configuration, what it heard and its delay, the weight it
started from in 1/2^24, the length and the samples gone by. -/
structure Ramp where
  out : ChanCfg
  heard : Option (Handle × Nat) := none
  delay : Nat := 0
  /-- The outgoing signal's weight where the ramp starts, in 1/2^24: before the delay line, and behind it (R255, R256). -/
  from_ : Nat := 2 ^ 24
  leaveFrom : Nat := 2 ^ 24
  length : Nat
  pos : Nat := 0
  deriving DecidableEq, Repr

/-- An output channel. -/
structure Chan where
  cfg : ChanCfg := { delayMax := 0 }
  /-- The input and channel it hears; none is silence (R250). -/
  heard : Option (Handle × Nat) := none
  /-- The clock is about to move: the channel is at zero or ramps down to it (R262). -/
  hush : Bool := false
  ramp : Option Ramp := none
  /-- The incoming signal of a ramp before the line that a change behind it has cut goes on rising: position and length. -/
  rise : Option (Nat × Nat) := none
  /-- The weight of what stood in the line when a ramp behind it was cut, and how many samples leave at it (R256). -/
  past : Nat × Nat := (2 ^ 24, 0)
  /-- The delay in samples in force (R253) and the delay line, newest first (R252). -/
  delay : Nat := 0
  line : List Int := []
  deriving DecidableEq, Repr

/-- An audio output, by its identifier. -/
structure AudioOut where
  owner : Nat
  channels : Nat
  ptime125 : Bool
  first : Nat
  chans : Tbl Chan := []
  pending : List (Nat × List ChanCfg × Nat × Word) := []
  rtp : Word := 0
  clips : Nat := 0
  clipSecond : Option Nat := none
  rampCuts : Nat := 0
  clamps : Nat := 0
  deriving DecidableEq, Repr

structure Audio where
  inputs : Tbl AudioIn := []
  outputs : Tbl AudioOut := []
  clockTd : Nat := 0
  /-- A clock move waits for the 1 ms ramp-down: the domain, and the powered time of the command (R262). -/
  moving : Option (Nat × Nat) := none
  deriving DecidableEq, Repr

/-! ### Reference selection and timing domains (R264–R280) -/

/-- An entry of the priority list. -/
structure Candidate where
  enable : Bool := false
  kind : Nat := 0
  port : Nat := 0
  rate : Nat := 0
  falling : Bool := false
  ptpDomain : Nat := 0
  source : Handle := 0
  qualified : Bool := false
  everQualified : Bool := false
  faults : Nat := 0
  cleanSince : Nat := 0
  /-- Frame starts of a KIND 4 entry since then, and the powered time of the first (R266). -/
  seen : Nat := 0
  firstAt : Nat := 0
  /-- Its frequency from nominal against the local oscillator, in 0.001 ppm, as last measured (R266). -/
  freq : Option Int := none
  /-- Phase and powered time of the last pulse of a KIND 1 entry that came at its expected instant (Table 11-1); of a
  KIND 2 or 3 entry how far its events have moved since the measure of its frequency began, and when that was. -/
  expect : Option (Int × Nat) := none
  /-- Masters heard of on a KIND 3 entry, with what their Announce messages say, and the sequence number of a two-step
  Sync whose time is due (R277). -/
  masters : Tbl (List Nat) := []
  syncDue : Option (BitVec 16) := none
  /-- Phase from the timebase's alignment instant to the last alignment event, and its powered time; none
  where the manual gives no measure. -/
  phaseNs : Option Int := none
  edgeAt : Nat := 0
  /-- Changes to apply at the next evaluation (R268). -/
  pendQual : Bool := false
  pendDisq : Bool := false
  ptpSeconds : Nat := 0
  ptpNanos : Nat := 0
  ptpAt : Nat := 0
  /-- The timebase's own time then, in fs, from which PTP time goes on (R277). -/
  ptpClock : Int := 0
  deriving DecidableEq, Repr

/-- A timing domain. -/
structure Domain where
  rate : Nat := 8
  offset : Int := 0
  /-- A change of OFFSET in progress: where it started and when (R274). -/
  offsetFrom : Int := 0
  offsetAt : Nat := 0
  /-- The instant that its ticks stand OFFSET after, in fs of the timebase's own time, and whether it is an alignment
  instant of the selected candidate or the phase that the domain keeps (R274). -/
  alignAt : Option Int := none
  aligned : Bool := false
  /-- An alignment event has come since RATE changed (R275). -/
  eventSeen : Bool := true
  ticks : Word := 0
  lastTick : Nat := 0
  /-- The last tick by the timebase's own time, in fs. -/
  lastClock : Int := 0
  deriving DecidableEq, Repr

/-- A frame-pulse output (R276). -/
structure Pulse where
  source : Nat := 0
  activeHigh : Bool := false
  offset : Int := 0
  width : Nat := 16
  flywheel : Bool := false
  /-- The rate of the entry it follows; a change of OFFSET in progress; the last pulse and the coming one, in fs of the
  timebase's own time; and the pulses of its REFIN as cleaned: an alignment instant of the timebase, their phase from it
  in ns, and the powered time of that phase (R276). -/
  rate : Nat := 0
  offsetFrom : Int := 0
  offsetAt : Nat := 0
  lastPulse : Option Int := none
  due : Option Int := none
  follow : Option (Int × Int × Nat) := none
  deriving DecidableEq, Repr

structure Timebase where
  list : Tbl Candidate := []
  revertive : Bool := true
  forceEn : Bool := false
  forceIndex : Nat := 0
  qualTime : Nat := 10
  bandwidth : Nat := 10
  slope : Nat := 100
  /-- 0 FREERUN, 1 SLEWING, 2 LOCKED, 3 HOLDOVER. -/
  state : Nat := 0
  selected : Option Nat := none
  phaseErr : Int := 0
  slewStart : Nat := 0
  /-- SLOPE and BANDWIDTH as the slew or tracking in progress uses them (R271). -/
  slopeNow : Nat := 100
  bandNow : Nat := 10
  freqOffset : Int := 0
  /-- The timebase's own time, in fs, when its present output frequency began. -/
  clock : Int := 0
  /-- Output frequencies of the last 10 s of LOCKED, newest first, with the time each held, and since when the present
  one has (R272). -/
  freqLog : List (Nat × Int) := []
  freqSince : Nat := 0
  lockedSince : Nat := 0
  holdover : Option Int := none
  /-- A host command bears on the next evaluation (R269, cause 2); the selected entry's contents were
  changed; the cause of the selection that holds. -/
  hostCause : Bool := false
  dropped : Bool := false
  cause : Nat := 0
  limitedSecond : Option Nat := none
  domains : Tbl Domain := []
  pulses : Tbl Pulse := []
  deriving DecidableEq, Repr

/-! ### Link ports (R281–R303) -/

/-- A receive sub-stream's framing (R286). -/
structure SubRx where
  inFrame : Bool := false
  lines : Nat := 0
  formatSecond : Option Nat := none
  deriving DecidableEq, Repr

/-- A link port. -/
structure Port where
  /-- 0 OFF, 1 VIDEO, 2 DOMINO. -/
  mode : Nat := 0
  rate : Nat := 0
  lanes : BitVec 4 := 0
  retry : Nat := 0
  low2Idle : Nat := 0
  allowLow1 : Bool := false
  allowLow2 : Bool := false
  /-- Table 12-3 code and the powered time it was entered. -/
  state : Nat := 0
  since : Nat := 0
  attempts : Nat := 0
  failures : Nat := 0
  los : Nat := 0
  lol : Nat := 0
  lastFailState : Nat := 0
  lastCause : Nat := 0
  locked : BitVec 4 := 0
  skewNs : Nat := 0
  low2Missed : Nat := 0
  /-- Bring-up passes CAPS by: a wake from LOW2 or a partner loss (R294, R295). -/
  skipCaps : Bool := false
  record : Option (List Word) := none
  frags : Tbl (List Byte) := []
  backValid : Bool := false
  lastBack : Nat := 0
  /-- Our own record has been acknowledged by the partner's state (R290). -/
  ownSent : Bool := false
  alignSeen : Nat := 0
  alignCount : Tbl Nat := []
  /-- The last 58 payload bits sent on each lane, and the blocks sent on each sub-stream (R284). -/
  scrambler : Tbl (BitVec 58) := []
  blocksSent : Tbl Nat := []
  headerErrs : Nat := 0
  crcErrs : Nat := 0
  protoErrs : Nat := 0
  dropped : Nat := 0
  low1Entries : Nat := 0
  low2Entries : Nat := 0
  protoSecond : Option Nat := none
  /-- Low-power request outstanding: target (R295). -/
  lpRequest : Nat := 0
  /-- LOS (0) or LOL (1) whose event waits for SHORT (R88). -/
  lossPending : Option Nat := none
  subs : Tbl SubRx := []
  /-- PRBS test (R297). -/
  test : Bool := false
  pattern : Nat := 0
  testLanes : BitVec 4 := 0
  inject : Nat := 0
  burstLen : Nat := 0
  rateExp : Nat := 0
  /-- The generator of each lane under test, and the bits sent since the last SET_LINK_TEST. -/
  prbsReg : Tbl Nat := []
  prbsSent : Nat := 0
  prbsErrs : Tbl Nat := []
  prbsSync : BitVec 4 := 0
  resyncs : Nat := 0
  bitsChecked : Nat := 0
  /-- Sampling phase of each lane from the trained point, in 1/64 UI, and whether its edge was reported (R404). -/
  phase : Tbl Int := []
  phaseUsed : BitVec 4 := 0
  lastLane : BitVec 4 := 0
  idleSince : Nat := 0
  mismatch : Bool := false
  /-- Powered time of the CK restart of an exit from LOW2 (R295). -/
  lowExit : Option Nat := none
  /-- A transmit port drives CK (Table 12-3). -/
  ck : Bool := false
  /-- The loss that lasts: LOS (0) or LOL (1), told in STATUS until CK is back (R289, R294). -/
  loss : Option Nat := none
  deriving DecidableEq, Repr

/-! ### Ethernet (R304–R322) -/

/-- An address block (Table 13-2 words 1–6). -/
structure Addr where
  port : Nat := 0
  subport : Nat := 0
  ipv6 : Bool := false
  vlan : Option Nat := none
  udp : Nat := 0
  dst : BitVec 128 := 0
  deriving DecidableEq, Repr

structure EthPort where
  mode : Nat := 0
  breakout : Bool := false
  ipv4 : Word := 0
  prefixLen : Nat := 0
  ipv6 : BitVec 128 := 0
  gw4 : Word := 0
  gw6 : BitVec 128 := 0
  linkUp : Bool := false
  unmatched : Nat := 0
  oversize : Nat := 0
  bufferDrops : Nat := 0
  fecBad : Nat := 0
  fecMs : Nat := 0
  fecMsCount : Nat := 0
  floodSecond : Option Nat := none
  /-- Sampling phase of each lane from its trained point and the lanes at the edge (R404). -/
  phase : Tbl Int := []
  phaseUsed : BitVec 4 := 0
  deriving DecidableEq, Repr

/-- A resolved or unresolved next hop (R304). -/
structure NextHop where
  /-- The port, with the sub-port in breakout: port + 8 × sub-port. -/
  port : Nat
  address : BitVec 128
  mac : Option (BitVec 48) := none
  lastReply : Nat := 0
  deriving DecidableEq, Repr

/-- A compressed stream entry, by its handle (R307–R309). -/
structure Entry where
  h265 : Bool
  videoPt : Nat
  audioPt : Nat := 0
  audioEn : Bool := false
  fallback : Bool := false
  addr : Addr := {}
  src : BitVec 128 := 0
  maxKbps : Nat
  relays : Tbl Addr := []
  /-- Made by an encode context (R342). -/
  encoder : Option Handle := none
  /-- Recent sequence numbers, newest first (R318), and the packets of the last 100 ms: time and bytes (R308). -/
  recent : List (BitVec 16) := []
  lastSeq : Option (BitVec 16) := none
  window : List (Nat × Nat) := []
  bufferDrops : Nat := 0
  badPt : Nat := 0
  policed : Nat := 0
  relayDrops : Nat := 0
  /-- A Yo-yo switch-over has come since the last packet (R332, cause 3). -/
  switched : Bool := false
  deriving DecidableEq, Repr

/-- A flow table entry (R310–R313). -/
structure Flow where
  owner : Nat
  tx : Bool
  essence : Nat
  wide : Bool := false
  td : Nat := 0
  addr : Addr := {}
  src : BitVec 128 := 0
  fmt : Format := {}
  pt : Nat := 0
  pair : Nat := 0
  fromLayer : Nat := 0
  /-- Packets waiting: host packets, packets of the layer, with the frames waited (R312). -/
  hostQueue : List (Anc × Nat) := []
  layerQueue : List (Anc × Nat) := []
  ancDropped : Nat := 0
  /-- Objects whose packets have been queued (R312). -/
  sent : List Handle := []
  /-- The RTP timestamp at a powered time, 0 at creation (R259, R311), and the next RTP sequence number. -/
  rtp : Word := 0
  since : Nat := 0
  seq : BitVec 16 := 0
  /-- The timestamp of the frame that is being sent (R311, R312). -/
  frameTs : Word := 0
  bufferDrops : Nat := 0
  /-- A head's binding of it has ended: it sends nothing until it is bound or routed again (R238). -/
  unbound : Bool := false
  deriving DecidableEq, Repr

/-- A Yo-yo pair (R314–R320). -/
structure Yoyo where
  armed : Bool := false
  criteria : BitVec 3 := 3
  silenceMs : Nat := 200
  holdoffS : Nat := 30
  /-- 0 DISARMED, 1 ON_A, 2 ON_B, 3 BOTH_LOST. -/
  state : Nat := 0
  effHoldoff : Nat := 30
  lastPacket : Nat := 0
  lastReply : Nat := 0
  aCleanSince : Option Nat := none
  onASince : Nat := 0
  returned : Bool := false
  switchOvers : Nat := 0
  lastSwitch : Nat := 0
  /-- Faults of the active port found and not yet evaluated (R315). -/
  silence : Bool := false
  nexthop : Bool := false
  /-- In BOTH_LOST, powered times since which the next hops of A and of B have been reachable (R319). -/
  reachA : Option Nat := none
  reachB : Option Nat := none
  deriving DecidableEq, Repr

structure Ethernet where
  ports : Tbl EthPort := []
  entries : Tbl Entry := []
  flows : Tbl Flow := []
  pairs : Tbl Yoyo := []
  hops : List NextHop := []
  deriving DecidableEq, Repr

/-! ### Recording pool and encode (R323–R345) -/

/-- A member header (Table 14-2): pool identity, member index, M, S, and where the index, the manifests, the spill area
and the segments begin, in slots. -/
structure MemberHeader where
  pool : BitVec 64
  member : Nat
  members : Nat
  slots : Nat
  indexFrom : Nat
  manifestFrom : Nat
  spillFrom : Nat
  segFrom : Nat
  deriving DecidableEq, Repr

/-- A drive slot. -/
structure Drive where
  /-- Table 14-1. -/
  state : Nat := 0
  serial : BitVec 64 := 0
  nsid : Word := 0
  root : Nat := 0
  member : Nat := 0
  slots : Nat := 0
  flush : Bool := false
  /-- First segment slot and which segment slots are in use. -/
  firstSeg : Nat := 0
  segs : Nat := 0
  used : List Nat := []
  /-- The header that the firmware has written on it (R327). -/
  header : Option MemberHeader := none
  stalledAt : Nat := 0
  deriving DecidableEq, Repr

/-- An index record of a segment (Table 14-2, R340, R341); one whose stream waits for a member stands in no slot yet
(R335). -/
structure Segment where
  stream : Handle
  chain : Nat
  drive : Nat
  slot : Nat
  group : Nat
  payload : Nat
  records : Nat
  flags : Nat
  hash : BitVec 384
  bytes : List Byte
  exported : Bool := false
  alternate : Bool := false
  /-- The header write, and any Flush, has completed (R324). -/
  written : Bool := false
  deriving DecidableEq, Repr

/-- The open segment of a stream (R331). -/
structure OpenSeg where
  /-- The drive slot it is written to; none while the stream waits for a member (R335). -/
  drive : Option Nat := none
  slot : Nat := 0
  chain : Nat
  /-- The payload so far that no other member has acknowledged, where records start in it, and the bytes that
  have been issued and acknowledged. -/
  bytes : List Byte := []
  starts : List Nat := []
  issued : Nat := 0
  acked : Nat := 0
  firstAt : Nat := 0
  lastAt : Nat := 0
  discontinuity : Bool := false
  fallback : Bool := false
  audio : Bool := false
  source : Handle := 0
  /-- The hash of the segment before it in the chain (R334). -/
  prev : BitVec 384 := 0
  deriving DecidableEq, Repr

/-- An access unit or audio packet that is to be recorded (R330, Table 14-3). -/
structure RecUnit where
  type : Nat := 1
  arrival : Nat := 0
  ts : Word := 0
  seq : BitVec 16 := 0
  packets : Nat := 0
  data : List Byte := []
  rap : Bool := false
  deriving DecidableEq, Repr

/-- A recorded stream (R328–R338). -/
structure Recording where
  owner : Nat
  streamId : Nat
  key : Handle
  fallback : Bool := false
  roll : Bool := false
  segMaxMs : Nat := 2000
  preroll : Nat := 0
  postroll : Nat := 0
  /-- 0 WAITING, 1 RECORDING, 2 CLOSED, 3 FULL. -/
  state : Nat
  seg : Option OpenSeg := none
  nextChain : Nat := 0
  nextManifest : Nat := 0
  prevHash : BitVec 384 := 0
  prevManifest : BitVec 384 := 0
  /-- Segments written since the last manifest: chain number and hash (R336). -/
  groupHashes : List (Nat × BitVec 384) := []
  /-- Flags of a manifest that waits for the last header write. -/
  closing : Option Nat := none
  /-- Gap records that the next segment carries: cause, packets, start and end (R332). -/
  gapsDue : List (Nat × Nat × Nat × Nat) := []
  gaps : Nat := 0
  segLoss : Nat := 0
  /-- The unit that is arriving, and the instant of the last record. -/
  arriving : Option RecUnit := none
  lastAt : Nat := 0
  /-- The pre-roll, oldest first (R337), whether an episode runs, and when it ends. -/
  prerollBuf : List RecUnit := []
  prerollGaps : List (Nat × Nat × Nat × Nat) := []
  episode : Bool := false
  episodeEnds : Option Nat := none
  /-- The old source of a change and its access unit in arrival, until that ends; the next source's units are
  appended from its first random-access point (R183). -/
  finishing : Option (Handle × RecUnit) := none
  awaitRap : Bool := false
  /-- Units of the new source that have come while the old one's last unit still arrives (R183). -/
  held : List RecUnit := []
  /-- Closed segments that wait for a member, oldest first (R331, R335). -/
  unplaced : List Segment := []
  deriving DecidableEq, Repr

/-- A manifest record (Table 14-5) and where it stands. -/
structure Manifest where
  stream : Handle
  seq : Nat
  first : Nat
  count : Nat
  words : List Word
  drive : Nat
  drive2 : Option Nat
  deriving DecidableEq, Repr

/-- A manifest waiting for its signature (R353): stream, flags, the segments covered. -/
structure ManReq where
  stream : Handle
  seq : Nat
  flags : Nat
  first : Nat
  hashes : List (BitVec 384)
  deriving DecidableEq, Repr

/-- A command outstanding at a drive (R324, R325). -/
inductive NvmeOp where
  | piece (stream : Handle) (chain bytes : Nat)
  | header (stream : Handle) (chain : Nat)
  | flush (stream : Handle) (chain : Nat)
  | manifest (stream : Handle) (seq : Nat)
  | spill (source : Handle) (seq : Nat)
  | recall (source : Handle) (seq : Nat)
  | readHeader
  /-- Adoption: Identify, Get and Set Features for Number of Queues, one queue pair, Get and Set Features for the write
  cache (R323, R324); an UNSUITABLE drive's pair goes. -/
  | identify
  | getQueues
  | setQueues
  | createCq (depth : Nat)
  | createSq (depth : Nat)
  | deleteSq
  | deleteCq
  | getCache
  | cacheOff
  /-- Get Log Page (R323), a reset by CC.EN (R325). -/
  | smartLog
  | errorLog
  | resetController
  /-- The layout of Table 14-2 (R327): a copy of the member header at a byte, and empty index slots. -/
  | memberHeader (at_ : Nat) (h : MemberHeader)
  | clearIndex (first count : Nat)
  /-- Dataset Management with deallocate: slots from a slot on, and a manifest record (R327, R340). -/
  | deallocate (first count : Nat)
  | trimManifest (stream : Handle) (seq : Nat)
  deriving DecidableEq, Repr

/-- An encode context (R342, R343). -/
structure EncodeCtx where
  owner : Nat
  core : Nat
  h265 : Bool
  td : Nat
  rate : Nat
  gop : Nat
  w : Nat
  h : Nat
  kbps : Nat
  outPort : Nat
  outPt : Nat
  entry : Handle
  frames : Nat := 0
  missing : Nat := 0
  clipped : Nat := 0
  lastSecondKbps : Nat := 0
  second : Nat := 0
  secondBytes : Nat := 0
  busy : Bool := false
  /-- Stopped by a RESET of its partition until a route or a head feeds it again (R58). -/
  stopped : Bool := false
  seq : BitVec 16 := 0
  /-- The 4:2:0 picture being encoded, and the one a head has brought for the next tick (R342): Y', Cb, Cr. -/
  picture : List Nat := []
  brought : Option (List Nat × Colour) := none
  /-- The colour tag of that picture, as the VUI gives it, and the bytes of the frames of the last second (R343). -/
  tag : Colour := {}
  window : List (Nat × Nat) := []
  deriving DecidableEq, Repr

/-- What stands on the members of a pool that is not mounted (R339, R423). -/
structure Medium where
  identity : BitVec 64
  members : List Nat
  tier2 : Nat
  drives : Tbl Drive
  streams : Tbl Recording
  segments : List Segment
  manifests : List Manifest
  queue : List ManReq
  abandoned : List (Handle × OpenSeg)
  deriving DecidableEq, Repr

structure Pool where
  drives : Tbl Drive := []
  /-- Qualifying namespaces without a slot, with their root ports (R323). -/
  unslotted : List (Nat × DriveInfo) := []
  /-- Powered time of the last SMART poll of each root port (R323). -/
  smartAt : Tbl Nat := []
  mounted : Bool := false
  formatting : Option (List Nat × Nat) := none
  formats : Nat := 0
  identity : BitVec 64 := 0
  members : List Nat := []
  tier2 : Nat := 0
  nextStreamId : Nat := 1
  streams : Tbl Recording := []
  segments : List Segment := []
  manifests : List Manifest := []
  queue : List ManReq := []
  /-- Commands outstanding at the drives, oldest first: drive slot, command, powered time. -/
  ops : List (Nat × NvmeOp × Nat) := []
  /-- Writes for closed segments and manifests that a stall or a removal has failed: issued again when the member
  returns (R325, R334, R336). -/
  redo : List (Nat × NvmeOp) := []
  medium : Option Medium := none
  /-- Segments abandoned on a member that has not returned, with the bytes it acknowledged (R334). -/
  abandoned : List (Handle × OpenSeg) := []
  encodes : Tbl EncodeCtx := []
  deriving DecidableEq, Repr

/-! ### Key vault (R346–R357) -/

/-- A vault slot: the key's number (its secret lies outside the model), and what is known of it. -/
structure KeySlot where
  gen : Nat := 0
  retired : Bool := false
  /-- Its zeroisation has begun: it takes no new request (R348, step 1). -/
  closing : Bool := false
  key : Option Nat := none
  type : Nat := 0
  policy : Nat := 0
  owner : Nat := 0
  debug : Bool := false
  statement : List Word := []
  seals : Nat := 0
  deriving DecidableEq, Repr

structure Vault where
  slots : Tbl KeySlot := []
  nextKey : Nat := 2
  selfTest : Bool := true
  entropy : Bool := true
  /-- Host signatures waiting (R353). -/
  hostQueue : Nat := 0
  unsealSecond : Option Nat := none
  minSvn : Word := 0
  deriving DecidableEq, Repr

/-! ### Domino (R358–R372) -/

/-- A subscription held by the origin (R370). -/
structure Sub where
  member : Nat
  xport : Nat
  ring : Nat
  units : Nat
  renewed : Nat
  deriving DecidableEq, Repr

/-- A REQUEST heard, or sent by this member, that no ANSWER has met yet (R369, R370). -/
structure Asked where
  member : Nat
  origin : Nat
  req : Nat
  kind : Nat
  xport : Nat
  ring : Nat
  deriving DecidableEq, Repr

/-- A subscription to another member's export, as its REQUEST and ANSWER have told: what it takes of the ring (R369). -/
structure Charge where
  origin : Nat
  member : Nat
  xport : Nat
  ring : Nat
  units : Nat
  renewed : Nat
  deriving DecidableEq, Repr

/-- What the leader holds of a member it compares with (R367, R368): frames of difference of each item of Table 16-6,
frames of agreement, and whether the member is divergent. -/
structure Peer where
  differs : List Nat := List.replicate 8 0
  agrees : Nat := 0
  divergent : Bool := false
  deriving DecidableEq, Repr

structure Export where
  source : Handle
  peer : Nat
  owner : Nat
  ending : Bool := false
  deriving DecidableEq, Repr

structure Domino where
  member : Nat := 0
  count : Nat := 0
  rings : BitVec 4 := 0
  rxPorts : List Nat := [0, 0, 0, 0]
  /-- Table 16-4 and the powered time it was entered. -/
  state : Nat := 0
  since : Nat := 0
  epoch : Word := 0
  epochs : Word := 0
  frame : Word := 0
  lost : BitVec 4 := 0
  lostTotal : Nat := 0
  goodBeacons : Nat := 0
  /-- A BEACON has set the group clock's phase since RELOCK was entered (R365). -/
  phased : Bool := false
  lastBeacon : Nat := 0
  /-- Powered time of the last valid BEACON on each ring. -/
  ringBeacon : Tbl Nat := []
  /-- Loop delay of each ring in µs, as the leader has measured it at formation, and whether FORM_FAIL last had the cause
  LOOP (R359). -/
  loops : Tbl Nat := []
  loopFail : Bool := false
  /-- Powered time at which the leader's last BEACON left, and at which this member's window opens (R361). -/
  beaconAt : Nat := 0
  opensAt : Option Nat := none
  /-- Powered time of the last renewal of each import, by its handle (R370). -/
  renewedAt : Tbl Nat := []
  /-- The state record last heard of each member, its fragments in progress, and the SET_DOMINO bodies' digest. -/
  heard : Tbl (List Byte) := []
  frags : Tbl (Tbl (List Byte)) := []
  body : List Word := [0, 0]
  divergent : BitVec 8 := 0
  differs : List Nat := List.replicate 8 0
  agrees : Nat := 0
  /-- The leader's VIEW as it last sent it, and what it holds of each other member (R363, R367). -/
  viewSent : Nat := 0
  peers : Tbl Peer := []
  exports : Tbl Export := []
  subs : List Sub := []
  asked : List Asked := []
  charges : List Charge := []
  nextReq : Nat := 0
  outcomes : List (Nat × Nat × Nat) := []
  edgeSecond : Tbl Nat := []
  /-- Requests this member has made, by number: the partition that asked. -/
  issued : Tbl Nat := []
  waiting : List (List Byte) := []
  deriving DecidableEq, Repr

/-! ### Events and the fault hub (R373–R384) -/

/-- An event source (Table 17-2, Table 17-3). `enable` and the severity default by `Machine/Events.lean`. -/
structure EventSrc where
  cause : BitVec 16 := 0
  enable : BitVec 16 := 0
  vector : BitVec 6 := 0
  int : Bool := false
  severity : Nat := 1
  sevCauses : BitVec 16 := 0
  /-- The source was pending when last looked at (R376). -/
  wasPending : Bool := false
  /-- Powered time of the last Music Box record and raises folded since (R379). -/
  recordedAt : Option Nat := none
  folded : Nat := 0
  lastSub : Nat := 0
  deriving DecidableEq, Repr

/-- An MSI-X vector: the four words of its table entry, and its pending bit (R376). -/
structure Vector where
  words : List Word := [0, 0, 0, 1]
  pending : Bool := false
  deriving DecidableEq, Repr

structure Hub where
  fault : Bool := false
  firstValid : Bool := false
  overflow : Bool := false
  firstSource : Nat := 0
  firstSub : Nat := 0
  overflowCount : Nat := 0
  firstPtime : BitVec 64 := 0
  firstHold : Word := 0
  recoveries : Nat := 0
  entries : Nat := 0
  quietMs : Nat := 10000
  lastCritical : Nat := 0
  deriving DecidableEq, Repr

structure Events where
  sources : Tbl EventSrc := []
  hub : Hub := {}
  /-- Vectors by function × 64 + vector, and the functions with MSI-X enabled. -/
  vectors : Tbl Vector := []
  msixOn : List Nat := []
  /-- Event timers: period in ms and the powered time of the next expiry. -/
  timers : Tbl (Nat × Nat) := []
  deriving DecidableEq, Repr

/-! ### Persistence (R385–R401) -/

/-- A page of the parameter store in the image or on the medium (R385, R388). -/
structure Page where
  bytes : Mem := []
  /-- Table 18-1; the store number of its tag. -/
  state : Nat := 0
  store : Nat := 0
  /-- On the medium: bits [63:32] of the row's tag, CRC-32 of its data and store number (R385). -/
  tag : Word := 0
  deriving DecidableEq, Repr

/-- A Music Box record in the image or on the medium. -/
structure BoxRec where
  words : List Word
  dirty : Bool := true
  /-- Its tag: the number of the store that last wrote it and, on the medium, CRC-32 of the data and that number (R385). -/
  store : Nat := 0
  tag : Word := 0
  /-- In the image: its CRC was good at the recall (R393). -/
  crcGood : Bool := true
  deriving DecidableEq, Repr

structure Persist where
  pages : Tbl Page := []
  medium : Tbl Page := []
  box : Tbl BoxRec := []
  boxMedium : Tbl BoxRec := []
  nextSeq : Nat := 1
  markStore : Nat := 0
  markPtime : Nat := 0
  /-- CRC-32 in the tags of the control rows STORE_MARK and CHECKPOINT, and the store number of the latter's (R385). -/
  markTag : Word := 0
  checkStore : Nat := 0
  checkTag : Word := 0
  checkPtime : Nat := 0
  checkBoot : Word := 0
  storesDone : Nat := 0
  /-- The store in progress: its number; a second store is due after it. -/
  storing : Option Nat := none
  /-- The rows it writes, in order: parameter rows 0–1,023, Music Box slot k as 1,024 + k (R386); how many it has
  copied, and when it started. -/
  storeRows : List Nat := []
  storeCopied : Nat := 0
  storeAt : Nat := 0
  storeAgain : Bool := false
  powerFail : Bool := false
  replacedSecond : Option Nat := none
  /-- Always-on domain (R395–R397). -/
  tamperEn : BitVec 4 := 0
  tamperPol : BitVec 4 := 0
  tamperValid : Bool := false
  tamperFirst : Nat := 0
  tamperCount : Nat := 0
  /-- The store that holds the latch's record: the firmware clears the latch when it ends (R395). -/
  tamperStore : Option Nat := none
  vbatMv : Nat := 3000
  vbatLow : Bool := false
  lastBoot : Word := 0
  deriving DecidableEq, Repr

/-! ### Health (R402–R414) -/

/-- An ADC input (R410–R413). -/
structure Adc where
  enable : Bool := false
  owEn : Bool := true
  lo : Nat := 0
  hi : Nat := 4095
  owDelta : Nat := 200
  value : Nat := 0
  suspect : Bool := false
  isOpen : Bool := false
  biasedNext : Bool := false
  passes : Nat := 0
  outside : Bool := false
  deriving DecidableEq, Repr

structure Health where
  slowdown : Tbl Nat := []
  oMv : Nat := 0
  envelopeMv : Nat := 30
  linkEnv : Nat := 8
  exceededAt : Option Nat := none
  lastPlan : Nat := 0
  /-- The 16 die sensors and the highest of them, in tenths of a degree (R406). -/
  sensors : List Int := List.replicate 16 250
  tj : Int := 250
  warn : Option Nat := none
  warned : Bool := false
  atLimit : Bool := false
  throttle : Bool := true
  /-- Powered times of the last step down and of the fall below LIMIT − 5 °C (R407). -/
  hotSince : Option Nat := none
  coolSince : Option Nat := none
  /-- The two HBM stacks, in tenths of a degree, and those at WARN and at LIMIT (R408). -/
  hbmTemps : List Int := [250, 250]
  hbmWarned : BitVec 2 := 0
  hbmLimited : BitVec 2 := 0
  doubledRefresh : Bool := false
  /-- Rails out of range, and the powered time each was last out (R409). -/
  rails : Tbl Nat := []
  convUs : Nat := 1000
  /-- Powered time at which the present scan started (R410, R414), and the slots of it that have been taken. -/
  scanAt : Nat := 0
  adcSlots : Nat := 0
  adc : Tbl Adc := []
  /-- 0 awake, 1 power-down, 2 self-refresh (R227). -/
  hbmSleep : Nat := 0
  deriving DecidableEq, Repr

/-! ### Boot flash (R418–R427) -/

/-- A boot control copy (R419). -/
structure BootCtl where
  active : Nat := 0
  trial : Option Nat := none
  seq : Nat := 0
  good : Bool := false
  deriving DecidableEq, Repr

/-- A flash operation in progress (R425): opcode, address, bytes, data. -/
structure FlashOp where
  opcode : Nat
  addr : Nat
  length : Nat
  data : List Byte
  deriving DecidableEq, Repr

structure Flash where
  bytes : Mem := []
  sfdpBytes : Nat := 134217728
  copy0 : BootCtl := {}
  copy1 : BootCtl := {}
  trialRunning : Bool := false
  checks : List Nat := [15, 15, 15]
  op : Option FlashOp := none
  /-- Sectors that an operation left partly written (R425). -/
  torn : List Nat := []
  deriving DecidableEq, Repr

/-! ### What leaves the device, and the whole -/

/-- What the device sends to the world outside (the model's own record, newest first). -/
inductive Output where
  | msi (fn vector : Nat)
  | block (port lane : Nat) (header : BitVec 2) (wire : BitVec 128)
  /-- CK starts or stops on a transmit port (R290). -/
  | ck (port : Nat) (on : Bool)
  /-- The bits of a lane under test, in sending order (R297). -/
  | prbs (port lane : Nat) (bits : List Bool)
  | back (port : Nat) (m : BackMsg)
  /-- A packet with its source and destination address and its VLAN tag (R309). -/
  | packet (port : Nat) (src dst : BitVec 128) (vlan : Option Nat) (udp : Nat) (p : Rtp)
  /-- The answer to an ARP request or neighbour solicitation: the port's own address and its MAC, to whom asked
  (R304). -/
  | neighbour (port : Nat) (address : BitVec 128) (mac : Nat) (asker : BitVec 48)
  | join (port : Nat) (group : BitVec 128) (src : BitVec 128)
  | leave (port : Nat) (group : BitVec 128)
  | probe (port : Nat) (address : BitVec 128)
  | nvme (slot : Nat) (op : NvmeOp)
  | pmbus (millivolts : Nat)
  | rpPerst (levels : BitVec 4)
  | pulse (fpo : Nat) (activeHigh : Bool) (width : Nat) (ns : Int)
  | unsupportedRequest
  deriving DecidableEq, Repr

/-- The block. -/
structure State where
  /-- The commands waiting, first in, first out. -/
  pending : List Instr := []
  sys : Sys := {}
  boxes : Tbl Mailbox := []
  exec : Option Executing := none
  /-- The page Puppeteer served last (R31). -/
  lastServed : Nat := 15
  /-- Host memory as DMA sees it, and address ranges whose DMA ends in a PCIe error (R37). -/
  hostMem : Mem := []
  dmaFaults : List (Nat × Nat) := []
  parts : Tbl Partition := []
  grants : List Grant := []
  /-- The next index of each handle type (R10). -/
  nextIndex : Tbl Nat := []
  sources : Tbl Source := []
  objects : Tbl Obj := []
  /-- Generation of each object slot, and the order of closes and frees (R112, R115). -/
  slotGen : Tbl Nat := []
  /-- Slots of output rings whose route has ended, until their objects are free (R71, R126, R130). -/
  orphans : List Slot := []
  order : Nat := 1
  uploads : Tbl Upload := []
  decodes : Tbl DecodeCtx := []
  shifts : Tbl Shift := []
  procs : Tbl Proc := []
  engines : Engines := {}
  routes : Tbl Route := []
  dests : Tbl Dest := []
  heads : Tbl Head := []
  audio : Audio := {}
  time : Timebase := {}
  ports : Tbl Port := []
  eth : Ethernet := {}
  pool : Pool := {}
  vault : Vault := {}
  domino : Domino := {}
  events : Events := {}
  persist : Persist := {}
  health : Health := {}
  flash : Flash := {}
  /-- The last close at Toybox: the source, its new latest complete frame and the one before (R16). -/
  lastClose : Option (Handle × Nat × Option Nat) := none
  /-- The closes before it in the same microsecond, newest first: a cycle can hold several (R16). -/
  closes : List (Handle × Nat × Option Nat) := []
  /-- The model's own fields: free values used so far, what was sent outside, and the last read's data. -/
  free : Nat := 0
  out : List Output := []
  bus : List Word := []
  deriving DecidableEq, Repr

/-- The machine right after reset (Table 2-2, 2-4, 9-5, 17-2, 17-3; R274; R423): every table reads its
reset values, no command waits, and start-up has not run. -/
def State.reset : State := {}

end Sys2Proof.Machine
end

