-- ==== Sys2Proof/Machine/Bits.lean ====
section
/-! DEFINITION. Fields of words, tables by number, byte memories, exact fractions and the three CRCs:
the plain operations every meaning is built from. -/

namespace Sys2Proof.Machine

open Sys2Proof

/-! ### Fields of words (R4) -/

/-- Field [hi:lo] of a word as a number. -/
def bits (w : Word) (hi lo : Nat) : Nat := (w.toNat >>> lo) % 2 ^ (hi + 1 - lo)

/-- Bit i of a word. -/
def bit (w : Word) (i : Nat) : Bool := w.getLsbD i

/-- Field [hi:lo] as a two's-complement number. -/
def sbits (w : Word) (hi lo : Nat) : Int :=
  let n := bits w hi lo
  if n < 2 ^ (hi - lo) then n else (n : Int) - 2 ^ (hi + 1 - lo)

/-- The low 32 bits of a number. -/
def word (n : Nat) : Word := BitVec.ofNat 32 n

/-- Two's complement of an integer in n bits. -/
def twos (i : Int) (n : Nat) : Nat := (i % (2 ^ n : Nat)).toNat

/-- 1 for true. -/
def b1 (b : Bool) : Nat := if b then 1 else 0

/-- A word from fields (value, hi, lo); a value is cut to its field's width. -/
def pack : List (Nat × Nat × Nat) → Word
  | [] => 0
  | (v, hi, lo) :: fs => word ((v % 2 ^ (hi + 1 - lo)) <<< lo) ||| pack fs

/-- Put an entry before the first one that it does not come after. -/
def insertBy {α : Type} (le : α → α → Bool) (x : α) : List α → List α
  | [] => [x]
  | y :: l => if le x y then x :: y :: l else y :: insertBy le x l

/-- A list in order, equals as they stood: recursion on the list, so that the kernel evaluates it. -/
def sortBy {α : Type} (le : α → α → Bool) (l : List α) : List α := l.foldr (insertBy le) []

/-- Word i of a list, 0 beyond its end. -/
def wd (ws : List Word) (i : Nat) : Word := ws.getD i 0

/-- The bits of a word numbered by the list. -/
def maskOf : List Nat → Word
  | [] => 0
  | i :: is => word (2 ^ i) ||| maskOf is

/-- The bits [hi:lo]. -/
def field (hi lo : Nat) : Word := word ((2 ^ (hi + 1 - lo) - 1) <<< lo)

/-- The low n bits of a 64-bit quantity held in two words, low word first. -/
def wide (lo hi : Word) : Nat := hi.toNat * 2 ^ 32 + lo.toNat

/-- The bytes of a word, least significant first (R4). -/
def wordBytes (w : Word) : List Byte :=
  [w.extractLsb' 0 8, w.extractLsb' 8 8, w.extractLsb' 16 8, w.extractLsb' 24 8]

/-- Words as bytes, little-endian (R4). -/
def bytesOf (ws : List Word) : List Byte := ws.flatMap wordBytes

/-- Four bytes as a word, the first least significant. -/
def word4 (a b c d : Byte) : Word := d ++ c ++ b ++ a

/-- Bytes as words, little-endian, zero-filled (R4). -/
def wordsOf : List Byte → List Word
  | a :: b :: c :: d :: t => word4 a b c d :: wordsOf t
  | [] => []
  | [a] => [word4 a 0 0 0]
  | [a, b] => [word4 a b 0 0]
  | [a, b, c] => [word4 a b c 0]

/-- n bytes of a number, least significant first. -/
def leBytes (v : Nat) : Nat → List Byte
  | 0 => []
  | n + 1 => BitVec.ofNat 8 v :: leBytes (v / 256) n

/-- n bytes of a number, most significant first. -/
def beBytes (v n : Nat) : List Byte := (leBytes v n).reverse

/-- The number little-endian bytes spell. -/
def ofLe : List Byte → Nat
  | [] => 0
  | b :: t => b.toNat + 256 * ofLe t

/-- Bit i of a bitmap. -/
def tb (n i : Nat) : Bool := n.testBit i

/-- The members of a bitmap below n, ascending. -/
def members (m n : Nat) : List Nat := (List.range n).filter (tb m)

/-- The bitmap of a list. -/
def bitmap : List Nat → Nat
  | [] => 0
  | i :: t => 2 ^ i ||| bitmap t

/-- ⌈a / b⌉. -/
def cdiv (a b : Nat) : Nat := (a + b - 1) / b

/-- a / b where the manual gives no rounding: exact where it divides, else one of the two neighbours. -/
def divOpen (a b : Nat) : Nat := if a % b = 0 then a / b else a / b + b1 (Config.roundUp a b)

/-- a / b rounded, half up (R84). -/
def divHalfUp (a b : Nat) : Nat := (2 * a + b) / (2 * b)

/-- Add to a counter that saturates. -/
def sat (top n k : Nat) : Nat := min top (n + k)

/-- Set element i of a list that has it. -/
def lset {α : Type} (l : List α) (i : Nat) (a : α) : List α := l.set i a

/-! ### Tables -/

/-- The entry of key k. -/
def tget {α : Type} : Tbl α → Nat → Option α
  | [], _ => none
  | (j, a) :: t, k => if j = k then some a else tget t k

/-- Give key k the entry a; keys stay ascending. -/
def tset {α : Type} : Tbl α → Nat → α → Tbl α
  | [], k, a => [(k, a)]
  | (j, b) :: t, k, a =>
    if j = k then (k, a) :: t else if k < j then (k, a) :: (j, b) :: t else (j, b) :: tset t k a

/-- Remove key k. -/
def tdel {α : Type} (t : Tbl α) (k : Nat) : Tbl α := t.filter (fun e => e.1 ≠ k)

/-- Change the entry of key k where there is one. -/
def tmod {α : Type} (t : Tbl α) (k : Nat) (f : α → α) : Tbl α :=
  t.map (fun e => if e.1 = k then (e.1, f e.2) else e)

/-- Change every entry. -/
def tall {α : Type} (t : Tbl α) (f : Nat → α → α) : Tbl α := t.map (fun e => (e.1, f e.1 e.2))

/-- The keys. -/
def tkeys {α : Type} (t : Tbl α) : List Nat := t.map Prod.fst

/-- The lowest number below n that is no key: it is at most the number of entries. -/
def freeKey {α : Type} (t : Tbl α) (n : Nat) : Option Nat :=
  match (List.range (t.length + 1)).find? (fun k => (tget t k).isNone) with
  | some k => if k < n then some k else none
  | none => none

/-! ### Byte memories -/

/-- The byte at an address; d is what an unlisted address reads as. -/
def memGet (d : Byte) : Mem → Nat → Byte
  | [], _ => d
  | (j, b) :: t, a => if j = a then b else memGet d t a

/-- Write one byte, keeping addresses rising and no entry equal to d. -/
def memSet (d : Byte) : Mem → Nat → Byte → Mem
  | [], a, b => if b = d then [] else [(a, b)]
  | (j, x) :: t, a, b =>
    if a < j then (if b = d then (j, x) :: t else (a, b) :: (j, x) :: t)
    else if j = a then (if b = d then t else (a, b) :: t)
    else (j, x) :: memSet d t a b

/-- Write bytes from an address up. -/
def memWrite (d : Byte) (m : Mem) (a : Nat) : List Byte → Mem
  | [] => m
  | b :: t => memWrite d (memSet d m a b) (a + 1) t

/-- Read n bytes. -/
def memRead (d : Byte) (m : Mem) (a n : Nat) : List Byte :=
  (List.range n).map (fun i => memGet d m (a + i))

/-- The canonical form: addresses strictly rising from lo up, no entry equal to d. -/
def memWfFrom (d : Byte) : Nat → Mem → Bool
  | _, [] => true
  | lo, (j, b) :: t => decide (lo ≤ j) && b != d && memWfFrom d (j + 1) t

/-- The canonical form of a byte memory. -/
def memWf (d : Byte) (m : Mem) : Bool := memWfFrom d 0 m

/-! ### Fractions -/

def fadd (a b : Frac) : Frac :=
  let n := a.num * b.den + b.num * a.den
  let d := a.den * b.den
  let g := Nat.gcd n d
  if g = 0 then ⟨n, d⟩ else ⟨n / g, d / g⟩

def fsum (l : List Frac) : Frac := l.foldl fadd ⟨0, 1⟩

/-- a > b. -/
def fgt (a b : Frac) : Bool := decide (a.num * b.den > b.num * a.den)

def fceil (a : Frac) : Nat := cdiv a.num a.den

def ffloor (a : Frac) : Nat := a.num / a.den

/-! ### CRCs -/

/-- One byte of the reflected CRC-32 (R230). -/
def crc32Byte (c : BitVec 32) (b : Byte) : BitVec 32 :=
  (List.range 8).foldl
    (fun c _ => if c.getLsbD 0 then (c >>> 1) ^^^ 0xEDB88320 else c >>> 1) (c ^^^ b.zeroExtend 32)

/-- IEEE 802.3 CRC-32 (R230): reflected 0x04C11DB7, initial and final XOR of all ones. -/
def crc32 (bs : List Byte) : BitVec 32 := ~~~ (bs.foldl crc32Byte 0xFFFFFFFF)

/-- CRC-32 over words, least significant byte first (R230). -/
def crcWords (ws : List Word) : Word := crc32 (bytesOf ws)

/-- CRC-16 of a control block: polynomial 0x1021, initial value 0xFFFF, most significant bit first (R285). -/
def crc16 (bs : List Byte) : BitVec 16 :=
  bs.foldl (fun (c : BitVec 16) (b : Byte) =>
    (List.range 8).foldl
      (fun (c : BitVec 16) _ => if c.getLsbD 15 then (c <<< 1) ^^^ 0x1021 else c <<< 1)
      (c ^^^ (BitVec.ofNat 16 (b.toNat * 256)))) 0xFFFF

/-- CRC-8 of a back-channel message: polynomial 0x07, initial value 0 (R289). -/
def crc8 (bs : List Byte) : BitVec 8 :=
  bs.foldl (fun (c : BitVec 8) (b : Byte) =>
    (List.range 8).foldl
      (fun (c : BitVec 8) _ => if c.getLsbD 7 then (c <<< 1) ^^^ 0x07 else c <<< 1) (c ^^^ b)) 0

/-! ### The scrambler 1 + x³⁹ + x⁵⁸ of a lane (R284) -/

/-- The last 58 bits sent on a lane, after a payload. -/
def lastBits (wire : BitVec 128) : BitVec 58 := wire.extractLsb' 70 58

/-- A payload as it is sent after 58 bits. -/
def scrambled (before : BitVec 58) (payload : BitVec 128) : BitVec 128 :=
  BitVec.ofNat 128 ((List.range 128).foldl (fun n k =>
    if Nat.xor (b1 (payload.getLsbD k)) (Nat.xor (n / 2 ^ (k + 19) % 2) (n / 2 ^ k % 2)) = 1 then n + 2 ^ (58 + k) else n)
    before.toNat / 2 ^ 58)

end Sys2Proof.Machine

namespace Sys2Proof

/-- The payload of a block: each bit of it was sent with the bits 39 and 58 before it added (R284). -/
def CtlBlock.payload (b : CtlBlock) : BitVec 128 :=
  let n := b.before.toNat + 2 ^ 58 * b.wire.toNat
  BitVec.ofNat 128 (b.wire.toNat ^^^ (n / 2 ^ 19) ^^^ n)

end Sys2Proof
end

