-- ==== Sys2Proof/Machine/Colour.lean ====
section
/-! DEFINITION. Exact colour arithmetic: the equations of BT.601, BT.709 and BT.2020 between YCbCr and R'G'B' in
both ranges (R202, Table 8-4), the look-up of KRN_HDRMAP (R146), the conversion of a one-shot job's output (R164),
and the shapes and text of kernel data (R148). -/

namespace Sys2Proof.Machine

open Sys2Proof

/-- A pixel: c0, c1, c2 and alpha. -/
abbrev Px := Nat × Nat × Nat × Nat

/-- Three exact components: R', G', B' from 0 to 1, or a matrix's row of coefficients. -/
abbrev Rat3 := ℚ × ℚ × ℚ

/-! ### The equations (R202) -/

/-- Luma coefficients Kr and Kb of a MATRIX code: 1 BT.601, 2 BT.709, 3 BT.2020 (Table 4-2). -/
def lumaOf (m : Nat) : ℚ × ℚ :=
  if m = 1 then (299 / 1000, 114 / 1000) else if m = 2 then (2126 / 10000, 722 / 10000) else (2627 / 10000, 593 / 10000)

/-- Rows of R'G'B' in Y', Pb and Pr (Y' from 0 to 1, Pb and Pr from −1/2 to 1/2). -/
def fromYuv (m : Nat) : List Rat3 :=
  let (r, b) := lumaOf m
  let g := 1 - r - b
  [(1, 0, 2 * (1 - r)), (1, -(2 * b * (1 - b) / g), -(2 * r * (1 - r) / g)), (1, 2 * (1 - b), 0)]

/-- Rows of Y', Pb and Pr in R'G'B'. -/
def toYuv (m : Nat) : List Rat3 :=
  let (r, b) := lumaOf m
  let g := 1 - r - b
  [(r, g, b), (-r / (2 * (1 - b)), -g / (2 * (1 - b)), 1 / 2), (1 / 2, -g / (2 * (1 - r)), -b / (2 * (1 - r)))]

/-- Code span and offset of a luma or R'G'B' sample of d bits: narrow range is 64–940 of 10 bits. -/
def lumaSpan (full : Bool) (d : Nat) : ℚ × ℚ := if full then (2 ^ d - 1, 0) else (219 * 2 ^ (d - 8), 16 * 2 ^ (d - 8))

/-- Code span and offset of a chroma sample of d bits: full range has no range expansion (R203). -/
def chromaSpan (full : Bool) (d : Nat) : ℚ × ℚ := ((if full then 2 ^ d - 1 else 224 * 2 ^ (d - 8)), 2 ^ (d - 1))

/-- A row applied to three components. -/
def rowDot (r c : Rat3) : ℚ := r.1 * c.1 + r.2.1 * c.2.1 + r.2.2 * c.2.2

/-- The nearest whole number. -/
def nearestInt (q : ℚ) : Int := (q + 1 / 2).floor

/-- A matrix in 1/8,192 and whole offsets (R202): the nearest values to exact rows and offsets. -/
def quantised (rows : List (Rat3 × ℚ)) : List Int :=
  rows.flatMap (fun r => [nearestInt (r.1.1 * 8192), nearestInt (r.1.2.1 * 8192), nearestInt (r.1.2.2 * 8192), nearestInt r.2])

/-- YCbCr of 10 bits to R'G'B' full: rows of coefficients and offsets in codes. -/
def yuvToRgb (m : Nat) (full : Bool) : List (Rat3 × ℚ) :=
  let (ys, yo) := lumaSpan full 10
  let (cs, co) := chromaSpan full 10
  (fromYuv m).map (fun r =>
    let k : Rat3 := (r.1 * 1023 / ys, r.2.1 * 1023 / cs, r.2.2 * 1023 / cs)
    (k, -(k.1 * yo + k.2.1 * co + k.2.2 * co)))

/-- R'G'B' full to YCbCr narrow of 10 bits. -/
def rgbToYuv (m : Nat) : List (Rat3 × ℚ) :=
  let (ys, yo) := lumaSpan false 10
  let (cs, co) := chromaSpan false 10
  let scaled := fun (r : Rat3) (k : ℚ) => ((r.1 * k / 1023, r.2.1 * k / 1023, r.2.2 * k / 1023) : Rat3)
  match toYuv m with
  | [y, b, r] => [(scaled y ys, yo), (scaled b cs, co), (scaled r cs, co)]
  | _ => []

/-- A gain and an offset on each of three components. -/
def diagonal (k o : ℚ) : List (Rat3 × ℚ) := [((k, 0, 0), o), ((0, k, 0), o), ((0, 0, k), o)]

/-! ### Pixels and tags (R146, R164) -/

/-- R'G'B' of a pixel of d bits under a tag: c2, c1, c0 are R', G', B' or Cr, Y, Cb. -/
def toUnit (k : Colour) (d : Nat) (p : Rat3) : Rat3 :=
  let (ys, yo) := lumaSpan k.full d
  let (cs, co) := chromaSpan k.full d
  if k.matrix = 0 then ((p.2.2 - yo) / ys, (p.2.1 - yo) / ys, (p.1 - yo) / ys)
  else
    let v : Rat3 := ((p.2.1 - yo) / ys, (p.1 - co) / cs, (p.2.2 - co) / cs)
    match fromYuv k.matrix with
    | [r, g, b] => (rowDot r v, rowDot g v, rowDot b v)
    | _ => v

/-- Codes c0, c1, c2 of d bits of an R'G'B' value under a tag, exact. -/
def fromUnit (k : Colour) (d : Nat) (u : Rat3) : Rat3 :=
  let (ys, yo) := lumaSpan k.full d
  let (cs, co) := chromaSpan k.full d
  if k.matrix = 0 then (u.2.2 * ys + yo, u.2.1 * ys + yo, u.1 * ys + yo)
  else match toYuv k.matrix with
    | [y, b, r] => (rowDot b u * cs + co, rowDot y u * ys + yo, rowDot r u * cs + co)
    | _ => u

/-- A code from an exact value, within d bits: the manual gives no rounding. -/
def codeOf (d : Nat) (q : ℚ) : Nat :=
  let n := if q.den = 1 then q.num else q.floor + b1 (Config.roundUp q.num.natAbs q.den)
  min (2 ^ d - 1) n.toNat

/-- Bits of a sample of a storage format and P4 variant (Table 5-1, Table 5-2). -/
def sampleBits (format variant : Nat) : Nat := if format = 3 ∨ (format = 1 ∧ variant = 1) then 8 else 10

/-- The exact components of column x of a line of w pixels, 4:4:4: in 4:2:2 storage odd chroma is the mean of its
neighbours (Table 4-4), open beyond the line's end. -/
def raisedPx (format w : Nat) (line : Nat → Px) (x : Nat) : Rat3 :=
  let side := fun (c : Px → Nat) =>
    if format = 1 ∨ x % 2 = 0 then ((c (line x) : Nat) : ℚ)
    else
      let a := c (line (x - 1))
      let b := if x + 1 < w then c (line (x + 1)) else Config.edgeChroma a (x - 1)
      ((a + b : Nat) : ℚ) / 2
  (side (fun p => p.1), (((line x).2.1 : Nat) : ℚ), side (fun p => p.2.2.1))

/-- The exact 4:4:4 components of a line as a storage format keeps those of column x: 4:2:2 chroma is filtered
[1 2 1]/4 at even columns (Table 4-4); beyond the line it reads as the column itself. -/
def storedPx (format w : Nat) (line : Nat → Rat3) (x : Nat) : Rat3 :=
  let side := fun (c : Rat3 → ℚ) =>
    if format = 1 then c (line x)
    else (c (line (x - 1)) + 2 * c (line x) + c (line (if x + 1 < w then x + 1 else x))) / 4
  (side (fun p => p.1), (line x).2.1, side (fun p => p.2.2))

/-- The three components of grid point (r, g, b) of a LUT (Table 6-2). -/
def lutAt (grid : Nat) (lut : List Word) (r g b : Nat) : Rat3 :=
  let w := wd lut (1 + r + grid * g + grid * grid * b)
  (((bits w 29 20 : Nat) : ℚ) / 1023, ((bits w 19 10 : Nat) : ℚ) / 1023, ((bits w 9 0 : Nat) : ℚ) / 1023)

/-- a + t × (b − a), by component. -/
def addScaled (a b c : Rat3) (t : ℚ) : Rat3 :=
  (a.1 + t * (b.1 - c.1), a.2.1 + t * (b.2.1 - c.2.1), a.2.2 + t * (b.2.2 - c.2.2))

/-- Tetrahedral interpolation (R146): from the cell's corner along the axes in falling order of their fractions. A
value outside the grid is held to its edge. -/
def tetra (grid : Nat) (lut : List Word) (u : Rat3) : Rat3 :=
  let at_ := fun (v : ℚ) =>
    let p := max 0 (min 1 v) * (grid - 1 : Nat)
    let i := min p.floor.toNat (grid - 2)
    (i, p - i)
  let (r, fr) := at_ u.1
  let (g, fg) := at_ u.2.1
  let (b, fb) := at_ u.2.2
  let axes := sortBy (fun (x y : Nat × ℚ) => decide (y.2 ≤ x.2)) [(0, fr), (1, fg), (2, fb)]
  let step := fun (a : (Nat × Nat × Nat) × Rat3) (e : Nat × ℚ) =>
    let (i, j, k) := a.1
    let next := if e.1 = 0 then (i + 1, j, k) else if e.1 = 1 then (i, j + 1, k) else (i, j, k + 1)
    (next, addScaled a.2 (lutAt grid lut next.1 next.2.1 next.2.2) (lutAt grid lut i j k) e.2)
  (axes.foldl step ((r, g, b), lutAt grid lut r g b)).2

/-- KRN_HDRMAP on column x of a line (R146). -/
def hdrPixel (format variant w : Nat) (source target : Colour) (grid : Nat) (lut : List Word) (line : Nat → Px) (x : Nat) : Px :=
  let d := sampleBits format variant
  let p := storedPx format w (fun i => fromUnit target d (tetra grid lut (toUnit source d (raisedPx format w line i)))) x
  (codeOf d p.1, codeOf d p.2.1, codeOf d p.2.2, (line x).2.2.2)

/-- Column x of a line in a P4 variant under another tag, with full alpha (R164). -/
def convertPixel (format variant w : Nat) (source : Colour) (toVariant : Nat) (target : Colour) (line : Nat → Px) (x : Nat) : Px :=
  let d := sampleBits 1 toVariant
  let p := fromUnit target d (toUnit source (sampleBits format variant) (raisedPx format w line x))
  (codeOf d p.1, codeOf d p.2.1, codeOf d p.2.2, if toVariant = 1 then 255 else 3)

/-! ### Shapes and text (R148) -/

/-- Consecutive vertices of a polygon. -/
def edgesOf (v : List (Nat × Nat)) : List ((Nat × Nat) × (Nat × Nat)) := v.zip (v.drop 1 ++ v.take 1)

/-- Twice the signed area of a, b and p. -/
def sideOf (a b p : Int × Int) : Int := (b.1 - a.1) * (p.2 - a.2) - (b.2 - a.2) * (p.1 - a.1)

/-- An edge passes through the inside of pixel (x, y). -/
def crosses (e : (Nat × Nat) × (Nat × Nat)) (x y : Nat) : Bool :=
  let (a, b) := e
  let s := [((x : Int), (y : Int)), (x + 1, y), (x, y + 1), (x + 1, y + 1)].map (sideOf (a.1, a.2) (b.1, b.2))
  decide (x < max a.1 b.1 ∧ min a.1 b.1 < x + 1 ∧ y < max a.2 b.2 ∧ min a.2 b.2 < y + 1)
    && s.any (fun v => decide (0 < v)) && s.any (fun v => decide (v < 0))

/-- How often the ray from a pixel's centre to the right meets the edges: upward and downward crossings. -/
def windings (v : List (Nat × Nat)) (x y : Nat) : Nat × Nat :=
  (edgesOf v).foldl (fun n e =>
    let a : Int × Int := (2 * e.1.1, 2 * e.1.2)
    let b : Int × Int := (2 * e.2.1, 2 * e.2.2)
    let p : Int × Int := (2 * x + 1, 2 * y + 1)
    if a.2 ≤ p.2 ∧ p.2 < b.2 ∧ 0 < sideOf a b p then (n.1 + 1, n.2)
    else if b.2 ≤ p.2 ∧ p.2 < a.2 ∧ sideOf a b p < 0 then (n.1, n.2 + 1)
    else n) (0, 0)

/-- A pixel belongs to a polygon: its inside, and open where an edge passes through the pixel or the polygon
overlaps itself. -/
def inPoly (v : List (Nat × Nat)) (x y : Nat) : Bool :=
  let (u, d) := windings v x y
  if (edgesOf v).any (fun e => crosses e x y) ∨ (u ≠ d ∧ (u + d) % 2 = 0) then Config.shapeEdge x y
  else decide ((u + d) % 2 = 1)

/-- The mean of the block that holds a pixel, of w × h pixels, by component; the place of the block grid is open.
In 4:2:2 storage chroma stands at even columns. -/
def blockMean (n w h : Nat) (half : Bool) (px : Nat → Nat → Px) (x y : Nat) : Px :=
  let span := fun (axis i top : Nat) =>
    let o := Config.blockOrigin n axis % n
    let a := (i + o) / n * n
    (List.range n).filterMap (fun k => if o ≤ a + k ∧ a + k - o < top then some (a + k - o) else none)
  let cells := (span 1 y h).flatMap (fun j => (span 0 x w).map (fun i => (i, px i j)))
  let mean := fun (l : List Nat) => if l.isEmpty then 0 else divOpen l.sum l.length
  let sites := if half then cells.filter (fun e => decide (e.1 % 2 = 0)) else cells
  (mean (sites.map (fun e => e.2.1)), mean (cells.map (fun e => e.2.2.1)), mean (sites.map (fun e => e.2.2.2.1)),
    mean (cells.map (fun e => e.2.2.2.2)))

/-- The characters of UTF-8 text up to its zero padding; 0 for one that is drawn as an empty box (R148). -/
def charsOf : Nat → List Byte → List Nat
  | 0, _ => []
  | n + 1, l =>
    match l.map BitVec.toNat with
    | [] => []
    | a :: t =>
      let k := if a < 128 then 1 else if a < 192 then 1 else if a < 224 then 2 else if a < 240 then 3 else 4
      let v := (t.take (k - 1)).foldl (fun v b => v * 64 + b % 64) (if k = 1 then a else a % 2 ^ (7 - k))
      let good := decide ((32 ≤ v ∧ v ≤ 126) ∨ (160 ≤ v ∧ v ≤ 255)) && (decide (a < 128) || decide (k = 2))
      (if good then v else 0) :: charsOf n (l.drop k)

/-- Pixel (x, y) of a picture with a line of text from (tx, ty): glyphs in the text colour over a box of the given
opacity (0 none, 1 50 %, 2 full). The shapes of the glyphs and the size of the box are open. -/
def textPixel (tx ty size : Nat) (chars : List Nat) (ink box : Px) (opacity : Nat) (under : Px) (x y : Nat) : Px :=
  let px := [16, 24, 32].getD size 16
  if x < tx ∨ y < ty ∨ ty + px ≤ y then under
  else
    let k := Config.glyphAt size chars (x - tx) (y - ty)
    let half := fun (a b : Nat) => divOpen (a + b) 2
    if k = 2 then ink
    else if k = 1 ∧ opacity = 2 then box
    else if k = 1 ∧ opacity = 1 then
      (half under.1 box.1, half under.2.1 box.2.1, half under.2.2.1 box.2.2.1, half under.2.2.2 box.2.2.2)
    else under

end Sys2Proof.Machine
end

