-- ==== Sys2Proof/Machine/Pixels.lean ====
section
/-! DEFINITION. The pixels of an object as memory, heads and what leaves the device read them (R86, R108). -/

namespace Sys2Proof.Machine

open Sys2Proof

/-! ### Pixels (R86, Table 5-1, Table 5-2) -/

/-- Black in an object's format (R86): c0, c1, c2 and alpha. -/
def blackOf (format variant : Nat) (full : Bool) : Px :=
  if format = 1 ∧ variant = 1 then (0, 0, 0, 255)
  else if format = 1 ∧ variant = 2 then (0, 0, 0, 3)
  else if format = 3 then (128, if full then 0 else 16, 128, 0)
  else (512, if full then 0 else 64, 512, 0)

/-- The run that holds pixel (x, y). -/
def inRun (x y : Nat) (r : Run) : Bool := decide (r.y = y ∧ r.x ≤ x ∧ x < r.x + r.px.length)

/-- Chroma of a decoded picture raised from 4:2:0 to 4:2:2 by vertical two-tap interpolation (R96): of line y, from
chroma rows of which row j stands at luma line 2j, taken for a frame (parity 0) or a field of either parity. The
weights are those of the chroma sample positions of H.264 and H.265 without chroma location (PRESUMED,
notes/assumptions/94); row −1 and the row past the last read as their neighbours. -/
def raised (row : Nat → Nat) (parity h y : Nat) : Nat :=
  let j := y / 2
  let other := if y % 2 = 0 then j - 1 else min (j + 1) (h / 2 - 1)
  let w := if parity = 0 then 6 else if (parity = 1 ↔ y % 2 = 0) then 7 else 5
  divOpen (w * row j + (8 - w) * row other) 8

/-- Two frames mixed at a phase in 1/64 (R173); the manual gives no rounding. -/
def blendPx (w : Nat) (p q : Px) : Px :=
  let m := fun (a b : Nat) => divOpen (a * (64 - w) + b * w) 64
  (m p.1 q.1, m p.2.1 q.2.1, m p.2.2.1 q.2.2.1, m p.2.2.2 q.2.2.2)

/-- Pixel (x, y) of a content; b is what black reads as. -/
def pixelIn : Content → Px → Nat → Nat → Px
  | .black, b, _, _ => b
  | .free n, _, x, y => Config.freePixel n x y
  | .decoded n parity h, _, x, y =>
    let c := fun (f : Px → Nat) => raised (fun j => f (Config.freePixel n (x - x % 2) (2 * j))) parity h y
    (c (fun p => p.1), (Config.freePixel n x y).2.1, c (fun p => p.2.2.1), 0)
  | .solid p, _, _, _ => p
  | .rows below runs, b, x, y =>
    match runs.find? (inRun x y) with
    | some r => (r.px[x - r.x]?).getD b
    | none => pixelIn below b x y
  | .patch below r above, b, x, y =>
    if r.x0 ≤ x ∧ x < r.x1 ∧ r.y0 ≤ y ∧ y < r.y1 then pixelIn above b x y else pixelIn below b x y
  | .blend old new w, b, x, y => blendPx w (pixelIn old b x y) (pixelIn new b x y)
  | .poly below v above, b, x, y => if inPoly v x y then pixelIn above b x y else pixelIn below b x y
  | .mosaic below n w h half, b, x, y => blockMean n w h half (fun i j => pixelIn below b i j) x y
  | .shift below dx dy, b, x, y => pixelIn below b (x - dx) (y - dy)
  | .text below tx ty size chars ink box opacity, b, x, y =>
    textPixel tx ty size chars ink box opacity (pixelIn below b x y) x y
  | .hdr below format variant w source target grid lut, _, x, y =>
    hdrPixel format variant w source target grid lut (fun i => pixelIn below (blackOf format variant source.full) i y) x
  | .convert below format variant w source toVariant target, _, x, y =>
    convertPixel format variant w source toVariant target (fun i => pixelIn below (blackOf format variant source.full) i y) x
  | .field below parity, b, x, y => pixelIn below b x (2 * y + (parity - 1))
  | .weave top bottom, b, x, y => if y % 2 = 0 then pixelIn top b x (y / 2) else pixelIn bottom b x (y / 2)

/-- Pixel (x, y) of an object. -/
def pixelAt (o : Obj) (x y : Nat) : Px := pixelIn o.content (blackOf o.format o.variant o.colour.full) x y

/-- A 10-bit code at a sink's depth: rounded half up and clipped to 8 bits, shifted left by 2 to 12. -/
def toDepth (depth v : Nat) : Nat :=
  if depth = 0 then min 255 (divHalfUp v 4) else if depth = 1 then v else v * 4

/-- The sampling an object's storage holds: 0 RGB, 1 YCbCr 4:4:4, 2 YCbCr 4:2:2 (Table 5-1, Table 5-2). -/
def heldSampling (o : Obj) : Nat := if o.format ≠ 1 then 2 else if o.variant = 0 then 1 else 0

/-- An object's line of w pixels as it is sent at a sampling and depth (R239, R286): in the depth where the storage holds
that sampling. How one sampling becomes another the manual does not say: those samples are free, by number n. -/
def objectLine (samp depth w n : Nat) (o : Obj) (y : Nat) : List Nat :=
  let eight := decide (o.format = 3 ∨ (o.format = 1 ∧ o.variant = 1))
  let px : Nat → Px := fun x => if heldSampling o = samp then pixelAt o x y else Config.freePixel n x y
  let v := fun (c : Nat) => toDepth depth (if eight then 4 * c else c)
  (List.range w).flatMap (fun x =>
    let p := px x
    match samp with
    | 0 => [v p.2.2.1, v p.2.1, v p.1]
    | 1 => [v p.1, v p.2.1, v p.2.2.1]
    | _ => [v (if x % 2 = 0 then p.1 else (px (x - 1)).2.2.1), v p.2.1])

end Sys2Proof.Machine
end

