-- ==== Sys2Proof/Machine/Flags.lean ====
section
/-! DEFINITION. The flags of the block: event sources, their levels, causes, severities and delivery
(R35, R373–R379), the fault hub's latch (R380–R382) and the Music Box records that raises leave
(R392–R394). `raise` is the one operation by which a sub-cause is raised. -/

namespace Sys2Proof.Machine

open Sys2Proof

/-- Powered time in µs (R9). -/
def now (s : State) : Nat := s.sys.ptime.toNat

/-- The second of powered time (R9). -/
def second (s : State) : Nat := now s / 1000000

/-- The firmware is running (R379). -/
def fwRuns (s : State) : Bool := decide (s.sys.phase = .ready)

/-- The device is held in reset: PORST_N is low or VDD_CORE is below its brown-out threshold (R415). -/
def held (s : State) : Bool := decide (s.sys.phase = .held)

/-- What a device does that is not held in reset (R415); a held one does nothing. -/
def awake (f : State → State) (s : State) : State := if held s then s else f s

/-- Put a message on the record of what leaves the device. -/
def send (o : Output) (s : State) : State := { s with out := o :: s.out }

/-! ### Mailboxes and owners -/

/-- Page p. -/
def box (s : State) (p : Nat) : Mailbox := (tget s.boxes p).getD {}

/-- Unread completions (R32). -/
def cplUnread (m : Mailbox) : Nat := (m.cplTail - m.cplHead).toNat

/-- CPL_STALL: no completion slot is free (R32). -/
def cplStall (m : Mailbox) : Bool := decide (cplUnread m = 511)

/-- The levels of source 195 + p (R35); an inactive partition raises nothing (R374). -/
def levels (m : Mailbox) : BitVec 16 :=
  if m.active then
    BitVec.ofNat 16 (b1 (m.cplIE && decide (m.cplHead ≠ m.cplTail))
      + 2 * b1 (m.ntfIE && decide (m.ntfHead ≠ m.ntfTail))
      + 4 * b1 (m.stallIE && (cplStall m || m.ntfOvf)))
  else 0

/-- The partition whose quota 1 (heads, i = 0) or 2 (ports, i = 1) holds bit b; P0 holds the rest (R66). -/
def holder (s : State) (i b : Nat) : Nat :=
  ((s.parts.find? (fun e => !e.2.held && tb (e.2.quota.getD i 0) b)).map Prod.fst).getD 0

/-- OWNER of an event source (Table 17-1). -/
def evOwner (s : State) (n : Nat) : Nat :=
  if n < 64 then holder s 0 n
  else if n < 96 then
    (if ((tget s.ports (n - 64)).map (fun p => p.mode)).getD 0 = 2 then 0 else holder s 1 (n - 64))
  else if 195 ≤ n ∧ n ≤ 210 then n - 195
  else 0

/-! ### Sources -/

/-- Source 195–210: its causes are levels (R375). -/
def isLevel (n : Nat) : Bool := decide (195 ≤ n ∧ n ≤ 210)

/-- Severity fixed at NOTICE (R379). -/
def sevFixed (n : Nat) : Bool := isLevel n || decide (n = 247)

/-- The sub-causes a source defines (Table 17-1). -/
def subsOf (n : Nat) : BitVec 16 :=
  if n < 64 then 0x000F else if n < 96 then 0x0FFF else if n < 104 then 0x003F
  else if n < 108 then 0x003F else if n < 112 then 0x00FF else if n = 112 then 0x003F
  else if n < 131 then 0x000F else if n < 179 then 0x000F else if n < 195 then 0x0003
  else if n < 211 then 0x0007 else if n < 219 then 0x007F
  else if n = 219 then 0x000F else if n = 220 then 0x0003 else if n = 221 then 0x0007
  else if n = 222 then 0x0003 else if n < 225 then 0x0007 else if n < 227 then 0x0001
  else if n = 227 then 0x0003 else if n = 228 then 0x0007 else if n = 229 then 0x000F
  else if n = 230 then 0x0007 else if n < 233 then 0x0003 else if n = 233 then 0x0007
  else if n < 237 then 0x0003 else if n < 239 then 0x0001 else if n = 239 then 0x000F
  else if n = 240 then 0x000F else if n < 243 then 0x0003 else if n = 243 then 0x0001
  else if n = 244 then 0x0003 else if n < 247 then 0x0001 else if n = 247 then 0x0007
  else if n < 250 then 0x0001 else if n = 250 then 0x0003 else if n = 251 then 0x0007
  else if n = 252 then 0x0077 else if n = 253 then 0xFFFF else if n = 254 then 0x000F
  else 0x0007

/-- Default severity and SEV_CAUSES (Table 17-1, as R379 reads it). -/
def sevDefault (n : Nat) : Nat × BitVec 16 :=
  if 104 ≤ n ∧ n < 108 then (2, 0x0014) else if 108 ≤ n ∧ n < 112 then (2, 0x004E)
  else if 113 ≤ n ∧ n < 129 then (2, 0x000A) else if n = 219 then (2, 0x0006)
  else if n = 227 then (2, 0x0003) else if n = 229 then (2, 0x000E) else if n = 230 then (2, 0x0006)
  else if n = 231 then (2, 0x0002) else if n = 232 then (2, 0x0003) else if n = 233 then (2, 0x0006)
  else if n = 235 then (2, 0x0001) else if n = 236 then (2, 0x0002) else if n = 243 then (2, 0x0001)
  else if n = 244 then (2, 0x0003) else if n = 246 then (3, 0x0001) else if n = 248 then (3, 0x0001)
  else if n = 249 then (3, 0x0001) else if n = 250 then (2, 0x0003) else if n = 251 then (2, 0x0006)
  else (1, subsOf n)

/-- A source at reset (Table 17-2, Table 17-3). -/
def evDefault (n : Nat) : EventSrc :=
  { enable := if isLevel n then 7 else 0, severity := (sevDefault n).1, sevCauses := (sevDefault n).2 }

/-- Source n. -/
def evGet (s : State) (n : Nat) : EventSrc := (tget s.events.sources n).getD (evDefault n)

def evPut (n : Nat) (e : EventSrc) (s : State) : State :=
  { s with events := { s.events with sources := tset s.events.sources n e } }

def setHub (h : Hub) (s : State) : State := { s with events := { s.events with hub := h } }

/-- CAUSE as it reads (R375). -/
def causeOf (s : State) (n : Nat) : BitVec 16 :=
  if isLevel n then levels (box s (n - 195)) else (evGet s n).cause

/-- A source is pending while CAUSE AND ENABLE is not 0 (R375). -/
def isPending (s : State) (n : Nat) : Bool := decide (causeOf s n &&& (evGet s n).enable ≠ 0)

/-- INT_N is asserted while any pending source has INT = 1 (R378); a source not listed has INT = 0. -/
def intAsserted (s : State) : Bool := s.events.sources.any (fun e => e.2.int && isPending s e.1)

/-- A vector of a function. -/
def vecGet (s : State) (fn v : Nat) : Vector := (tget s.events.vectors (fn * 64 + v)).getD {}

def vecPut (fn v : Nat) (e : Vector) (s : State) : State :=
  { s with events := { s.events with vectors := tset s.events.vectors (fn * 64 + v) e } }

/-- The vector is masked, or MSI-X is disabled on the function (R376). -/
def vecHeld (s : State) (fn v : Nat) : Bool :=
  bit (wd (vecGet s fn v).words 3) 0 || !decide (fn ∈ s.events.msixOn)

/-- One message on a vector, held in the pending-bit array while it may not be sent (R376). -/
def message (fn v : Nat) (s : State) : State :=
  if vecHeld s fn v then vecPut fn v { vecGet s fn v with pending := true } s
  else send (.msi fn v) s

/-- A source that has become pending sends one message on its owner's function (R376). -/
def settle (n : Nat) (s : State) : State :=
  let e := evGet s n
  let p := isPending s n
  let s1 := if p != e.wasPending then evPut n { e with wasPending := p } s else s
  if p && !e.wasPending then message (evOwner s n) e.vector.toNat s1 else s1

/-- Put page p back and look at its levels. -/
def setBox (p : Nat) (m : Mailbox) (s : State) : State :=
  settle (195 + p) { s with boxes := tset s.boxes p m }

/-! ### The Music Box (R392–R394) -/

/-- A record to be written: Table 18-3 words 4 and 5 and the payload. -/
structure RecordOf where
  kind : Nat
  src : Nat := 0
  sev : Nat := 0
  part : Nat := 0
  code : Nat := 0
  count : Nat := 0
  unknown : Bool := false
  payload : List Word := []
  deriving DecidableEq, Repr

/-- The words of a record (Table 18-3) at a powered time, with its CRC (R392). -/
def recordWords (s : State) (r : RecordOf) (ptime seq : Nat) (pinned : Bool) : List Word :=
  let ws := [word ptime, word (ptime / 2 ^ 32), s.sys.bootCount, word seq,
      pack [(r.src, 7, 0), (r.sev, 9, 8), (b1 pinned, 10, 10), (b1 r.unknown, 11, 11),
        (r.part, 15, 12), (r.kind, 19, 16)],
      pack [(r.code, 15, 0), (min r.count 65535, 31, 16)]]
    ++ (List.range 8).map (wd r.payload) ++ [0]
  ws ++ [crcWords ws]

/-- The ring slot the next record takes: the one after the highest SEQ (R393). -/
def ringSlot (s : State) : Nat :=
  let best := s.persist.box.foldl
    (fun (b : Option (Nat × Nat)) e =>
      if e.1 < 64 ∨ !e.2.crcGood then b
      else match b with
        | none => some (e.1, (wd e.2.words 3).toNat)
        | some (k, q) => if q < (wd e.2.words 3).toNat then some (e.1, (wd e.2.words 3).toNat) else some (k, q))
    none
  match best with
  | none => 64
  | some (k, _) => if k = 12287 then 64 else k + 1

def setPersist (x : Persist) (s : State) : State := { s with persist := x }

/-! ### Rows of the shadow array (R385, R386) -/

/-- Bytes of a row: a record has 64, a page 256 (R385). -/
def rowSize (r : Nat) : Nat := if 1024 ≤ r then 64 else 256

/-- The 256 bytes of a page. -/
def pageBytes (x : Page) : List Byte := memRead 0 x.bytes 0 256

/-- Bits [63:32] of a row's tag: CRC-32 of the row's data and its store number (R385), the number as the word after the
data (DESIGN CHOICE, log entry 139). -/
def rowTag (data : List Byte) (store : Nat) : Word := crc32 (data ++ wordBytes (word store))

def pageTag (x : Page) : Word := rowTag (pageBytes x) x.store

def boxTag (x : BoxRec) : Word := rowTag (bytesOf x.words) x.store

/-- Copy one row of the image to the medium under store n, with its tag: it is no longer dirty. -/
def copyRow (n r : Nat) (s : State) : State :=
  let p := s.persist
  if 1024 ≤ r then
    match tget p.box (r - 1024) with
    | some x =>
      let y := { x with dirty := false, store := n }
      setPersist { p with
        box := tset p.box (r - 1024) y, boxMedium := tset p.boxMedium (r - 1024) { y with tag := boxTag y } } s
    | none => s
  else
    match tget p.pages r with
    | some x =>
      let y := { x with state := 0, store := n }
      setPersist { p with pages := tset p.pages r y, medium := tset p.medium r { y with tag := pageTag y } } s
    | none => s

/-- The rows of the running store, up to a number of them, have been copied. -/
def copyTo (k : Nat) (s : State) : State :=
  match s.persist.storing with
  | none => s
  | some n =>
    let s1 := ((s.persist.storeRows.take k).drop s.persist.storeCopied).foldl (fun s r => copyRow n r s) s
    setPersist { s1.persist with storeCopied := max s.persist.storeCopied (min k s.persist.storeRows.length) } s1

/-- How many rows the running store has copied by now: rows are written one after another from its start. -/
def rowsDone (s : State) : Nat :=
  let p := s.persist
  ((List.range (p.storeRows.length + 1)).filter (fun k =>
    decide (((p.storeRows.take k).map rowSize).sum * 100 ≤ (now s - p.storeAt) * 65536))).length - 1

/-- Bring the running store up to now, before the image changes or is looked at. -/
def storeAdvance (s : State) : State := copyTo (rowsDone s) s

/-- Write a record into a slot of the image (R386: the row is dirty). -/
def boxPut (slot : Nat) (r : RecordOf) (pinned : Bool) (s0 : State) : State :=
  let s := storeAdvance s0
  { s with persist := { s.persist with
      box := tset s.persist.box slot { words := recordWords s r (now s) s.persist.nextSeq pinned }
      nextSeq := s.persist.nextSeq + 1 } }

/-- Append to the ring; true when a record was replaced and that is to be reported: OLDEST_REPLACED at
most once a second (R393). -/
def boxAppend (r : RecordOf) (s : State) : State × Bool :=
  let slot := ringSlot s
  let hit := (tget s.persist.box slot).isSome && decide (s.persist.replacedSecond ≠ some (second s))
  let s1 := boxPut slot r false s
  (if hit then { s1 with persist := { s1.persist with replacedSecond := some (second s) } } else s1, hit)

/-! ### Stores (R386, R387) -/

/-- The highest store number found anywhere in the array (R386). -/
def topStore (s : State) : Nat :=
  max s.persist.markStore
    (max (s.persist.medium.foldl (fun m e => max m e.2.store) 0)
      (s.persist.boxMedium.foldl (fun m e => max m e.2.store) 0))

/-- The dirty rows, Music Box rows first in ascending SEQ, then pages (R386). -/
def dirtyRows (s : State) : List Nat :=
  let bs := sortBy (fun a b => decide ((wd a.2.words 3).toNat ≤ (wd b.2.words 3).toNat))
    (s.persist.box.filter (fun e => e.2.dirty))
  bs.map (fun e => 1024 + e.1)
    ++ (s.persist.pages.filter (fun e => decide (e.2.state = 1))).map Prod.fst

/-- A cause of a store: it starts, or a second store follows the running one (R387). -/
def startStore (s : State) : State :=
  match s.persist.storing with
  | none => { s with persist := { s.persist with
      storing := some ((topStore s + 1) % 2 ^ 32), storeRows := dirtyRows s, storeCopied := 0, storeAt := now s } }
  | some _ => { s with persist := { s.persist with storeAgain := true } }

/-! ### Raising (R375, R379, R380) -/

/-- Set a CAUSE bit and deliver. -/
def setCause (n sub : Nat) (s : State) : State :=
  settle n (evPut n { evGet s n with cause := (evGet s n).cause ||| BitVec.ofNat 16 (2 ^ sub) } s)

/-- The severity a sub-cause acts with (R379). -/
def sevOf (s : State) (n sub : Nat) : Nat :=
  if sevFixed n then 1 else if (evGet s n).sevCauses.getLsbD sub then (evGet s n).severity else 1

/-- The KIND 1 record of a raise (Table 18-4). -/
def eventRecord (s : State) (n sub sev count : Nat) : RecordOf :=
  { kind := 1, src := n, sev := sev, part := evOwner s n, code := sub, count := count
    payload := [word (causeOf s n).toNat] }

/-- A CRITICAL sub-cause reaches the fault hub (R380, R394); `more` raises a further sub-cause. A pinned record starts a
store; when it takes the last of the 64 slots, PINNED_FULL is raised, and later ones go to the ring, which starts no
store. -/
def critical (more : Nat → Nat → State → State) (n sub : Nat) (s : State) : State :=
  let h := s.events.hub
  let h1 := { h with fault := true, lastCritical := now s
                     entries := if h.fault then h.entries else sat 0xFFFFFFFF h.entries 1 }
  let s1 :=
    if h.firstValid then
      setCause 247 2 (setHub { h1 with overflow := true, overflowCount := sat 65535 h.overflowCount 1 } s)
    else
      let s2 := setHub { h1 with firstValid := true, firstSource := n, firstSub := sub
                                 firstPtime := s.sys.ptime } s
      match (List.range 64).find? (fun k => (tget s2.persist.box k).isNone) with
      | some k =>
        let s3 := startStore (boxPut k (eventRecord s2 n sub 3 0) true s2)
        if (List.range 64).all (fun k => (tget s3.persist.box k).isSome) then more 230 2 s3 else s3
      | none =>
        let (s3, hit) := boxAppend (eventRecord s2 n sub 3 0) s2
        if hit then more 230 0 s3 else s3
  if h.fault then s1 else setCause 247 0 s1

/-- The firmware's record of a DEGRADE or CRITICAL raise: at most one per source per second, later
raises are folded (R379). -/
def fwRecord (more : Nat → Nat → State → State) (n sub sev : Nat) (s : State) : State :=
  let e := evGet s n
  let recent := match e.recordedAt with
    | some t => decide (now s < t + 1000000) || decide (0 < e.folded)
    | none => false
  if recent then evPut n { e with folded := e.folded + 1, lastSub := sub } s
  else
    let (s1, hit) := boxAppend (eventRecord s n sub sev 0) s
    let s2 := evPut n { e with recordedAt := some (now s), folded := 0, lastSub := sub } s1
    if hit then more 230 0 s2 else s2

/-- Raise a sub-cause; the first argument bounds the raises that a raise can lead to. -/
def raiseN : Nat → Nat → Nat → State → State
  | 0, _, _, s => s
  | k + 1, n, sub, s =>
    let sev := sevOf s n sub
    if sev = 0 then s
    else
      let s1 := setCause n sub s
      let s2 := if sev = 3 then critical (raiseN k) n sub s1 else s1
      -- the fault hub has written the record of a raise it latched (R394): it is the source's record of this second
      if sev = 3 && !s.events.hub.firstValid then evPut n { evGet s2 n with recordedAt := some (now s), lastSub := sub } s2
      else if 2 ≤ sev && fwRuns s then fwRecord (raiseN k) n sub sev s2 else s2

/-- Raise sub-cause `sub` on source n (R375, R379, R380): a raise can lead to OLDEST_REPLACED or
PINNED_FULL on source 230, and that to one more, each at most once in the same instant. A device held in reset raises
nothing (R415). -/
def raise (n sub : Nat) (s : State) : State := awake (raiseN 4 n sub) s

/-- Append a record to the ring (R393). -/
def record (r : RecordOf) (s : State) : State :=
  let (s1, hit) := boxAppend r s
  if hit then raise 230 0 s1 else s1

/-- A source changes owner (R374): its causes, enables, vector and INT are cleared. -/
def changeOwner (n : Nat) (s : State) : State :=
  settle n (evPut n { evGet s n with
    cause := 0, enable := 0, vector := 0, int := false, wasPending := false } s)

/-- FAULT_N is asserted while the fault state holds (R380, R382). -/
def faultAsserted (s : State) : Bool := s.events.hub.fault

/-- QUIET_LEFT_MS (Table 17-3): the time to the exit, in whole ms rounded up, or 0. -/
def quietLeft (s : State) : Nat :=
  if s.events.hub.fault then
    cdiv (s.events.hub.lastCritical + s.events.hub.quietMs * 1000 - now s) 1000
  else 0

end Sys2Proof.Machine
end

