-- ==== Sys2Proof/Machine/Operands.lean ====
section
/-! DEFINITION. The operands of a mailbox command: its body words, the status it ends with (Table 2-9b),
the handles it names (R10, R11) and the host buffers it reads and writes (R37). -/

namespace Sys2Proof.Machine

open Sys2Proof

/-- Table 2-9b. -/
inductive Status where
  | ok | okReplayed | okPartial | opcode | length | tagConflict | notOwner | quota | busy | state
  | range | notErased | inconsistent | admission | noSuchHandle | unsupported | divergent
  | indeterminate | hostDma
  deriving DecidableEq, Repr

/-- The code of a status (Table 2-9b). -/
def statusCode : Status → Nat
  | .ok => 0x0000 | .okReplayed => 0x0001 | .okPartial => 0x0002 | .opcode => 0x0100
  | .length => 0x0101 | .tagConflict => 0x0102 | .notOwner => 0x0103 | .quota => 0x0104
  | .busy => 0x0105 | .state => 0x0106 | .range => 0x0107 | .notErased => 0x0108
  | .inconsistent => 0x0109 | .admission => 0x010A | .noSuchHandle => 0x010B
  | .unsupported => 0x010C | .divergent => 0x010D | .indeterminate => 0x010E | .hostDma => 0x010F

/-- A command as its own section sees it: the page it came from (R24), its tag and epoch word, and its
body, inline or fetched, with the body's length in bytes and whether it was fetched. -/
structure Ctx where
  page : Nat
  tag : BitVec 16 := 0
  epoch : Word := 0
  body : List Word := []
  len : Nat := 0
  bulk : Bool := false
  deriving DecidableEq, Repr

/-- Body word i (R60: numbered within the body). -/
def bw (c : Ctx) (i : Nat) : Word := wd c.body i

/-- Field [hi:lo] of body word i. -/
def bf (c : Ctx) (i hi lo : Nat) : Nat := bits (bw c i) hi lo

/-- Bit k of body word i. -/
def bb (c : Ctx) (i k : Nat) : Bool := bit (bw c i) k

/-- Body word i as a number. -/
def bn (c : Ctx) (i : Nat) : Nat := (bw c i).toNat

/-- A 64-bit body field, low word first. -/
def bn64 (c : Ctx) (i : Nat) : Nat := wide (bw c i) (bw c (i + 1))

/-- How a command ends: executed, with its status, results and the next state; refused, with the state
as it was (R54); refused because a result write failed, with what had been written to host memory (R54);
or waiting for something that completes it later (R31). -/
inductive CmdOut where
  | done (st : Status) (res : List Word) (s : State)
  | fail (st : Status) (res : List Word)
  | dma (m : Mem)
  | wait (w : Waiting) (s : State)

/-- Refused with result words 0. -/
def refuse (st : Status) : CmdOut := .fail st []

/-! ### Handles (R10, R11) -/

def hPart (h : Handle) : Nat := h / 2 ^ 28 % 16

def hType (h : Handle) : Nat := h / 2 ^ 24 % 16

def hIndex (h : Handle) : Nat := h % 2 ^ 24

/-- The handle of partition, type and index (Table 0-3). -/
def handleOf (part type index : Nat) : Handle :=
  part % 16 * 2 ^ 28 + type % 16 * 2 ^ 24 + index % 2 ^ 24

/-- The handles that staged items name. -/
def stagedHandles (m : Mailbox) : List Handle :=
  m.staged.flatMap (fun i => match i with
    | .route _ (.add r _) => [r]
    | .route _ (.modify r _ _) => [r]
    | .route _ (.delete r _) => [r]
    | .sink _ (.encoder c) => [c]
    | .stream h _ => [h]
    | .proc h _ => [h]
    | .ladder t _ => [t]
    | _ => [])

/-- The sources that audio channels name or hear (R250, R263), with those of a ramp and of a staged change. -/
def audioHandles (a : Audio) : List Handle :=
  a.outputs.flatMap (fun o => o.2.chans.flatMap (fun c =>
      c.2.cfg.src :: [c.2.heard.map Prod.fst, c.2.ramp.map (fun r => r.out.src), c.2.ramp.bind (fun r => r.heard.map Prod.fst)].filterMap id)
    ++ o.2.pending.flatMap (fun p => p.2.1.map (fun c => c.src)))

/-- Every handle that names an object of the device, or that an object, a grant, a queue or a staged item still
names (R11). -/
def usedHandles (s : State) : List Handle :=
  s.sources.map Prod.fst ++ s.routes.map Prod.fst ++ s.procs.map Prod.fst ++ s.shifts.map Prod.fst
    ++ s.decodes.map Prod.fst ++ s.engines.jobs.map Prod.fst ++ s.eth.entries.map Prod.fst
    ++ s.pool.streams.map Prod.fst ++ s.pool.encodes.map Prod.fst ++ s.uploads.map Prod.fst
    ++ s.objects.map (fun e => e.2.source) ++ s.grants.map (fun g => g.source)
    ++ s.routes.map (fun e => e.2.source) ++ s.procs.map (fun e => e.2.input)
    ++ s.pool.segments.map (fun g => g.stream) ++ s.pool.manifests.map (fun m => m.stream)
    ++ s.domino.exports.map (fun e => e.2.source) ++ s.time.list.map (fun e => e.2.source)
    ++ s.boxes.flatMap (fun e => stagedHandles e.2)
    ++ s.decodes.map (fun e => e.2.input) ++ audioHandles s.audio
    ++ s.dests.flatMap (fun e => [e.2.active, e.2.incoming].filterMap id ++ e.2.ending.map Prod.fst)
    ++ s.eth.flows.flatMap (fun e => e.2.sent) ++ s.pool.encodes.map (fun e => e.2.entry)
    ++ s.pool.streams.flatMap (fun e => [e.2.seg.map (fun g => g.source), e.2.finishing.map Prod.fst].filterMap id)

/-- A new handle: the device assigns the index (R10), the next one in order whose handle nothing names (R11). -/
def newHandle (part type : Nat) (s : State) : Handle × State :=
  let i := (tget s.nextIndex (part * 16 + type)).getD 1
  let used := usedHandles s
  let k := ((List.range (used.length + 1)).find? (fun k => decide (handleOf part type (i + k) ∉ used))).getD 0
  (handleOf part type (i + k), { s with nextIndex := tset s.nextIndex (part * 16 + type) (i + k + 1) })

/-- The grant of a source to a partition (R69). -/
def grantOf (s : State) (src : Handle) (p : Nat) : Option Grant :=
  s.grants.find? (fun g => decide (g.source = src ∧ g.grantee = p))

/-- A source that the partition owns or holds a grant for (R69, R141): P0 is no exception. -/
def mayRead (s : State) (p : Nat) (h : Handle) : Bool := decide (hPart h = p) || (grantOf s h p).isSome

/-- The first three steps of R11, for a field that accepts the types listed. -/
def handleFault (page : Nat) (s : State) (h : Handle) (types : List Nat) : Option Status :=
  if hType h = 0 ∨ 10 ≤ hType h then some .noSuchHandle
  else if hType h ∉ types then some .range
  else if hPart h ≠ page ∧ page ≠ 0 ∧ (grantOf s h page).isNone then some .notOwner
  else none

/-- A source that is live: it exists and has not been deleted. -/
def liveSource (s : State) (h : Handle) : Option Source :=
  match tget s.sources h with
  | some src => if src.deleted then none else some src
  | none => none

/-- A handle of one type, resolved by `find` (R11, four steps). -/
def withHandle {α : Type} (page : Nat) (s : State) (h : Handle) (type : Nat) (find : Option α)
    (k : α → CmdOut) : CmdOut :=
  match handleFault page s h [type] with
  | some e => refuse e
  | none => match find with
    | none => refuse .noSuchHandle
    | some a => k a

/-- A source handle (R11). -/
def withSource (page : Nat) (s : State) (h : Handle) (k : Source → CmdOut) : CmdOut :=
  withHandle page s h 1 (liveSource s h) k

/-- A source that a job of the issuer's partition is to read: R141 and R161 ask P0 for a grant as well, which is step 3 of
R11 here. -/
def withReadable (page : Nat) (s : State) (h : Handle) (k : Source → CmdOut) : CmdOut :=
  if hType h = 1 ∧ mayRead s page h = false then refuse .notOwner else withSource page s h k

/-- A command on a source that only its owner or P0 may give: a grant does not reach it (R69). -/
def withOwnSource (page : Nat) (s : State) (h : Handle) (k : Source → CmdOut) : CmdOut :=
  withSource page s h fun src => if page ≠ 0 ∧ src.owner ≠ page then refuse .notOwner else k src

/-! ### Host memory (R37) -/

/-- The byte of host memory at an address; memory nothing has written reads 0 (DESIGN CHOICE, log entry 6). -/
def hostByte (s : State) (a : Nat) : Byte := memGet 0 s.hostMem a

/-- A PCIe error meets an access to this byte. -/
def dmaBad (s : State) (a : Nat) : Bool :=
  !s.sys.pcieUp || s.dmaFaults.any (fun r => decide (r.1 ≤ a ∧ a < r.1 + r.2))

/-- How many bytes from a address up can be reached before a PCIe error, at most n. -/
def dmaReach (s : State) (a n : Nat) : Nat :=
  ((List.range n).takeWhile (fun i => !dmaBad s (a + i))).length

/-- Read a block from host memory: none on a PCIe error (R37). -/
def hostRead (s : State) (a n : Nat) : Option (List Byte) :=
  if dmaReach s a n < n then none else some (memRead 0 s.hostMem a n)

/-- Write a block to host memory and go on; on a PCIe error the command ends with ERR_HOST_DMA, and a
part of the block the manual does not fix may have been written (R54). -/
def hostWrite (s : State) (a : Nat) (bs : List Byte) (k : State → CmdOut) : CmdOut :=
  if dmaReach s a bs.length < bs.length then
    .dma (memWrite 0 s.hostMem a (bs.take (Config.freeNat s.free % (dmaReach s a bs.length + 1))))
  else k { s with hostMem := memWrite 0 s.hostMem a bs }

/-! ### Free values -/

/-- The next free word, and the state in which it has been used. -/
def fresh (s : State) : Word × State := (Config.freeWord s.free, { s with free := s.free + 1 })

end Sys2Proof.Machine
end

