-- ==== Sys2Proof/Machine/Ops.lean ====
section
/-! DEFINITION. The operations of a mailbox page that every family uses: completions, notifications and
staged sets (R32, R33, R39–R41, R46, R52). The block has no exception entry: what it raises are event
sub-causes (`raise`, Flags.lean) and notifications. -/

namespace Sys2Proof.Machine

open Sys2Proof

/-- Change page p. -/
def modBox (p : Nat) (f : Mailbox → Mailbox) (s : State) : State := setBox p (f (box s p)) s

/-- Post a completion in slot CPL_TAIL (R32, R39). -/
def postCpl (p : Nat) (ws : List Word) (s : State) : State :=
  modBox p (fun m => { m with
    cplRing := tset m.cplRing m.cplTail.toNat ws, cplTail := m.cplTail + 1 }) s

/-- The words of a notification (Table 2-7). -/
def ntfWords (s : State) (m : Mailbox) (type : Nat) (data : List Word) : List Word :=
  [pack [(type, 15, 0), (m.ntfSeq.toNat, 31, 16)], m.epochStaged, word (now s), word (now s / 2 ^ 32),
    wd data 0, wd data 1, wd data 2, wd data 3]

/-- A notification is lost (R33): its SEQ is used and it is counted. -/
def lostNtf (m : Mailbox) : Mailbox :=
  { m with ntfSeq := m.ntfSeq + 1, ntfOvf := true, ntfLost := sat 65535 m.ntfLost 1 }

/-- Post a notification on page p (R33, R40): none falls due for a page whose partition is not active;
with 511 unread, the new one is lost and counted. -/
def postNtf (p type : Nat) (data : List Word) (s : State) : State :=
  let m := box s p
  if !m.active then s
  else if (m.ntfTail - m.ntfHead).toNat = 511 then
    setBox p (lostNtf m) s
  else
    setBox p { m with
      ntfSeq := m.ntfSeq + 1
      ntfRing := tset m.ntfRing m.ntfTail.toNat (ntfWords s m type data)
      ntfTail := m.ntfTail + 1 } s

/-- Post a notification on several pages, each once. -/
def postAll (ps : List Nat) (type : Nat) (data : List Word) (s : State) : State :=
  ps.dedup.foldl (fun s p => postNtf p type data s) s

/-- Stage items on the issuer's page (R46): a staged set holds up to 4,096 items. -/
def stage (c : Ctx) (items : List Staged) (res : List Word) (s : State) : CmdOut :=
  let m := box s c.page
  if 4096 < m.staged.length + items.length then refuse .quota
  else .done .ok res (setBox c.page { m with staged := m.staged ++ items } s)

/-- Serial-number order of epochs (R47): e2 is later than e1. -/
def later (e2 e1 : Word) : Bool :=
  decide (1 ≤ (e2 - e1).toNat ∧ (e2 - e1).toNat ≤ 2147483647)

/-- The mailbox's last epoch at a destination (R52). -/
def lastApplied (m : Mailbox) (k : DestKey) : Option Word :=
  (m.applied.find? (fun e => decide (e.1 = k))).map Prod.snd

/-- The destinations outstanding for a mailbox's commits (R52). -/
def outstandingKeys (m : Mailbox) : List DestKey := (m.outstanding.flatMap (fun o => o.waiting)).dedup

/-- EPOCH_APPLIED_MIN (R52). -/
def appliedMin (m : Mailbox) : Word :=
  match outstandingKeys m with
  | [] => m.epochStaged
  | k :: ks =>
    (k :: ks).foldl (fun acc k =>
      match lastApplied m k with
      | none => 0
      | some e => if acc = 0 then 0 else if later acc e then e else acc)
      ((lastApplied m k).getD 0)

/-- Destination `k` has applied, or resolved (R225), epoch `e` of page p: outstanding commits up to that
epoch no longer wait for it, and those that wait for nothing post EPOCH_APPLIED (R52). -/
def applied (p : Nat) (k : DestKey) (e : Word) (s : State) : State :=
  let m := box s p
  let outs := m.outstanding.map (fun o =>
    if later o.epoch e then o else { o with waiting := o.waiting.filter (fun x => decide (x ≠ k)) })
  let done := outs.filter (fun o => o.waiting.isEmpty)
  let s1 := setBox p { m with
    outstanding := outs.filter (fun o => !o.waiting.isEmpty)
    applied := (k, e) :: m.applied.filter (fun x => decide (x.1 ≠ k)) } s
  done.foldl (fun s o => postNtf p 0x0101 [o.epoch, word o.total] s) s1

/-- The partitions that are active, ascending. -/
def activeParts (s : State) : List Nat := (List.range 16).filter (fun p => (box s p).active)

end Sys2Proof.Machine
end

