-- ==== Sys2Proof/Machine/Pipeline.lean ====
section
/-! DEFINITION. How Puppeteer executes one command (R31, R32, R36–R43, R72): the checks of R38 in their
order, the tag window, the completion and the change record. A command's own section is its `OpSpec`. -/

namespace Sys2Proof.Machine

open Sys2Proof

/-- What a command's section fixes: its opcode, whether it is restricted to P0, its body lengths (R37),
its reserved body bits (R5), whether the epoch guard of step 7 applies (R38; not where its section lists the statuses of
steps 1–4 alone), what body words that BODY_LEN leaves out read as, whether it leaves a change record and the first handle it names (R72), the
longest time it may take in µs (R31), and its own checks and effect. -/
structure OpSpec where
  op : Nat
  p0 : Bool := false
  maxLen : Nat := 0
  minLen : Nat := 0
  bulkOnly : Bool := false
  rsv : List Word → Bool := fun _ => true
  guard : Bool := true
  dflt : List Word := []
  log : List Word → Bool := fun _ => false
  named : List Word → List Word → Nat := fun _ _ => 0
  bound : Nat := 10000
  run : Ctx → State → CmdOut

/-- Every body word keeps to the bits its field table defines; words beyond the table are data. -/
def within (masks : List Word) (body : List Word) : Bool :=
  (List.range body.length).all (fun i => wd body i &&& ~~~ (masks.getD i 0xFFFFFFFF) == 0)

/-- The first handle named is body word i. -/
def nameWord (i : Nat) (body _res : List Word) : Nat := (wd body i).toNat

/-- The handle a command made, in result word 2: the change record of a command whose body names no handle gives this one
as the first handle named (DESIGN CHOICE, log entry 141). -/
def nameMade (_body res : List Word) : Nat := (wd res 0).toNat

/-- The command changes state whenever it completes (R72). -/
def always (_ : List Word) : Bool := true

/-- The sixteen words of a descriptor (Table 2-5). -/
def descWords (op : Nat) (d : Desc) : List Word :=
  [pack [(op, 15, 0), (d.tag.toNat, 31, 16)],
    pack [(d.bodyLen.toNat, 15, 0), (b1 d.bulk, 16, 16), (d.rsvd1.toNat, 31, 17)], d.epoch, d.rsvd3]
    ++ (List.range 12).map (wd d.body)

/-- Sixteen words as an opcode and a descriptor. -/
def descOf (ws : List Word) : Nat × Desc :=
  (bits (wd ws 0) 15 0,
    { tag := (wd ws 0).extractLsb' 16 16, bodyLen := (wd ws 1).extractLsb' 0 16, bulk := bit (wd ws 1) 16
      rsvd1 := (wd ws 1).extractLsb' 17 15, epoch := wd ws 2, rsvd3 := wd ws 3
      body := (List.range 12).map (fun i => wd ws (4 + i)) })

/-- The inline bytes from byte n on are all 0 (R36). -/
def restZero (d : Desc) (n : Nat) : Bool :=
  ((bytesOf ((List.range 12).map (wd d.body))).drop n).all (· == 0)

/-- Host address and length of the BULK block (R37). -/
def bulkAddr (d : Desc) : Nat := wide (wd d.body 0) (wd d.body 1)

def bulkLen (d : Desc) : Nat := (wd d.body 2).toNat

/-- The BULK fields pass the checks of step 4 (R37, R38); an unaligned address fails there (DESIGN CHOICE, log entry
96). A command takes BULK where its body may be longer than the 48 inline bytes, or where its section asks for it; any
other that comes with BULK fails here (DESIGN CHOICE, log entry 140). -/
def bulkGood (sp : OpSpec) (d : Desc) : Bool :=
  (decide (48 < sp.maxLen) || sp.bulkOnly) && decide (d.bodyLen.toNat = 12)
    && decide (bulkAddr d % 4 = 0 ∧ bulkLen d % 4 = 0 ∧ 4 ≤ bulkLen d ∧ bulkLen d ≤ sp.maxLen)

/-- The BULK fetch when the descriptor is taken (R38): none where it is not made, some none where it fails.
Inline bytes beyond the BULK fields do not prevent it (DESIGN CHOICE, log entry 97). -/
def fetchBulk (sp : Option OpSpec) (d : Desc) (s : State) : Option (Option (List Byte)) :=
  match sp with
  | none => none
  | some sp => if d.bulk && bulkGood sp d then some (hostRead s (bulkAddr d) (bulkLen d)) else none

/-- The digest of R41: the first 128 bits of SHA-384 over the descriptor with tag 0 and the fetched block. -/
def digestOf (op : Nat) (d : Desc) (block : Option (Option (List Byte))) : BitVec 128 :=
  (Config.sha384 (bytesOf (descWords op { d with tag := 0 }) ++ (block.getD none).getD [])).extractLsb' 256 128

/-- The body as its section reads it: a word that lies wholly beyond the body's length has its table's default,
0 where the table gives none (log entry 89). -/
def fillBody (dflt : List Word) (len : Nat) (ws : List Word) : List Word :=
  if dflt.isEmpty then ws
  else (List.range (max ws.length dflt.length)).map (fun i => if len ≤ 4 * i then wd dflt i else wd ws i)

/-- The body of a descriptor and its length in bytes: inline, or the fetched block (R36, R37). -/
def bodyWords (sp : Option OpSpec) (d : Desc) (block : Option (Option (List Byte))) : List Word × Nat :=
  let bytes := (block.getD none).getD []
  let len := if d.bulk then bytes.length else d.bodyLen.toNat
  let ws := if d.bulk then wordsOf bytes else (List.range 12).map (wd d.body)
  (fillBody ((sp.map (fun sp => sp.dflt)).getD []) len ws, len)

/-- Steps 2–7 of R38: the first that fails, with its step number. Step 7 is left out for a command whose rule gives it
the statuses of steps 1–4 alone (DEDUCED, log entry 103). -/
def checkDesc (p : Nat) (op : Nat) (sp : Option OpSpec) (d : Desc) (block : Option (Option (List Byte)))
    (body : List Word) (m : Mailbox) : Option (Status × Nat) :=
  if d.rsvd1 ≠ 0 ∨ d.rsvd3 ≠ 0 then some (.range, 2)
  else match sp with
    | none => some (.opcode, 3)
    | some sp =>
      if sp.p0 ∧ p ≠ 0 then some (.notOwner, 3)
      else if !restZero d (if d.bulk then 12 else d.bodyLen.toNat) then some (.length, 4)
      else if d.bulk ∧ !bulkGood sp d then some (.length, 4)
      else if !d.bulk ∧ (sp.bulkOnly ∨ min 48 sp.maxLen < d.bodyLen.toNat ∨ d.bodyLen.toNat < sp.minLen)
        then some (.length, 4)
      else if block = some none then some (.hostDma, 5)
      else if !sp.rsv body then some (.range, 6)
      else if sp.guard ∧ op ≠ 0x0110 ∧ d.epoch ≠ 0 ∧ d.epoch ≠ m.epochStaged then some (.state, 7)
      else none

/-- The eight words of a completion (Table 2-6). -/
def cplWords (st : Status) (tag : BitVec 16) (epoch : Word) (res : List Word) : List Word :=
  [pack [(statusCode st, 15, 0), (tag.toNat, 31, 16)], epoch] ++ (List.range 6).map (wd res)

/-- A command enters the window; the oldest of 64 leaves (R41). -/
def pushWindow (w : List WinEntry) (e : WinEntry) : List WinEntry :=
  let w := w ++ [e]
  if 64 < w.length then w.drop 1 else w

/-- The change record (R72, Table 18-4), written by the firmware. -/
def changeRecord (p op : Nat) (tag : BitVec 16) (st : Status) (epoch : Word) (h : Nat) (s : State) : State :=
  if fwRuns s then
    record { kind := 2, part := p, code := op
             payload := [pack [(tag.toNat, 15, 0), (statusCode st, 31, 16)], epoch, word h] } s
  else s

/-- Post the completion of a command that passed tag lookup: into the window unless refused at step 4 or
5 (R41), into the completion ring (R39), and into the change log where its section says so (R72). -/
def finish (p op : Nat) (tag : BitVec 16) (digest : BitVec 128) (enters logs : Bool) (h : Nat)
    (st : Status) (res : List Word) (s : State) : State :=
  let ws := cplWords st tag (box s p).epochStaged res
  let s1 := if enters then
      modBox p (fun m => { m with window := pushWindow m.window ⟨tag, digest, ws⟩ }) s else s
  let s2 := postCpl p ws s1
  let s3 := if st = .hostDma then raise 112 5 s2 else s2
  if logs && (decide (st = .ok) || decide (st = .okPartial)) then
    changeRecord p op tag st (wd ws 1) h s3 else s3

/-- In ROM recovery only IDENTIFY, GET_VERSIONS, RESET with scope DEVICE and the firmware class are
accepted (R421). -/
def romAccepts (op : Nat) (body : List Word) : Bool :=
  decide (op = 0x0100 ∨ op = 0x0102 ∨ (op = 0x0103 ∧ bits (wd body 0) 1 0 = 3) ∨ op / 256 = 0x13)

/-- Run a command that passed R38 steps 1–7. -/
def runBody (sp : OpSpec) (p : Nat) (d : Desc) (digest : BitVec 128) (c : Ctx) (s : State) : State :=
  let out := if s.sys.phase = .romRecovery ∧ !romAccepts sp.op c.body then refuse .state else sp.run c s
  let end_ := finish p sp.op d.tag digest true (sp.log c.body)
  match out with
  | .done st res s1 => end_ (sp.named c.body res) st res s1
  | .fail st res => end_ 0 st res s
  | .dma m => end_ 0 .hostDma [] { s with hostMem := m, free := s.free + 1 }
  | .wait w s1 =>
    let e : Executing := {
      page := p, opcode := sp.op, tag := d.tag, epoch := d.epoch, digest := digest
      firstHandle := sp.named c.body [], takenAt := now s
      bound := sp.bound, waits := w }
    { s1 with exec := some e }

/-- A repeat answered from the window (R42). -/
def replay (p : Nat) (tag : BitVec 16) (digest : BitVec 128) (dmaFailed : Bool) (e : WinEntry)
    (s : State) : State :=
  let ep := (box s p).epochStaged
  if dmaFailed then raise 112 5 (postCpl p (cplWords .hostDma tag ep []) s)
  else if e.digest = digest then
    let st := bits (wd e.completion 0) 15 0
    if st = 0 ∨ st = 2 then
      postCpl p (pack [(1, 15, 0), (tag.toNat, 31, 16)] :: e.completion.drop 1) s
    else postCpl p e.completion s
  else postCpl p (cplWords .tagConflict tag ep []) s

/-- Execute a descriptor of page p from tag lookup to completion (R38). -/
def runCommand (sp : Option OpSpec) (p op : Nat) (d : Desc) (s : State) : State :=
  let block := fetchBulk sp d s
  let dg := digestOf op d block
  let s1 := modBox p (fun m => { m with tagLast := d.tag }) { s with lastServed := p }
  let m := box s1 p
  match m.window.find? (fun e => decide (e.tag = d.tag)) with
  | some e => replay p d.tag dg (decide (block = some none)) e s1
  | none =>
    let (body, len) := bodyWords sp d block
    match checkDesc p op sp d block body m with
    | some (st, step) => finish p op d.tag dg (decide (step ≠ 4 ∧ step ≠ 5)) false 0 st [] s1
    | none => match sp with
      | none => s1
      | some sp => runBody sp p d dg
          { page := p, tag := d.tag, epoch := d.epoch, body := body, len := len, bulk := d.bulk } s1

/-- Page p may have a command taken: its partition exists, it is READY, no command executes, and a
completion slot is free (R29, R31, R32). -/
def canTake (s : State) (p : Nat) : Bool :=
  let m := box s p
  m.active && m.ready && s.exec.isNone && !cplStall m && !m.flrWaits

/-- The meaning of a row that is a mailbox opcode: Puppeteer takes this descriptor from page p and
executes it; nothing is taken while page p may have none taken (R29, R31, R32). -/
def issue (sp : OpSpec) (page : Fin 16) (d : Desc) (s : State) : State :=
  if canTake s page.val then runCommand (some sp) page.val sp.op d s else s

/-- Ring pointers to 0: unread completions and untaken commands are discarded (R44). -/
def zeroPointers (p : Nat) (s : State) : State :=
  modBox p (fun m => { m with
    cmdHead := 0, cmdTail := 0, cplHead := 0, cplTail := 0, ntfHead := 0, ntfTail := 0 }) s

/-- Complete the command Puppeteer has been executing (R31), and a function-level reset that waited for
it (R44). -/
def complete (e : Executing) (logs : Bool) (h : Nat) (st : Status) (res : List Word) (s : State) : State :=
  let s1 := finish e.page e.opcode e.tag e.digest true logs h st res { s with exec := none }
  if (box s1 e.page).flrWaits then
    modBox e.page (fun m => { m with flrWaits := false }) (zeroPointers e.page s1)
  else s1

end Sys2Proof.Machine
end

