-- ==== Sys2Proof/Machine/Toybox.lean ====
section
/-! DEFINITION. The frame store's own operations: rates and footprints (R8, R80–R83, R108–R113), rings
and slots, references, closing and abandoning an object, and the charge of pages (R114–R121). -/

namespace Sys2Proof.Machine

open Sys2Proof

/-! ### Rates, formats and footprints -/

/-- 1,001 times the rate of a rate code (Table 4-3, R8); 0 for a reserved code. -/
def rate1001 (code : Nat) : Nat :=
  [0, 24000, 24024, 25025, 30000, 30030, 50050, 60000, 60060, 100100, 120000, 120120].getD code 0

/-- The period of a rate code in µs. -/
def periodUs (code : Nat) : Frac := ⟨1001 * 1000000, max 1 (rate1001 code)⟩

/-- Storage: 1 P4, 2 P20, 3 P2; STORE 0 takes the AUTO column of Table 4-4 (R83). -/
def storeOf (f : Format) : Nat :=
  if f.store ≠ 0 then f.store
  else if f.sampling ≠ 2 then 1 else if f.depth = 0 then 3 else 2

/-- The P4 variant (Table 5-2, Table 4-4). -/
def variantOf (f : Format) : Nat :=
  if storeOf f ≠ 1 ∨ f.sampling ≠ 0 then 0 else if f.depth = 0 then 1 else 2

/-- Lines of one object: a field of an interlaced source has half the lines (R108). -/
def objHeight (f : Format) : Nat := if f.interlaced then f.height / 2 else f.height

/-- Tile width (Table 5-1). -/
def tileWidth (store : Nat) : Nat := if store = 1 then 64 else if store = 2 then 96 else 128

/-- Pages of an object of W × H pixels (R109). -/
def pagesOf (store w h : Nat) : Nat := cdiv (cdiv w (tileWidth store) * cdiv h 32) 8

/-- Footprint of one slot of a source (R113). -/
def footprint (f : Format) : Nat := pagesOf (storeOf f) f.width (objHeight f)

/-- Declared active pixel rate in pix/s (R81). -/
def pixelRate (f : Format) : Frac := ⟨f.width * objHeight f * rate1001 f.rate, 1001⟩

/-- Bytes per pixel of a storage format, as a fraction (Table 1-7). -/
def storeBytes (store : Nat) : Frac := if store = 1 then ⟨4, 1⟩ else if store = 2 then ⟨8, 3⟩ else ⟨2, 1⟩

/-! ### Objects and rings -/

def objGet (s : State) (id : Nat) : Obj := (tget s.objects id).getD {}

def objPut (id : Nat) (o : Obj) (s : State) : State := { s with objects := tset s.objects id o }

def srcGet (s : State) (h : Handle) : Source := (tget s.sources h).getD {}

def srcPut (h : Handle) (x : Source) (s : State) : State := { s with sources := tset s.sources h x }

def srcMod (h : Handle) (f : Source → Source) (s : State) : State := { s with sources := tmod s.sources h f }

/-- An object is held by its writer, as the latest complete frame, or by a reference (R114). -/
def objFree (o : Obj) : Bool := !o.writing && !o.latest && o.refs.isEmpty

/-- The handle of the object in a slot (R112): slot in [23:6], generation in [5:0]. -/
def objHandle (s : State) (id : Nat) : Handle :=
  let o := objGet s id
  handleOf (hPart o.source) 2 (id * 64 + o.gen % 64)

/-- The object slot an object handle names, if it still holds that object. -/
def objOfHandle (s : State) (h : Handle) : Option Nat :=
  let id := hIndex h / 64
  match tget s.objects id with
  | some o => if o.gen % 64 = hIndex h % 64 ∧ hPart o.source = hPart h ∧ o.closeOrder ≠ 0 ∧ !objFree o
      then some id else none
  | none => none

/-- The ring of a source, or the output ring of a route (R113, R150). -/
def ringOf (s : State) (owner : Handle) : List Slot :=
  if hType owner = 3 then ((tget s.routes owner).map (fun r => r.ring)).getD []
  else (srcGet s owner).slots

def setRing (owner : Handle) (l : List Slot) (s : State) : State :=
  if hType owner = 3 then { s with routes := tmod s.routes owner (fun r => { r with ring := l }) }
  else srcMod owner (fun x => { x with slots := l }) s

/-- The next number of the order in which objects close and become free (R115). -/
def tickOrder (s : State) : State := { s with order := s.order + 1 }

/-- Add one slot to a ring, on the lowest free object slot (R113, R117). A hypothetical configuration may hold more
than the 262,144 slots there are: it is then refused (R127). -/
def addSlot (owner : Handle) (pages payer : Nat) (ext : Bool) (s : State) : State :=
  match freeKey s.objects (s.objects.length + 1) with
  | none => s
  | some id =>
    let s1 := objPut id { source := owner, freeOrder := s.order, gen := (tget s.slotGen id).getD 0 } s
    tickOrder (setRing owner (ringOf s1 owner ++ [{ id := id, pages := pages, payer := payer, ext := ext }]) s1)

/-- Add n slots. -/
def addSlots (owner : Handle) (pages payer : Nat) (ext : Bool) : Nat → State → State
  | 0, s => s
  | n + 1, s => addSlots owner pages payer ext n (addSlot owner pages payer ext s)

/-- A source that is deleted and has no slot left is gone. -/
def dropDeleted (h : Handle) (s : State) : State :=
  match tget s.sources h with
  | some x => if x.deleted && x.slots.isEmpty then { s with sources := tdel s.sources h } else s
  | none => s

/-- Look at an object after a hold ended: a free object whose slot is surplus, or whose ring's owner is
gone, gives its slot back; its pages are then charged to nobody (R117, R126, R128, R71). -/
def settleObj (id : Nat) (s : State) : State :=
  match tget s.objects id with
  | none => s
  | some o =>
    if !objFree o then s
    else
      let ring := ringOf s o.source
      let dead := if hType o.source = 3 then (tget s.routes o.source).isNone
        else match tget s.sources o.source with
          | some x => x.deleted
          | none => true
      if dead || ring.any (fun e => decide (e.id = id) && e.surplus) then
        dropDeleted o.source (setRing o.source (ring.filter (fun e => decide (e.id ≠ id)))
          { s with objects := tdel s.objects id
                   orphans := s.orphans.filter (fun e => decide (e.id ≠ id))
                   slotGen := tset s.slotGen id ((o.gen + 1) % 64) })
      else s

/-- An object that a hold has just left: it became free now if nothing else holds it (R115). -/
def endHold (id : Nat) (f : Obj → Obj) (s : State) : State :=
  match tget s.objects id with
  | none => s
  | some o =>
    let o1 := f o
    let o2 := if objFree o1 && !objFree o then { o1 with freeOrder := s.order } else o1
    settleObj id (tickOrder (objPut id o2 s))

/-- Take a reference (R114, R116). -/
def addRef (id : Nat) (k : Holder) (s : State) : State :=
  { s with objects := tmod s.objects id (fun o => { o with refs := k :: o.refs }) }

/-- Release one reference. -/
def dropRef (id : Nat) (k : Holder) (s : State) : State :=
  endHold id (fun o => { o with refs := o.refs.erase k }) s

/-- Release every reference that satisfies a test. -/
def dropRefs (p : Holder → Bool) (s : State) : State :=
  (tkeys s.objects).foldl (fun s id =>
    if (objGet s id).refs.any p then
      endHold id (fun o => { o with refs := o.refs.filter (fun k => !p k) }) s
    else s) s

/-- The free slot the writer takes: never used or abandoned slots first, in the order they became free;
then the slot whose object was closed earliest (R115). -/
def pickSlot (s : State) (owner : Handle) : Option Nat :=
  let free := ((ringOf s owner).filter (fun e => !e.surplus && objFree (objGet s e.id))).map (fun e => e.id)
  let key := fun id => let o := objGet s id
    if o.closeOrder = 0 then (0, o.freeOrder) else (1, o.closeOrder)
  free.foldl (fun (best : Option Nat) id =>
    match best with
    | none => some id
    | some b =>
      let kb := key b
      let ki := key id
      if ki.1 < kb.1 ∨ (ki.1 = kb.1 ∧ ki.2 < kb.2) then some id else some b) none

/-! ### Tier 0 (R119–R121) -/

/-- Pages of a ring that live in tier 0. -/
def tier0Of (s : State) (owner : Handle) : Nat :=
  ((ringOf s owner).map (fun e => if (objGet s e.id).tier = 0 then e.pages else 0)).sum

/-- Tier 0 pages reserved: by placement, and by slots of a cleared placement not yet taken again (R121, R135). -/
def tier0Reserved (s : State) : Nat :=
  (s.sources.map (fun e => if e.2.tier0 then e.2.tier0Pages else tier0Of s e.1)).sum

/-- Tier 0 pages that job output rings use. -/
def tier0Jobs (s : State) : Nat :=
  (s.routes.map (fun e => tier0Of s e.1)).sum
    + (s.orphans.map (fun e => if (objGet s e.id).tier = 0 then e.pages else 0)).sum

/-- Tier 0 pages in use. -/
def tier0Used (s : State) : Nat :=
  (s.sources.map (fun e => tier0Of s e.1)).sum + tier0Jobs s

/-- The tier a slot takes when the writer takes it (R119, R121). -/
def tierFor (s : State) (owner : Handle) (id : Nat) : Nat :=
  let pages := (((ringOf s owner).find? (fun e => decide (e.id = id))).map (fun e => e.pages)).getD 0
  let others := tier0Of { s with objects := tmod s.objects id (fun o => { o with tier := 1 }) } owner
  if hType owner = 3 then
    (if tier0Reserved s + tier0Jobs { s with objects := tmod s.objects id (fun o => { o with tier := 1 }) }
      + pages ≤ 192 then 0 else 1)
  else
    let x := srcGet s owner
    if x.tier0 ∧ others + pages ≤ x.tier0Pages then 0 else 1

/-- The writer takes a slot: a new object, of the next generation (R112, R115, R119). -/
def takeSlot (owner : Handle) (id : Nat) (o : Obj) (s : State) : State :=
  let g := (tget s.slotGen id).getD 0
  objPut id { o with gen := g, source := owner, fmt := if hType owner = 3 then o.fmt else (srcGet s owner).fmt, writing := true, tier := tierFor s owner id }
    { s with slotGen := tset s.slotGen id ((g + 1) % 64) }

/-- Close an object of a source: the writer's hold ends, it becomes the latest complete frame, and the
previous one loses that hold (R111, R114). -/
def closeObj (owner : Handle) (id : Nat) (f : Obj → Obj) (s : State) : State :=
  let x := srcGet s owner
  let o := f (objGet s id)
  let s1 := tickOrder (objPut id { o with
    writing := false, latest := true, seq := x.nextSeq, closedAt := now s, closeOrder := s.order } s)
  let s2 := srcMod owner (fun x => { x with latest := some id, nextSeq := (x.nextSeq + 1) % 2 ^ 32 })
    { s1 with
      lastClose := some (owner, id, x.latest)
      closes := match s.lastClose with
        | some c => if (objGet s c.2.1).closedAt = now s then c :: s.closes else []
        | none => [] }
  match x.latest with
  | some old => endHold old (fun o => { o with latest := false }) s2
  | none => s2

/-- Serve a request as if a close had not come yet: source h closed `new` where `old` was its latest complete frame
(R16). -/
def holdBack (c : Handle × Nat × Option Nat) (f : State → State) (s : State) : State :=
  let h := c.1
  let new := c.2.1
  let old := c.2.2
  let kept := match old with
    | some id => (tget s.objects id).any (fun o => !o.writing && decide (o.source = h))
    | none => true
  if kept && decide ((srcGet s h).latest = some new) then
    let back := fun (l : Option Nat) => srcMod h (fun x => { x with latest := l })
    match old with
    | some id => endHold id (fun o => { o with latest := false }) (back (some new)
        (f (back old { s with objects := tmod s.objects id (fun o => { o with latest := true }) })))
    | none => back (some new) (f (back none s))
  else f s

/-- The closes that came last, newest first: those that one cycle can hold share their powered time. -/
def recentCloses (s : State) : List (Handle × Nat × Option Nat) := s.lastClose.toList ++ s.closes

/-- Serve a request for references that comes in the same cycle as the n last closes: it is served first, and binds to
the latest complete frame of each stream before them (R16). -/
def serveRequest (n : Nat) (f : State → State) (s : State) : State :=
  ((recentCloses s).take n).foldr holdBack f s

/-- How many closes fall in the cycle of a request: the last one, and as many before it. -/
def closesIn (same : Bool) (more : Nat) : Nat := if same then 1 + more else 0

/-- Abandon an object: it never becomes the latest complete frame, and its slot counts as never used (R114, R115). -/
def abandonObj (id : Nat) (s : State) : State :=
  endHold id (fun o => { o with writing := false, closeOrder := 0 }) s

/-- The hold on the latest complete frame ends (R130). -/
def dropLatest (owner : Handle) (s : State) : State :=
  match (srcGet s owner).latest with
  | some id => endHold id (fun o => { o with latest := false })
      (srcMod owner (fun x => { x with latest := none }) s)
  | none => s

/-- Every slot of a ring that is free is looked at again, once the ring's slots have become surplus. -/
def settleRing (owner : Handle) (s : State) : State :=
  (ringOf s owner).foldl (fun s e => settleObj e.id s) s

/-- The ring starved: the frame is counted and reported (R118). -/
def ringStarved (h : Handle) (s : State) : State :=
  let x := srcGet s h
  let n := sat 0xFFFFFFFF x.droppedRing 1
  let s1 := raise 130 0 (srcMod h (fun x => { x with droppedRing := n }) s)
  if x.starvedSecond = some (second s) then s1
  else postNtf x.owner 0x0401 [word h, word n]
    (srcMod h (fun x => { x with starvedSecond := some (second s) }) s1)

/-! ### Charges (R67, R113, R120) -/

/-- Every slot of every ring. -/
def allSlots (s : State) : List Slot :=
  s.sources.flatMap (fun e => e.2.slots) ++ s.routes.flatMap (fun e => e.2.ring) ++ s.orphans

/-- Tier 1 pages of an audio output's delay lines, the larger of old and new for a channel whose change has
not applied (R48, R252). -/
def audioPages (o : AudioOut) : Nat :=
  (o.chans.map (fun e =>
    let next := o.pending.foldl (fun (n : Nat) p =>
      if p.1 ≤ e.1 ∧ e.1 < p.1 + p.2.1.length then ((p.2.1)[e.1 - p.1]?.map (fun c => c.delayMax)).getD n else n) e.2.cfg.delayMax
    cdiv (4 * max e.2.cfg.delayMax next) 65536)).sum

/-- Tier 1 pages charged to a partition. -/
def tier1Use (s : State) (p : Nat) : Nat :=
  ((allSlots s).map (fun e => if e.payer = p then e.pages else 0)).sum
    + (s.audio.outputs.map (fun e => if e.2.owner = p then audioPages e.2 else 0)).sum

/-- Tier 1 pages charged in all. -/
def tier1All (s : State) : Nat :=
  ((allSlots s).map (fun e => e.pages)).sum + (s.audio.outputs.map (fun e => audioPages e.2)).sum

/-- Tier 2 pages charged to a partition (R122). -/
def tier2Use (s : State) (p : Nat) : Nat :=
  (s.shifts.map (fun e => if hPart e.1 = p then e.2.tier2 else 0)).sum

/-- Host references a partition holds (R132). -/
def hostRefs (s : State) (p : Nat) : Nat :=
  (s.objects.map (fun e => e.2.refs.count (.host p))).sum

/-- The timebase's own time at a powered time, in fs: it runs at the output frequency (R272, R274). -/
def clockAt (t : Timebase) (at_ : Nat) : Int := t.clock + ((at_ : Int) - t.freqSince) * (1000000000 + t.freqOffset)

def clockNow (s : State) : Int := clockAt s.time (now s)

/-- The time of an entry's last message, gone on from the timebase, in s and ns (R277). -/
def ptpOf (s : State) (c : Candidate) : Nat × Nat :=
  let ns := c.ptpNanos + ((clockNow s - c.ptpClock) / 1000000).toNat
  (c.ptpSeconds + ns / 1000000000, ns % 1000000000)

/-- PTP time carried now, with its lock state (R111, R277). -/
def ptpNow (s : State) : Nat × Nat × Nat :=
  let ptps := s.time.list.filter (fun e => e.2.enable && decide (e.2.kind = 3))
  match ptps.find? (fun e => e.2.qualified) with
  | some (_, c) => ((ptpOf s c).1, (ptpOf s c).2, 2)
  | none =>
    match ptps.find? (fun e => e.2.everQualified) with
    | some (_, c) => ((ptpOf s c).1, (ptpOf s c).2, 3)
    | none => ((Config.ptpOpen (now s)).1, (Config.ptpOpen (now s)).2, if ptps.isEmpty then 0 else 1)

/-- The domains' reference follows PTP (R259, R277). -/
def followsPtp (s : State) : Bool :=
  match s.time.selected.bind (fun i => tget s.time.list i) with
  | some e => decide (e.kind = 3)
  | none => false

/-- An object that is starting now: its capture and PTP times (R111). -/
def stamp (s : State) (o : Obj) : Obj :=
  let t := ptpNow s
  { o with capture := now s, ptpSeconds := t.1, ptpNanos := t.2.1, ptpLock := t.2.2 }

end Sys2Proof.Machine
end

