-- ==== Sys2Proof/Machine/Blocks.lean ====
section
/-! DEFINITION. Ports as State holds them, and the blocks that leave on their lanes: control and data blocks, sequences
striped over lanes, and whole frames (R284–R286). -/

namespace Sys2Proof.Machine

open Sys2Proof

/-! ### Ports -/

def portGet (s : State) (p : Nat) : Port := (tget s.ports p).getD {}

def portPut (p : Nat) (x : Port) (s : State) : State := { s with ports := tset s.ports p x }

def portMod (p : Nat) (f : Port → Port) (s : State) : State := portPut p (f (portGet s p)) s

/-- A receive port (R281). -/
def isRx (p : Nat) : Bool := decide (p < 16)

/-- Powered lanes. -/
def lanesOf (x : Port) : List Nat := members x.lanes.toNat 4

/-! ### Blocks (R284, R285) -/

/-- Byte i of a block's payload. -/
def pb (b : CtlBlock) (i : Nat) : Nat := (b.payload.extractLsb' (8 * i) 8).toNat

/-- Bytes i to j − 1 of a payload as a number, least significant byte first. -/
def pbs (b : CtlBlock) (i j : Nat) : Nat := b.payload.toNat / 2 ^ (8 * i) % 2 ^ (8 * (j - i))

/-- The payload of a control block from its first fourteen bytes, with its CRC-16. -/
def ctlPayload (bs : List Byte) : BitVec 128 :=
  let b14 := (List.range 14).map (fun i => bs.getD i 0)
  let c := crc16 b14
  BitVec.ofNat 128 (ofLe (b14 ++ [c.extractLsb' 0 8, c.extractLsb' 8 8]))

/-- The sixteen bytes of a payload. -/
def payloadBytes (b : CtlBlock) : List Byte := (List.range 16).map (fun i => b.payload.extractLsb' (8 * i) 8)

/-- The CRC of a control block is good. -/
def ctlCrcGood (b : CtlBlock) : Bool := decide (ctlPayload (payloadBytes b) = b.payload)

/-- Block types of Table 12-1 and, in Domino mode, of Table 16-1. -/
def knownType (domino : Bool) (t : Nat) : Bool :=
  decide (t ∈ [0x1E, 0x2D, 0x33, 0x4B, 0x55, 0x66, 0x78, 0x87, 0x96, 0xA5] ∨ (domino = true ∧ t ∈ [0xB4, 0xC3, 0xD2, 0xE1, 0xF0]))

/-- A block sent on a lane: its payload is scrambled, its header is not (R284). -/
def sendBlock (p lane : Nat) (header : BitVec 2) (payload : BitVec 128) (s : State) : State :=
  let x := portGet s p
  let w := scrambled ((tget x.scrambler lane).getD (Config.scramblerSeed p lane)) payload
  send (.block p lane header w) (portPut p { x with scrambler := tset x.scrambler lane (lastBits w) } s)

/-- A control block sent on one lane. -/
def sendLane (p lane : Nat) (bs : List Byte) (s : State) : State := sendBlock p lane 2 (ctlPayload bs) s

/-- A port-scope control block sent on every powered lane (R285). -/
def sendCtl (p : Nat) (bs : List Byte) (s : State) : State := (lanesOf (portGet s p)).foldl (fun s l => sendLane p l bs s) s

/-- Blocks of one sequence, in turn on its lanes: block i on lane i mod w of them (R284). -/
def sendSeq (p sub : Nat) (lanes : List Nat) (blocks : List (BitVec 2 × BitVec 128)) (s : State) : State :=
  blocks.foldl (fun s b =>
    let x := portGet s p
    let i := (tget x.blocksSent sub).getD 0
    sendBlock p (lanes.getD (i % max 1 lanes.length) sub) b.1 b.2
      (portPut p { x with blocksSent := tset x.blocksSent sub (i + 1) } s)) s

/-- Lanes of a sub-stream of a width (R283). -/
def subLanes (sub w : Nat) : List Nat := (List.range w).map (fun i => sub + i)

/-- A control block of a sequence. -/
def ctlBlock (bs : List Byte) : BitVec 2 × BitVec 128 := (2, ctlPayload bs)

/-- Samples of d bits in data blocks, the last one filled with zeros (R286). -/
def dataBlocks (d : Nat) (l : List Nat) : List (BitVec 2 × BitVec 128) :=
  let n := l.foldr (fun v n => v % 2 ^ d + 2 ^ d * n) 0
  (List.range (cdiv (l.length * d) 128)).map (fun i => (1, BitVec.ofNat 128 (n / 2 ^ (128 * i))))

/-- A frame in blocks (R286): FS, an LS with its data blocks for each line, and FE; `chan` is the sub-stream, or in Domino
mode the channel (R362). -/
def framed (chan number flags colour samp depth w : Nat) (lines : List (List Nat)) : List (BitVec 2 × BitVec 128) :=
  let byte := BitVec.ofNat 8
  let fs := [0x55, byte chan] ++ leBytes number 4 ++ [byte flags, byte colour, byte (samp + 4 * depth)] ++ leBytes w 2
    ++ leBytes lines.length 2
  let ls := lines.mapIdx (fun y l =>
    let d := dataBlocks (8 + 2 * depth) l
    ctlBlock ([0x66, byte chan] ++ leBytes y 2 ++ leBytes w 2 ++ leBytes d.length 2) :: d)
  [ctlBlock fs] ++ ls.flatten ++ [ctlBlock ([0x78, byte chan] ++ leBytes number 4 ++ leBytes lines.length 2)]

end Sys2Proof.Machine
end

