-- ==== Sys2Proof/Machine/Needs.lean ====
section
/-! DEFINITION. What the configuration needs of every resource of Table 2-8, as exact fractions in the
resource's own unit, the limit of each, and the first shortfall of a hypothetical configuration
(R48, R66, R67, R91, R95, R101, R117, R122, R144, R145, R155, R208–R211, R306, R329, R343, Table 1-7). -/

namespace Sys2Proof.Machine

open Sys2Proof

/-! ### Quotas (Table 3-1, R66) -/

/-- Device total of a quota resource; the pool's for codes 9 and 10. -/
def totalOf (s : State) (r : Nat) : Nat :=
  match r with
  | 1 => 2 ^ 64 - 1
  | 2 => 2 ^ 32 - 1
  | 3 => 8192
  | 4 => 256
  | 5 => 768
  | 6 => 256
  | 7 => 512000
  | 8 => 720896
  | 9 => if s.pool.mounted then s.pool.tier2 else 0
  | 10 => if s.pool.mounted then (s.pool.members.map (fun k => ((tget s.pool.drives k).map (fun x => x.segs)).getD 0)).sum else 0
  | 11 => 1024
  | _ => 0

/-- The quotas of P1–P15 on one resource, together; a deleted partition keeps the tier 1 pages still charged
to its index (R71). -/
def othersOf (s : State) (r : Nat) : Nat :=
  (s.parts.map (fun e => if e.2.held then (if r = 8 then tier1Use s e.1 else 0) else e.2.quota.getD (r - 1) 0)).sum

/-- Quota of a partition: P0's is what the others leave, and the device total for a cap (R66). -/
def quotaOf (s : State) (p r : Nat) : Nat :=
  if p = 0 then (if r = 9 ∨ r = 10 then totalOf s r else totalOf s r - othersOf s r)
  else ((tget s.parts p).map (fun q => if q.held then 0 else q.quota.getD (r - 1) 0)).getD 0

/-! ### Destinations and heads -/

def headGet (s : State) (h : Nat) : Head := (tget s.heads h).getD {}

def headPut (h : Nat) (x : Head) (s : State) : State := { s with heads := tset s.heads h x }

def destGet (s : State) (d : Nat) : Dest := (tget s.dests d).getD {}

def destPut (d : Nat) (x : Dest) (s : State) : State := { s with dests := tset s.dests d x }

/-- Fields of a destination identifier (Table 7-1). -/
def dKind (d : Nat) : Nat := d / 2 ^ 28

def dPart (d : Nat) : Nat := d / 2 ^ 24 % 16

def dIndex (d : Nat) : Nat := d % 2 ^ 24

def dHead (d : Nat) : Nat := d / 256 % 64

def dLayer (d : Nat) : Nat := d % 8

/-- The identifier of a layer. -/
def layerDest (h l : Nat) : Nat := 2 ^ 28 + h * 256 + l

def layerCfg (st : HeadSet) (l : Nat) : LayerCfg := (tget st.layers l).getD {}

/-- VTAPS of a bank: the loaded bank or the default of Table 8-6. -/
def vtapsOf (st : HeadSet) (b : Nat) : Nat :=
  match tget st.banks b with
  | some k => k.vtaps
  | none => if b = 0 then 6 else if b = 1 then 4 else 2

/-- A Jigsaw format (R219). -/
def isPair (st : HeadSet) : Bool := decide (6 ≤ st.mode.format ∧ st.mode.format ≤ 8)

/-- T_out in µs. -/
def tOut (st : HeadSet) : Frac := periodUs st.mode.rate

/-- A number of line times in µs. -/
def linesUs (st : HeadSet) (n : Nat) : Frac := ⟨n * (tOut st).num, (tOut st).den * max 1 st.mode.timing.vtotal⟩

/-- D − A of a head in lines: from the apply line to the fetch-start line (Table 7-2). -/
def daLines (st : HeadSet) : Nat := st.mode.timing.vtotal - 8 - st.mode.applyLine

/-- The layer's hold for Tmax (R222). -/
def layerHold (st : HeadSet) : Frac :=
  fadd (tOut st) (linesUs st (st.mode.timing.vactive - st.mode.applyLine))

/-! ### Routes as admission sees them (R48, R179, R181) -/

/-- What a route asks for: source, mode, MCFRC variant. -/
structure RouteCfg where
  source : Handle
  mode : Nat
  variant : Nat
  deriving DecidableEq, Repr

def routeCfg (s : State) (r : Handle) : Option RouteCfg :=
  (tget s.routes r).map (fun x => ⟨x.source, x.mode, x.variant⟩)

/-- The route configuration after pending changes, and the one fading out under the last of them. -/
def afterOps (s : State) (d : Dest) : Option RouteCfg × Option RouteCfg :=
  d.pending.foldl (fun (a : Option RouteCfg × Option RouteCfg) p =>
    match p.1 with
    | none => a
    | some (.add r n) => (routeCfg s r, if 0 < n then a.1 else none)
    | some (.modify _ m v) => (a.1.map (fun c => { c with mode := m, variant := v }), none)
    | some (.delete _ n) => (none, if 0 < n then a.1 else none))
    (match d.incoming with
      | some r => (routeCfg s r, (d.active).bind (routeCfg s))
      | none => ((d.active).bind (routeCfg s), none))

/-- The head set in force and the one handed off, for a layer; none for another kind of destination. -/
def setsOf (s : State) (d : Nat) : HeadSet × Option HeadSet :=
  if dKind d = 1 then ((headGet s (dHead d)).act, (headGet s (dHead d)).pend) else ({}, none)

/-- The inputs a destination uses now. -/
def nowViews (s : State) (d : Nat) : List (HeadSet × RouteCfg) :=
  let x := destGet s d
  ([x.active, x.incoming].filterMap (fun r => r.bind (routeCfg s))).map (fun c => ((setsOf s d).1, c))

/-- The inputs it will use once what has been handed off has applied. -/
def nextViews (s : State) (d : Nat) : List (HeadSet × RouteCfg) :=
  let a := afterOps s (destGet s d)
  ([a.1, a.2].filterMap id).map (fun c => (((setsOf s d).2).getD (setsOf s d).1, c))

/-- A pending change of the source's format has not applied (R104, R161). -/
def fmtWaits (s : State) (h : Handle) : Bool := (srcGet s h).pendingFmt.isSome

/-- Something handed off has not applied yet at the destination or at a source that it shows, or a layer has not
switched to its pre-scale source (R48, R211). -/
def waitingChange (s : State) (d : Nat) : Bool :=
  !(destGet s d).pending.isEmpty || ((setsOf s d).2).isSome
    || (nextViews s d).any (fun v => fmtWaits s v.2.source)
    || (decide (dKind d = 1) && ((tget (headGet s (dHead d)).prescale (dLayer d)).map (fmtWaits s)).getD false)
    || (decide (dKind d = 1) && decide (tget (headGet s (dHead d)).prescale (dLayer d)
      ≠ tget (headGet s (dHead d)).prescaleAct (dLayer d)))

/-- The larger of old and new needs of a destination; a fade counts both routes (R48, R179). The last
argument of `f` says whether the view is the next one. -/
def destNeed (s : State) (d : Nat) (f : Bool → HeadSet → RouteCfg → Frac) : Frac :=
  let a := fsum ((nowViews s d).map (fun v => f false v.1 v.2))
  if waitingChange s d then
    let b := fsum ((nextViews s d).map (fun v => f true v.1 v.2))
    if fgt b a then b else a
  else a

/-- The format a source will have once a pending change has applied (R104, R161). -/
def nextFmt (s : State) (h : Handle) : Format :=
  match (srcGet s h).pendingFmt with
  | some (f, _, _) => f
  | none => (srcGet s h).fmt

/-- The format of a source now, or once a pending change has applied. -/
def fmtAt (s : State) (next : Bool) (h : Handle) : Format := if next then nextFmt s h else (srcGet s h).fmt

/-- The larger of a source's old and new need (R48). -/
def srcNeed (s : State) (h : Handle) (g : Format → Frac) : Frac :=
  let a := g (srcGet s h).fmt
  let b := g (nextFmt s h)
  if fgt b a then b else a

/-- The pre-scale source of a layer on a source, in a plan (R211). -/
def preOf (s : State) (t : Tbl Handle) (l : Nat) (src : Handle) : Option Handle :=
  (t.find? (fun e => decide (e.1 = l ∧ (tget s.procs e.2).map (fun p => p.input) = some src))).map Prod.snd

/-- The input a layer fetches: its route's source, or the pre-scale source of that source which is planned for the
layer or in use (R211); in a fade the outgoing route keeps its own (R178, R179). -/
def layerInput (s : State) (h l : Nat) (next : Bool) (c : RouteCfg) : Handle :=
  let x := headGet s h
  let inUse := preOf s (x.prescaleAct ++ x.prescaleOut) l c.source
  (if next then
    (match preOf s x.prescale l c.source with
    | some p => some p
    | none =>
      if ((afterOps s (destGet s (layerDest h l))).1.map (fun v => v.source)) = some c.source then none else inUse)
  else inUse).getD c.source

/-- A crop in frames of format f: an empty one means the whole of them (R190). -/
def cropOn (k : Rect) (f : Format) : Rect :=
  if k.x1 ≤ k.x0 ∨ k.y1 ≤ k.y0 then ⟨0, 0, f.width, objHeight f⟩ else k

/-- A crop of frames of format f in the frames of format g pre-scaled from them (R211). -/
def preCrop (r : Rect) (f g : Format) : Rect :=
  ⟨r.x0 * g.width / f.width, r.y0 * objHeight g / objHeight f,
    cdiv (r.x1 * g.width) f.width, cdiv (r.y1 * objHeight g) (objHeight f)⟩

/-- The crop of a layer in the frames it fetches (R190, R211). -/
def layerCrop (s : State) (h l : Nat) (next : Bool) (st : HeadSet) (c : RouteCfg) : Rect :=
  let f := fmtAt s next c.source
  let r := cropOn (layerCfg st l).crop f
  let i := layerInput s h l next c
  if i = c.source then r else preCrop r f (fmtAt s next i)

/-- The part of the raster a head shows of a set: all of it, or for a pair its half (R235–R237):
`odd` selects the right half. -/
def halfOf (st : HeadSet) (odd : Bool) : Nat × Nat :=
  let w := st.mode.timing.hactive
  if isPair st then (if odd then (w / 2, w) else (0, w / 2)) else (0, w)

/-- Source position of output position i of n, over a crop of w from x0, with 20 fractional bits (R205); the
manual gives no rounding of the quotient. -/
def position (x0 w n i : Nat) : Int :=
  let num := (2 * i + 1) * w * 2 ^ 20
  (x0 * 2 ^ 20 + divOpen num (2 * n) : Nat) - (2 ^ 19 : Int)

/-- The crop columns a head reads of a layer: the crop, or on a pair those that the taps of its own half's output
columns read (R237). A graphics layer does not scale. -/
def cropSpan (st : HeadSet) (l : Nat) (odd : Bool) (r : Rect) : Nat × Nat :=
  let dst := (layerCfg st l).dst
  let (a, b) := halfOf st odd
  let x0 := max dst.x0 a
  let x1 := min dst.x1 b
  if !isPair st then (r.x0, r.x1)
  else if x1 ≤ x0 then (r.x0, r.x0)
  else if 4 ≤ l then (r.x0 + (x0 - dst.x0), min r.x1 (r.x0 + (x1 - dst.x0)))
  else
    let at_ := fun (x : Nat) => position r.x0 (r.x1 - r.x0) (dst.x1 - dst.x0) (x - dst.x0) / 2 ^ 20
    (max r.x0 (at_ x0 - 3).toNat, min r.x1 (at_ (x1 - 1) + 5).toNat)

/-- Pixel-lines of a video layer (R208). The default destination of a layer that no SET_LAYER has set is empty: nothing is
scaled, and the ratio counts as 1 (DESIGN CHOICE, notes/assumptions/95). -/
def layerLines (s : State) (h l : Nat) (odd next : Bool) (st : HeadSet) (c : RouteCfg) : Nat :=
  if 4 ≤ l then 0
  else
    let r := layerCrop s h l next st c
    let cfg := layerCfg st l
    let dh := cfg.dst.y1 - cfg.dst.y0
    let ch := r.y1 - r.y0
    let (a, b) := cropSpan st l odd r
    (cdiv (vtapsOf st cfg.vbank * (if dh = 0 then 1 else max dh ch)) (max 1 dh) + 2) * (b - a)

/-- Head fetch need of a layer in kB/s (R209). -/
def layerFetch (s : State) (h l : Nat) (odd next : Bool) (st : HeadSet) (c : RouteCfg) : Frac :=
  let r := layerCrop s h l next st c
  let i := layerInput s h l next c
  let tw := tileWidth (storeOf (fmtAt s next i))
  let (a, b) := cropSpan st l odd r
  if b ≤ a ∨ r.y1 ≤ r.y0 then ⟨0, 1⟩
  else
    let t := (cdiv b tw - a / tw) * (cdiv r.y1 32 - r.y0 / 32)
    ⟨t * 8192 * st.mode.timing.vtotal * rate1001 st.mode.rate, 1001 * 1000 * max 1 st.mode.timing.vactive⟩

/-- The layers whose fetch a head carries: its own, and as the odd head of a pair those of its partner. -/
def headSum (s : State) (h : Nat) (f : Nat → Nat → Bool → Bool → HeadSet → RouteCfg → Frac) : Frac :=
  let own := (List.range 8).map (fun l => destNeed s (layerDest h l) (fun n st c => f h l false n st c))
  let pair := if h % 2 = 1 then
      (List.range 8).map (fun l => destNeed s (layerDest (h - 1) l)
        (fun n st c => if isPair st then f (h - 1) l true n st c else ⟨0, 1⟩))
    else []
  fsum (own ++ pair)

/-- Pixel-lines charged to a head (R208). -/
def headLines (s : State) (h : Nat) : Frac :=
  headSum s h (fun g l o n st c => ⟨layerLines s g l o n st c, 1⟩)

/-- Fetch need charged to a head in kB/s (R209). -/
def headFetch (s : State) (h : Nat) : Frac := headSum s h (fun g l o n st c => layerFetch s g l o n st c)

/-! ### Engines (R143–R145, R155, R156) -/

/-- K of a kernel variant (Table 6-1); 0 where the variant does not exist. -/
def kernelK (k v : Nat) : Nat :=
  match k, v with
  | 1, 0 => 2000 | 1, 1 => 1400 | 1, 2 => 800
  | 2, 0 => 48000 | 2, 1 => 20000
  | 3, 0 => 1000
  | 4, 0 => 16000 | 4, 1 => 2000
  | 5, 0 => 6000 | 5, 1 => 4000
  | 6, 0 => 24000 | 6, 1 => 8000
  | 7, 0 => 1000
  | 8, 0 => 500
  | _, _ => 0

/-- F of a kernel (Table 6-1). -/
def kernelF (k : Nat) : Nat := [0, 20, 24, 12, 16, 8, 16, 8, 8].getD k 0

/-- C in engine-µs (R144): at least 8. -/
def costC (kk n : Nat) : Frac := if kk * n ≤ 8 * 497664 then ⟨8, 1⟩ else ⟨kk * n, 497664⟩

/-- Q = ⌈C × 1,000 / W⌉ (R144). -/
def chargeQ (kk n : Nat) (w : Frac) : Nat :=
  if w.num = 0 then 0 else fceil ⟨(costC kk n).num * 1000 * w.den, (costC kk n).den * w.num⟩

/-- The format of a processed source's output, from its parameters and its input's format (Table 6-1, R146). -/
def procFormat (p : ProcParams) (i : Format) : Format :=
  let base := { i with store := storeOf i, ringDepth := p.ringDepth }
  match p.kernel with
  | 1 => { base with width := p.outW, height := if i.interlaced then 2 * p.outH else p.outH }
  | 4 => { base with interlaced := false }
  | 5 => { base with colour := {
      matrix := p.outColour % 8, transfer := p.outColour / 8 % 4
      primaries := p.outColour / 32 % 4, full := tb p.outColour 7 } }
  | _ => base

/-- N of a stream: pixels of one output object. -/
def pixelsOf (f : Format) : Nat := f.width * objHeight f

/-- The larger of old and new Q of a processed source (R48, R161): at rung 0 (R155). -/
def procQ (s : State) (e : Handle × Proc) : Nat :=
  let one := fun (p : ProcParams) (i : Format) =>
    chargeQ (kernelK p.kernel p.variant) (pixelsOf (procFormat p i)) (periodUs i.rate)
  let a := one e.2.params (srcGet s e.2.input).fmt
  max a (one (e.2.pending.getD e.2.params) (nextFmt s e.2.input))

/-- Bytes per second of class 5 (R145). -/
def classFive (k n rate : Nat) : Frac := ⟨kernelF k * n * rate, 1001⟩

def procFive (s : State) (e : Handle × Proc) : Frac :=
  let one := fun (p : ProcParams) (i : Format) => classFive p.kernel (pixelsOf (procFormat p i)) (rate1001 i.rate)
  let a := one e.2.params (srcGet s e.2.input).fmt
  let b := one (e.2.pending.getD e.2.params) (nextFmt s e.2.input)
  if fgt b a then b else a

/-- Rate code of a destination that is no head layer: the format of the encode context or egress flow. -/
def destRate (s : State) (d : Nat) (st : HeadSet) : Nat :=
  if dKind d = 1 then st.mode.rate
  else if dKind d = 2 then
    ((tget s.pool.encodes (handleOf (dPart d) 9 (dIndex d))).map (fun e => e.rate)).getD 0
  else ((tget s.eth.flows (dIndex d)).map (fun f => f.fmt.rate)).getD 0

/-- D − A of a destination in µs (Table 7-2). -/
def destDA (d : Nat) (st : HeadSet) : Frac := if dKind d = 1 then linesUs st (daLines st) else ⟨1000, 1⟩

/-- The input of a route's conversion: a layer's pre-scaled frames where there are any (R211). -/
def routeInput (s : State) (d : Nat) (next : Bool) (c : RouteCfg) : Handle :=
  if dKind d = 1 then layerInput s (dHead d) (dLayer d) next c else c.source

/-- Handle of the encode context or recorded stream a destination names. -/
def destHandle (d : Nat) : Handle := handleOf (dPart d) (if dKind d = 2 then 9 else 6) (dIndex d)

/-- Timing domain of a destination; 31 for a recorded stream (R182, R188). It is that of the active
set (DESIGN CHOICE, log entry 98). -/
def destTd (s : State) (d : Nat) : Nat :=
  match dKind d with
  | 1 => (headGet s (dHead d)).act.mode.td
  | 2 => ((tget s.pool.encodes (destHandle d)).map (fun e => e.td)).getD 0
  | 4 => ((tget s.eth.flows (dIndex d)).map (fun f => f.td)).getD 0
  | _ => 31

/-- Q of a route's conversion stream (Table 6-3). -/
def routeQ (s : State) (d : Nat) (next : Bool) (st : HeadSet) (c : RouteCfg) : Nat :=
  let n := pixelsOf (fmtAt s next (routeInput s d next c))
  match c.mode with
  | 1 =>
    let da := destDA d st
    let w : Frac := ⟨da.num - 50 * da.den, da.den⟩
    chargeQ (kernelK 3 0) n w
  | 2 => chargeQ (kernelK 2 c.variant) n (periodUs (destRate s d st))
  | _ => 0

def routeFive (s : State) (d : Nat) (next : Bool) (st : HeadSet) (c : RouteCfg) : Frac :=
  let n := pixelsOf (fmtAt s next (routeInput s d next c))
  match c.mode with
  | 1 => classFive 3 n (rate1001 (destRate s d st))
  | 2 => classFive 2 n (rate1001 (destRate s d st))
  | _ => ⟨0, 1⟩

/-- The partition that owns a destination (R167, R170). -/
def destOwner (s : State) (d : Nat) : Nat :=
  match dKind d with
  | 1 => holder s 0 (dHead d)
  | 4 => ((tget s.eth.flows (dIndex d)).map (fun f => f.owner)).getD 0
  | _ => dPart d

/-- Q_p: the charges of a partition's job streams at rung 0 (R155). -/
def partQ (s : State) (p : Nat) : Nat :=
  ((tkeys s.dests).map (fun d => if destOwner s d = p then
        fceil (destNeed s d (fun n st c => ⟨routeQ s d n st c, 1⟩)) else 0)).sum
    + (s.procs.map (fun e => if hPart e.1 = p then procQ s e else 0)).sum

/-- The charge of pending one-shot jobs, C × 1,000 / DEADLINE_US, exact (R153). -/
def oneShot (s : State) (p : Nat) : Frac :=
  fsum (s.engines.jobs.map (fun e =>
    if e.2.stream.isNone ∧ e.2.part = p ∧ e.2.state ≠ 2 then
      ⟨e.2.costNum * 1000, e.2.costDen * max 1 e.2.deadlineUs⟩ else ⟨0, 1⟩))

/-- Available capacity in engine-µs per ms (R156). -/
def capacity (s : State) : Frac :=
  ⟨(512 - s.engines.offline.length) * 1000 * s.engines.clockMHz, 1600⟩

/-- B'_p = ⌊B_p × capacity / 512,000⌋ (R156). -/
def effBudget (s : State) (p : Nat) : Nat :=
  quotaOf s p 7 * (capacity s).num / (512000 * (capacity s).den)

/-! ### Shortfalls (R48, Table 2-8) -/

/-- One key of one code: what the configuration needs of it, the part of the need whose rise makes a
commit answerable for it, and the limit. -/
structure Need where
  code : Nat
  key : Nat
  need : Frac
  own : Frac
  limit : Frac
  deriving DecidableEq, Repr

def needOf (code key : Nat) (n : Frac) (limit : Nat) : Need := ⟨code, key, n, n, ⟨limit, 1⟩⟩

/-- The unit a stream will run on once a pending change has applied (R91, R104). -/
def nextIc (x : Source) : Nat :=
  match x.pendingFmt with
  | some (f, _, _) => if f.ic = 15 then x.ic else f.ic
  | none => x.ic

/-- IC streams and imports, with the unit each runs on (R91). -/
def icRate (s : State) (u : Nat) : Frac :=
  fsum (s.sources.map (fun e =>
    if e.2.deleted then ⟨0, 1⟩
    else
      let a := if e.2.ic = u then pixelRate e.2.fmt else ⟨0, 1⟩
      match e.2.pendingFmt with
      | some (f, _, _) => let b := if nextIc e.2 = u then pixelRate f else ⟨0, 1⟩
                          if fgt b a then b else a
      | none => a))

/-- Streams an IC unit holds, or will hold once a pending move has applied (R91, R104). -/
def icStreams (s : State) (u : Nat) : Nat :=
  (s.sources.filter (fun e => !e.2.deleted && decide (e.2.ic = u ∨ nextIc e.2 = u))).length

def fscale (a : Frac) (d : Nat) : Frac := ⟨a.num, a.den * d⟩

def fmul (a b : Frac) : Frac := ⟨a.num * b.num, a.den * b.den⟩

/-- Ingress writes in kB/s (class 1). -/
def ingressBytes (s : State) : Frac :=
  fsum (s.sources.map (fun e =>
    if e.2.deleted ∨ 8 ≤ e.2.ic then ⟨0, 1⟩
    else
      srcNeed s e.1 (fun f => fscale (fmul (pixelRate f) (storeBytes (storeOf f))) 1000)))

/-- Pixel rate of a decode context (R95). -/
def decodeRate (c : DecodeCtx) : Frac := ⟨c.maxW * c.maxH * rate1001 c.rate, 1001⟩

def encodeRate (c : EncodeCtx) : Frac := ⟨c.w * c.h * rate1001 c.rate, 1001⟩

/-- The recorded streams that record an entry, now or after a pending route, with the larger MAX_KBPS of the two
(R48, R329). -/
def recordedEntries (s : State) : List (Nat × Nat) :=
  (tkeys s.dests).filterMap (fun d =>
    let l := (nowViews s d ++ nextViews s d).map (fun v => ((tget s.eth.entries v.2.source).map (fun e => e.maxKbps)).getD 0)
    if dKind d = 3 ∧ l ≠ [] then some (d, l.foldl max 0) else none)

/-- The pre-roll part of a FALLBACK stream's buffer, in 4 KiB units (R329). -/
def prerollUnits (r : Recording) (kbps : Nat) : Nat :=
  if r.fallback then cdiv (15625 * kbps * r.preroll) (100 * 4096000) else 0

/-- Bitstream area in 4 KiB units: decode buffers (R99) and recording buffers (R329). -/
def areaUnits (s : State) : Nat :=
  (s.decodes.map (fun e => cdiv (2 * e.2.maxAu) 4096)).sum
    + ((recordedEntries s).map (fun e =>
        let r := tget s.pool.streams (handleOf (dPart e.1) 6 (dIndex e.1))
        max 8 (cdiv (25 * e.2) (4 * 4096))
          + (match r with
            | some r => prerollUnits r e.2
            | none => 0))).sum

/-- Bytes of the bitstream buffers (class 6) in kB/s: what the entries write, what their relays read and what the
recorder reads, at MAX_KBPS each. DESIGN CHOICE (log entry 90): Table 1-7 names the three parts and no formula. -/
def bitstreamBytes (s : State) : Frac :=
  ⟨(s.eth.entries.map (fun e => e.2.maxKbps * (1 + e.2.relays.length))).sum
    + ((recordedEntries s).map (fun e => e.2)).sum, 8⟩

/-- The bitstream area, reported as class 6 in its own unit (R48). -/
def areaNeed (s : State) : Need := needOf 7 6 ⟨areaUnits s, 1⟩ 131072

/-- One class of Table 1-7: need in kB/s, and its cap. DESIGN CHOICE (log entry 91): a decode or encode context needs
its core's 7.5 or 8.0 GB/s in proportion to its pixel rate. -/
def classNeed (s : State) (k : Nat) : Need :=
  match k with
  | 1 => needOf 7 1 (ingressBytes s) 192000000
  | 2 => needOf 7 2 (fsum ((tkeys s.heads).map (headFetch s))) 304100000
  | 3 => needOf 7 3 (fsum (s.decodes.map (fun e => fscale (fmul (decodeRate e.2) ⟨7500000, 1⟩) 497664000))) 360000000
  | 4 => needOf 7 4 (fsum (s.pool.encodes.map (fun e => fscale (fmul (encodeRate e.2) ⟨8000000, 1⟩) 497664000))) 128000000
  | 5 => needOf 7 5 (fscale (fadd
      (fsum (s.procs.map (procFive s)))
      (fadd (fsum ((tkeys s.dests).map (fun d => destNeed s d (routeFive s d))))
        (fsum (s.engines.jobs.map (fun e =>
          if e.2.stream.isNone ∧ e.2.state ≠ 2 then
            ⟨kernelF e.2.kernel * e.2.pixels * 1000000, max 1 e.2.deadlineUs⟩ else ⟨0, 1⟩))))) 1000) 256000000
  | 6 => needOf 7 6 (bitstreamBytes s) 210000000
  | 7 => needOf 7 7 (fsum (s.shifts.map (fun e =>
      srcNeed s e.1 (fun f =>
        ⟨2 * footprint f * 65536 * rate1001 f.rate, 1001 * max 1 e.2.keepEvery * 1000⟩)))) 40000000
  | _ => needOf 7 8 (fsum (s.sources.map (fun e =>
      if e.2.kind = .surface ∧ !e.2.deleted then
        srcNeed s e.1 (fun f => ⟨f.width * f.height * 4 * rate1001 f.rate, 1001 * 1000⟩)
      else ⟨0, 1⟩))) 32000000

/-- The ports an address block names: a pair's entry is charged on both (R306). -/
def portsOf (port : Nat) : List Nat := if port < 8 then [port] else [2 * (port - 8), 2 * (port - 8) + 1]

/-- Bits per pixel of a sampling and depth (R240). -/
def bitsPerPixel (sampling depth : Nat) : Nat := (if sampling = 2 then 2 else 3) * (8 + 2 * depth)

/-- Charges of Table 13-1 as (port, sub-port, transmit, Mb/s). -/
def portCharges (s : State) : List (Nat × Nat × Nat × Frac) :=
  s.eth.entries.flatMap (fun e =>
    let k : Frac := ⟨e.2.maxKbps * 105, 100000⟩
    (if e.2.encoder.isNone then (portsOf e.2.addr.port).map (fun p => (p, e.2.addr.subport, 0, k)) else [])
      ++ e.2.relays.flatMap (fun t => (portsOf t.2.port).map (fun p => (p, t.2.subport, 1, k))))
  ++ s.eth.flows.flatMap (fun f =>
    let k : Frac :=
      if f.2.essence = 2 then ⟨2, 1⟩
      else if f.2.essence = 0 then
        (if f.2.tx then
          fscale (fmul (pixelRate f.2.fmt) ⟨bitsPerPixel f.2.fmt.sampling f.2.fmt.depth * 105, 100⟩) 1000000
        else fsum (s.sources.map (fun e => match e.2.kind with
          | .st2110 fl _ _ => if fl = f.1 ∧ !e.2.deleted then
              srcNeed s e.1 (fun f => fscale (fmul (pixelRate f) ⟨bitsPerPixel f.sampling f.depth * 105, 100⟩) 1000000)
            else ⟨0, 1⟩
          | _ => ⟨0, 1⟩)))
      else
        let n := (s.audio.outputs.map (fun o => if o.1 = 2 * 2 ^ 28 + f.1 ∧ f.2.tx then o.2.channels else 0)).sum
          + (s.audio.inputs.map (fun i => if i.2.flow = some f.1 ∧ !f.2.tx then i.2.channels else 0)).sum
        ⟨n * 48000 * 24 * 125, 100 * 1000000⟩
    (portsOf f.2.addr.port).map (fun p => (p, f.2.addr.subport, b1 f.2.tx, k)))

/-- The need on one port or sub-port and direction (R306). -/
def portNeed (s : State) (p sub tx : Nat) : Need :=
  let broken := ((tget s.eth.ports p).map (fun e => e.breakout)).getD false
  needOf 12 (p + 16 * sub + 256 * tx)
    (fsum ((portCharges s).map (fun c =>
      if c.1 = p ∧ c.2.2.1 = tx ∧ (c.2.1 = sub) then c.2.2.2 else ⟨0, 1⟩)))
    (if broken then 24000 else 96000)

/-- Segments in use by a partition's streams (quota 10). -/
def segUse (s : State) (p : Nat) : Nat :=
  (s.pool.segments.filter (fun e => decide (hPart e.stream = p))).length
    + (s.pool.streams.map (fun e => if hPart e.1 = p then b1 e.2.seg.isSome + e.2.unplaced.length else 0)).sum

/-- Every need in the order of Table 2-8, keys ascending within a code. -/
def needsOf (s : State) : List Need :=
  let ps := List.range 16
  let rec_ := recordedEntries s
  let ingest : Frac := fsum (rec_.map (fun e => ⟨e.2 * 105, 100⟩))
  ps.map (fun p => needOf 1 p ⟨tier1Use s p, 1⟩ (quotaOf s p 8))
    ++ [needOf 2 0 ⟨tier0Reserved s, 1⟩ 192, needOf 2 1 ⟨tier1All s, 1⟩ 720896,
        needOf 2 2 ⟨(s.shifts.map (fun e => e.2.tier2)).sum, 1⟩ (totalOf s 9)]
    ++ ps.map (fun p => needOf 3 p (fadd ⟨partQ s p, 1⟩ (oneShot s p)) (effBudget s p))
    ++ [let q := (⟨(ps.map (partQ s)).sum, 1⟩ : Frac)
        ⟨4, 0, q, q, capacity s⟩]
    ++ (List.range 64).map (fun h => needOf 5 h (headLines s h) 98304)
    ++ (List.range 64).map (fun h => needOf 6 h (headFetch s h) 4752000)
    ++ [1, 2, 3, 4, 5, 6].map (classNeed s) ++ [areaNeed s] ++ [7, 8].map (classNeed s)
    ++ (List.range 48).map (fun k => needOf 8 k
        (fsum (s.decodes.map (fun e => if e.2.core = k then decodeRate e.2 else ⟨0, 1⟩))) 497664000)
    ++ [needOf 8 48 ⟨(s.decodes.map (fun e => e.2.refUnits)).sum, 1⟩ 3456]
    -- a core's 16 contexts are the same limit in pix/s where each context counts at least a sixteenth of it (R343)
    ++ (List.range 16).flatMap (fun k =>
        let l := s.pool.encodes.filter (fun e => decide (e.2.core = k))
        [needOf 9 k (fsum (l.map (fun e => encodeRate e.2))) 497664000, needOf 9 k ⟨31104000 * l.length, 1⟩ 497664000])
    ++ (List.range 8).map (fun u => needOf 10 u (fscale (icRate s u) 1000) 6000000)
    ++ ps.map (fun p =>
        let n := (rec_.filter (fun e => decide (dPart e.1 = p))).length
        -- a route that a COMMIT brings counts as a change even where the stream had one (R329)
        let new := ((tkeys s.dests).filter (fun d => decide (dKind d = 3 ∧ dPart d = p ∧ nextViews s d ≠ nowViews s d
          ∧ nextViews s d ≠ []))).length
        ⟨11, p, ⟨segUse s p + b1 (decide (0 < n)), 1⟩, ⟨n + new, 1⟩, ⟨quotaOf s p 10, 1⟩⟩)
    ++ ps.map (fun p =>
        ⟨11, 256 + p, ingest,
          fsum (rec_.map (fun e => if dPart e.1 = p then ⟨e.2 * 105, 100⟩ else ⟨0, 1⟩)), ⟨80000000, 1⟩⟩)
    ++ [0, 1].flatMap (fun tx => (List.range 4).flatMap (fun sub =>
        (List.range 8).map (fun p => portNeed s p sub tx)))

/-- The first need of a hypothetical configuration that exceeds its limit and that the change has raised
(R48): a configuration that lowers what it already holds is not refused for it. -/
def shortfall (s s' : State) : Option Need :=
  ((needsOf s).zip (needsOf s')).findSome? (fun e =>
    if fgt e.2.need e.2.limit && fgt e.2.own e.1.own then some e.2 else none)

/-- Words 4 and 5 of code 10 count the streams the command places or changes on the unit, and the rate
the others leave (R91). -/
def spareOf (s s' : State) (n : Need) : Need :=
  if n.code = 10 then
    let kept := icRate { s' with sources := s'.sources.filter (fun e => 
      decide ((tget s.sources e.1).map (fun x => (x.ic, x.fmt, x.pendingFmt)) = some (e.2.ic, e.2.fmt, e.2.pendingFmt))) } n.key
    { n with need := ⟨n.need.num * 1000 * kept.den - kept.num * n.need.den, n.need.den * 1000 * kept.den⟩
             limit := ⟨6000000000 * kept.den - kept.num, 1000 * kept.den⟩ }
  else n

/-- Result words of ERR_ADMISSION (Table 2-8, R48). -/
def shortWords (n : Need) (item : Word) : List Word :=
  [word n.code, word n.key, word (fceil n.need), word (ffloor n.limit), item, 0]

/-- Admission of a create command: none staged, so word 6 is 0. -/
def admitted (s s' : State) (k : CmdOut) : CmdOut :=
  match shortfall s s' with
  | some n => .fail .admission (shortWords (spareOf s s' n) 0)
  | none => k

/-! ### Effective depth of a ring (R117) -/

/-- Consumers of a source with their hold in µs and the partition that owns them, the source's period being T_in. -/
def consumers (s : State) (h : Handle) (tin : Frac) : List (Frac × Nat) :=
  (tkeys s.dests).flatMap (fun d =>
    ((nowViews s d).map (fun v => (false, v)) ++ (if waitingChange s d then (nextViews s d).map (fun v => (true, v)) else [])).filterMap
      (fun (n, v) =>
        if dKind d = 3 ∨ routeInput s d n v.2 ≠ h then none
        else if v.2.mode = 0 then
          some (if dKind d = 1 then layerHold v.1 else periodUs (destRate s d v.1), destOwner s d)
        else some (fadd (fadd (periodUs (destRate s d v.1)) tin) ⟨50, 1⟩, destOwner s d)))
  ++ s.procs.flatMap (fun e => ([e.2.params] ++ e.2.pending.toList).filterMap (fun p =>
    if e.2.input = h then
      some (fadd ⟨tin.num * (if p.kernel = 4 ∧ p.variant = 0 then 3 else 1), tin.den⟩ ⟨50, 1⟩, hPart e.1)
    else if e.1 = h ∧ p.kernel = 6 ∧ p.variant = 0 then some (fadd tin ⟨50, 1⟩, hPart e.1)
    else none))
  ++ s.shifts.filterMap (fun e => if e.2.source = h then some (tin, hPart h) else none)

/-- The longest hold and who pays for the slots it adds: on a tie the lower partition (R117). -/
def longestHold (l : List (Frac × Nat)) : Option (Frac × Nat) :=
  l.foldl (fun (b : Option (Frac × Nat)) x =>
    match b with
    | none => some x
    | some y => if fgt x.1 y.1 || (!fgt y.1 x.1 && decide (x.2 < y.2)) then some x else some y) none

/-- The effective depth of a ring whose source has a format, and the payer of its extension slots (R117). -/
def depthWith (s : State) (h : Handle) (f : Format) : Nat × Nat :=
  let tsrc := periodUs f.rate
  match longestHold (consumers s h tsrc) with
  | none => (f.ringDepth, (srcGet s h).owner)
  | some (t, p) => (max f.ringDepth (cdiv (t.num * tsrc.den) (t.den * tsrc.num) + 2), p)

/-- The effective depth of a ring and the payer of its extension slots: the larger of old and new while a change of
format waits (R48, R117, R126); the RING_DEPTH is the new one, to which the old ring's slots come on top (R128). -/
def effDepth (s : State) (h : Handle) : Nat × Nat :=
  let a := depthWith s h { (srcGet s h).fmt with ringDepth := (nextFmt s h).ringDepth }
  let b := depthWith s h (nextFmt s h)
  if a.1 < b.1 then b else a

/-- Bring a ring to its effective depth (R117): extension slots are added for the partition that holds longest and
pays for those that stay; slots beyond the depth are surplus, and keep their payer until their objects are free. -/
def markRing (h : Handle) (s : State) : State :=
  match tget s.sources h with
  | none => s
  | some x =>
    if x.deleted ∨ x.slots.isEmpty then s
    else
      let (depth, payer) := effDepth s h
      let live := x.slots.filter (fun e => !e.surplus)
      let drop := ((live.filter (fun e => e.ext)).reverse.take (live.length - depth)).map (fun e => e.id)
      addSlots h (footprint (nextFmt s h)) payer true (depth - live.length) (srcMod h (fun x => { x with
        slots := x.slots.map (fun e =>
          if e.id ∈ drop then { e with surplus := true }
          else if e.ext && !e.surplus then { e with payer := payer } else e) }) s)

/-- Bring every ring to its effective depth; nothing leaves yet. -/
def markRings (s : State) : State := (tkeys s.sources).foldl (fun s h => markRing h s) s

/-- Surplus slots whose objects are free leave (R117, R126, R128). -/
def settleRings (s : State) : State :=
  (tkeys s.routes).foldl (fun s h => settleRing h s) ((tkeys s.sources).foldl (fun s h => settleRing h s) s)

/-- Rings in service follow their consumers. -/
def resizeRings (s : State) : State := settleRings (markRings s)

end Sys2Proof.Machine
end

