-- ==== Sys2Proof/Machine/Spinning.lean ====
section
/-! DEFINITION. Spinning Top: job streams and ladders (R154–R158), release, dispatch and end of jobs
(R141–R153, R159, R164), what follows the close of an object (R122, R123, R149), and the deletion of a
source (R90, R130, R151). -/

namespace Sys2Proof.Machine

open Sys2Proof

/-! ### Job streams (R154, R157) -/

/-- A job stream as Spinning Top sees it: kernel and variant at rung 0, its ladder, the rung it runs on,
output pixels, and the window of each kernel it may run (Table 6-3). -/
structure JobStream where
  handle : Handle
  part : Nat
  kv : Nat × Nat
  ladder : Ladder
  rung : Nat
  pixels : Nat
  window : Nat → Frac
  /-- The rung of the present form until a handed-off MODIFY_ROUTE applies, where that resets `rung` (R185); else 0. -/
  nowRung : Nat := 0
  /-- The form it will have once a change that has been handed off applies (R48). -/
  next : Option ((Nat × Nat) × Nat × (Nat → Frac)) := none

/-- Kernel and variant at a rung; none on the implicit last rung (R157). -/
def rungKV (kv : Nat × Nat) (l : Ladder) (rung : Nat) : Option (Nat × Nat) :=
  if rung = 0 then some kv else l.rungs[rung - 1]?

/-- Kernel and variant of a route's mode at rung 0 (Table 7-7). -/
def modeKV (mode variant : Nat) : Option (Nat × Nat) :=
  match mode with
  | 1 => some (3, 0)
  | 2 => some (2, variant)
  | _ => none

/-- The window of a route's kernel (Table 6-3). -/
def routeWindow (s : State) (d : Nat) (st : HeadSet) (k : Nat) : Frac :=
  if k = 3 then let da := destDA d st; ⟨da.num - 50 * da.den, da.den⟩ else periodUs (destRate s d st)

/-- The job stream of a route under a head set, in a mode. -/
def routeStream (s : State) (d : Nat) (later : Bool) (st : HeadSet) (e : Handle × Nat × Nat) : Option JobStream :=
  match tget s.routes e.1 with
  | none => none
  | some r => (modeKV e.2.1 e.2.2).map (fun kv =>
      let i := routeInput s d later ⟨r.source, e.2.1, e.2.2⟩
      { handle := e.1, part := destOwner s d, kv := kv, ladder := r.ladder
        rung := if later then r.rungNext.getD r.rung else r.rung
        pixels := pixelsOf (if later then nextFmt s i else (srcGet s i).fmt)
        window := routeWindow s d st })

/-- Handle, mode and variant of a route. -/
def routeForm (s : State) (h : Handle) : Option (Handle × Nat × Nat) :=
  (tget s.routes h).map (fun r => (h, r.mode, r.variant))

/-- The job streams of the routes in force at a destination. -/
def nowStreams (s : State) (d : Nat) : List JobStream :=
  let x := destGet s d
  (([x.active, x.incoming].filterMap (fun r => r.bind (routeForm s))).filterMap
    (routeStream s d false (setsOf s d).1))

/-- The routes of a destination once what has been handed off applies, the one fading out included. -/
def nextForms (s : State) (x : Dest) : List (Handle × Nat × Nat) :=
  let start := match x.incoming with
    | some r => (routeForm s r, x.active.bind (routeForm s))
    | none => (x.active.bind (routeForm s), none)
  let done := x.pending.foldl (fun a p => match p.1 with
    | none => a
    | some (.add r n) => (routeForm s r, if 0 < n then a.1 else none)
    | some (.modify _ m v) => (a.1.map (fun e => (e.1, m, v)), none)
    | some (.delete _ n) => (none, if 0 < n then a.1 else none)) start
  [done.1, done.2].filterMap id

/-- Their job streams, where something waits to apply. -/
def nextStreams (s : State) (d : Nat) : List JobStream :=
  if waitingChange s d then
    (nextForms s (destGet s d)).filterMap (routeStream s d true (((setsOf s d).2).getD (setsOf s d).1))
  else []

/-- The job stream of a processed source. -/
def procStream (s : State) (e : Handle × Proc) : JobStream :=
  let p := e.2.pending.getD e.2.params
  let f := nextFmt s e.2.input
  { handle := e.1, part := hPart e.1, kv := (e.2.params.kernel, e.2.params.variant)
    ladder := e.2.ladder, rung := e.2.rung
    pixels := pixelsOf (procFormat e.2.params (srcGet s e.2.input).fmt)
    window := fun _ => periodUs (srcGet s e.2.input).fmt.rate
    next := some ((p.kernel, p.variant), pixelsOf (procFormat p f), fun _ => periodUs f.rate) }

/-- The job streams of a destination, each once: as it runs, and as it will run. -/
def destStreams (s : State) (d : Nat) : List JobStream :=
  let a := nowStreams s d
  let b := nextStreams s d
  a.map (fun t => match b.find? (fun u => decide (u.handle = t.handle)) with
    | some u => { t with
        next := some (u.kv, u.pixels, u.window), rung := u.rung, nowRung := if u.rung = t.rung then 0 else t.rung }
    | none => t) ++ b.filter (fun u => !a.any (fun t => decide (t.handle = u.handle)))

/-- Every generated job stream of a partition. -/
def streamsOf (s : State) (p : Nat) : List JobStream :=
  ((tkeys s.dests).flatMap (destStreams s) ++ s.procs.map (procStream s)).filter (fun t => decide (t.part = p))

/-- The charge of a form at a rung: 0 on the last (R157). -/
def chargeOf (l : Ladder) (rung : Nat) (kv : Nat × Nat) (pixels : Nat) (window : Nat → Frac) : Nat :=
  match rungKV kv l rung with
  | none => 0
  | some (k, v) => chargeQ (kernelK k v) pixels (window k)

/-- The charge of a stream at a rung: the larger of what it is and what it will be (R48). -/
def chargeAt (t : JobStream) (rung : Nat) : Nat :=
  max (chargeOf t.ladder (max t.nowRung rung) t.kv t.pixels t.window) (match t.next with
    | some (kv, n, w) => chargeOf t.ladder rung kv n w
    | none => 0)

/-- Q_p with every stream at the rung it runs on: of each destination the larger of old and new (R48,
R156, R157). -/
def liveQ (s : State) (p : Nat) : Nat :=
  let sum := fun (l : List JobStream) => (l.map (fun t => chargeAt t t.rung)).sum
  ((tkeys s.dests).map (fun d => if destOwner s d = p then max (sum (nowStreams s d)) (sum (nextStreams s d)) else 0)).sum
    + sum ((s.procs.map (procStream s)).filter (fun t => decide (t.part = p)))

/-- Streams below rung 0 (R166). -/
def degraded (s : State) (p : Nat) : List JobStream := (streamsOf s p).filter (fun t => decide (0 < t.rung))

/-- The number of job streams (R154), those of routes handed off included. -/
def streamCount (s : State) : Nat :=
  s.procs.length
    + ((tkeys s.dests).map (fun d =>
        let x := destGet s d
        let now_ := [x.active, x.incoming].filterMap (fun r => r.bind (routeForm s))
        (((now_ ++ nextForms s x).filter (fun e => decide (e.2.1 ≠ 0))).map Prod.fst).dedup.length)).sum

/-! ### Jobs -/

def jobGet (s : State) (j : Handle) : Job := (tget s.engines.jobs j).getD { part := 0, kernel := 0, variant := 0 }

def setEngines (e : Engines) (s : State) : State := { s with engines := e }

def jobPut (j : Handle) (x : Job) (s : State) : State :=
  setEngines { s.engines with jobs := tset s.engines.jobs j x } s

def jobDel (j : Handle) (s : State) : State :=
  setEngines { s.engines with jobs := tdel s.engines.jobs j } s

/-- The ready job that goes first: earliest deadline, then lower handle (R152). -/
def firstJob (s : State) : Option Handle :=
  (s.engines.jobs.foldl (fun (b : Option (Frac × Handle)) e =>
    if e.2.itemsWaiting = 0 ∨ e.2.state = 2 then b
    else match b with
      | none => some (e.2.deadline, e.1)
      | some y =>
        if fgt y.1 e.2.deadline || (!fgt e.2.deadline y.1 && decide (e.1 < y.2)) then some (e.2.deadline, e.1)
        else some y) none).map Prod.snd

/-- Engine e starts a work item of job j: its local memory is cleared first if its last item was another
partition's (R141, R152). -/
def startItem (e : Nat) (j : Handle) (s : State) : State :=
  let x := jobGet s j
  setEngines { s.engines with
    busy := tset s.engines.busy e j
    lastPart := tset s.engines.lastPart e x.part
    localMem := if tget s.engines.lastPart e = some x.part then s.engines.localMem else tdel s.engines.localMem e
    jobs := tset s.engines.jobs j { x with
      itemsWaiting := x.itemsWaiting - 1, itemsRunning := x.itemsRunning + 1, state := 1 } } s

/-- Every idle online engine takes the next work item, earliest deadline first (R152). -/
def dispatch (s : State) : State :=
  if (firstJob s).isNone then s
  else ((List.range 512).filter (fun e =>
      !decide (e ∈ s.engines.offline) && (tget s.engines.busy e).isNone)).foldl (fun s e =>
    match firstJob s with
    | none => s
    | some j => startItem e j s) s

/-- Work items of a job: at least one for each output tile (R142). -/
def itemsOf (k v : Nat) (f : Format) : Nat :=
  cdiv f.width (tileWidth (storeOf f)) * cdiv (objHeight f) 32 + Config.extraItems k v (pixelsOf f)

/-- The handle of a new job. -/
def newJob (p : Nat) (x : Job) (s : State) : Handle × State :=
  let (j, s1) := newHandle p 5 s
  (j, x.inputs.foldl (fun s id => addRef id (.job j) s) (jobPut j x s1))

/-! ### Release of source-paced jobs (R146, R149, R161) -/

/-- The object of a source with the given sequence number, while its slot still holds it. -/
def objOfSeq (s : State) (h : Handle) (q : Nat) : Option Nat :=
  ((srcGet s h).slots.find? (fun e =>
    let o := objGet s e.id
    decide (o.source = h ∧ o.seq = q ∧ o.closeOrder ≠ 0) && !o.writing)).map (fun e => e.id)

/-- The fields that KRN_DEINT variant 0 reads before an object of a source, newest first: the two before it (R149). -/
def fieldsBefore (s : State) (k v : Nat) (h : Handle) (o : Obj) : List Nat :=
  if k = 4 ∧ v = 0 then [1, 2].filterMap (fun n => if n < o.seq then objOfSeq s h (o.seq - n) else none) else []

/-- A processed source takes its parameters, and the format of the input object whose close releases the job: an object
of the old format that closes after a change keeps the old one (R161). -/
def adoptProc (id : Nat) (ph : Handle) (x : Proc) (s : State) : State :=
  let prm := x.pending.getD x.params
  let fin := (objGet s id).fmt
  let f := procFormat prm fin
  let s1 := { s with procs := tset s.procs ph { x with params := prm, pending := none, inFmt := fin } }
  srcMod ph (fun y => { y with
    fmt := f
    pendingFmt := match y.pendingFmt with
      | some (g, p, e) => if g = f then none else some (g, p, e)
      | none => none }) s1

/-- Release the job of a processed source on the object its input has just closed. -/
def releaseProc (id : Nat) (ph : Handle) (s : State) : State :=
  match tget s.procs ph with
  | none => s
  | some x0 =>
    let s1 := adoptProc id ph x0 s
    let x := (tget s1.procs ph).getD x0
    match rungKV (x.params.kernel, x.params.variant) x.ladder x.rung with
    | none => s1
    | some (k, v) =>
      let o := objGet s1 id
      let y := srcGet s1 ph
      match pickSlot s1 ph with
      | none => ringStarved ph s1
      | some slot =>
        let s2 := takeSlot ph slot { objGet s1 slot with
          format := storeOf y.fmt, variant := variantOf y.fmt, w := y.fmt.width, h := objHeight y.fmt
          parity := if k = 4 then 0 else o.parity
          colour := if k = 5 then y.fmt.colour else o.colour
          patched := o.patched, concealed := o.concealed, vuiAbsent := o.vuiAbsent, recalled := o.recalled
          capture := o.capture, ptpSeconds := o.ptpSeconds, ptpNanos := o.ptpNanos, ptpLock := o.ptpLock
          pre := if x.prescale.isSome then some o.fmt else none
          latest := false, closeOrder := 0, refs := [], content := .black } s1
        let past := if k = 4 then fieldsBefore s2 k v x.input o else if k = 6 ∧ v = 0 then y.latest.toList else []
        let t := fadd ⟨now s2 + 50, 1⟩ (periodUs x.inFmt.rate)
        let c := costC (kernelK k v) (pixelsOf y.fmt)
        (newJob y.owner {
          part := y.owner, seq := o.seq, stream := some ph, kernel := k, variant := v
          dataWords := (tget ((tget s2.parts y.owner).getD {}).kernelData x.params.slot).getD []
          inputs := id :: past, target := ph, outSlot := some slot
          rect := ⟨0, 0, y.fmt.width, objHeight y.fmt⟩, pixels := pixelsOf y.fmt
          costNum := c.num, costDen := c.den, released := now s2, deadline := t
          itemsWaiting := itemsOf k v y.fmt } s2).2

/-! ### After the close of an object -/

/-- A time-shift buffer keeps every KEEP_EVERY-th frame its source closes, and starts its spill
(R122, R123). -/
def keepFrame (h : Handle) (id : Nat) (s : State) : State :=
  match s.shifts.find? (fun e => decide (e.2.source = h)) with
  | none => s
  | some (dh, x) =>
    if x.skip + 1 < x.keepEvery then { s with shifts := tset s.shifts dh { x with skip := x.skip + 1 } }
    else
      let o := objGet s id
      let full := decide (x.frames ≤ x.kept.length)
      let s1 := match x.kept with
        | k :: _ => if full && k.spilling then dropRef k.slot (.spill h) s else s
        | [] => s
      addRef id (.spill h) { s1 with shifts := tset s1.shifts dh { x with
        skip := 0
        kept := (if full then x.kept.drop 1 else x.kept) ++ [{
          capture := o.capture, seq := o.seq, spilling := true, slot := id, info := { o with refs := [] } }] } }

/-- A closed frame of an export, framed on its channel of a ring (R286, R362, R369). -/
def sendChannel (r xport : Nat) (o : Obj) (s : State) : State :=
  let p := s.domino.rxPorts.getD r 0 + 16
  let k := o.colour
  let f := (srcGet s o.source).fmt
  sendSeq p 0 (lanesOf (portGet s p))
    (framed (64 * s.domino.member + xport) o.seq (b1 (decide (o.parity ≠ 0)) + 2 * b1 (decide (o.parity = 2)) + 8)
      (k.matrix + 8 * k.transfer + 32 * k.primaries + 128 * b1 k.full) f.sampling f.depth o.w
      ((List.range o.h).map (objectLine f.sampling f.depth o.w s.free o))) { s with free := s.free + 1 }

/-- A closed frame goes out on its exports' channels, one on each ring with subscribers; an export that has been
ended ends here, at its next FS (R369, R372). -/
def exportFrame (h : Handle) (id : Nat) (s : State) : State :=
  s.domino.exports.foldl (fun s e =>
    if e.2.source ≠ h then s
    else if e.2.ending then { s with domino := { s.domino with
      exports := tdel s.domino.exports e.1, subs := s.domino.subs.filter (fun u => decide (u.xport ≠ e.1)) } }
    else (((s.domino.subs.filter (fun u => decide (u.xport = e.1))).map (fun u => u.ring)).dedup).foldl
      (fun s r => sendChannel r e.1 (objGet s id) s) s) s

/-- The first fourteen bytes of a REQUEST block (Table 16-1): from, to, number, kind, export, ring, partition. -/
def requestBytes (from_ dst n kind xport ring part : Nat) : List Byte :=
  [0xE1, 0] ++ [from_, dst, n % 256, n / 256, kind, xport, ring, part, 0, 0, 0, 0].map (fun k => BitVec.ofNat 8 k)

/-- What follows when source h has closed object id. -/
def afterClose (h : Handle) (id : Nat) (s0 : State) : State :=
  let s := exportFrame h id s0
  dispatch ((tkeys s.procs).foldl (fun s ph =>
    if ((tget s.procs ph).map (fun x => x.input)) = some h then releaseProc id ph s else s) (keepFrame h id s))

/-! ### End of a job -/

/-- A colour of kernel data at an object's depth (R148); the manual gives no rounding, and no alpha. -/
def shapeColour (format variant : Nat) (w : Word) : Px :=
  let v := fun (n : Nat) => if sampleBits format variant = 8 then divOpen n 4 else n
  (v (bits w 9 0), v (bits w 19 10), v (bits w 29 20), Config.shapeAlpha variant)

/-- The first n masks of a set over a picture of i.w × i.h pixels, clipped at its edge (R148, Table 6-2). -/
def maskOver (i : Obj) (ws : List Word) (base : Content) : Nat → Content
  | 0 => base
  | n + 1 =>
    let c := maskOver i ws base n
    let at_ := fun k => wd ws (1 + 10 * n + k)
    let point := fun k => (bits (at_ (2 + k)) 15 0, bits (at_ (2 + k)) 31 16)
    let fill := if bits (at_ 0) 3 2 = 0 then .solid (shapeColour i.format i.variant (at_ 1))
      else .mosaic c (8 * 2 ^ bits (at_ 0) 7 4) i.w i.h (decide (i.format ≠ 1))
    if bits (at_ 0) 1 0 = 1 then
      .patch c ⟨(point 0).1, (point 0).2, min i.w (point 1).1, min i.h (point 1).2⟩ fill
    else .poly c ((List.range (bits (at_ 0) 11 8)).map point) fill

/-- The first n strings of a glyph set over a picture (R148, Table 6-2). -/
def glyphsOver (i : Obj) (ws : List Word) (base : Content) : Nat → Content
  | 0 => base
  | n + 1 =>
    let at_ := fun k => wd ws (1 + 34 * n + k)
    let bytes := bytesOf ((List.range 30).map (fun k => at_ (4 + k)))
    .text (glyphsOver i ws base n) (bits (at_ 0) 15 0) (bits (at_ 0) 31 16) (bits (at_ 1) 1 0)
      (charsOf 120 (bytes.take (bits (at_ 1) 9 2)))
      (shapeColour i.format i.variant (at_ 2)) (shapeColour i.format i.variant (at_ 3)) (bits (at_ 3) 31 30)

/-- What a job writes, in its input's storage format; `tag` is the output tag of KRN_HDRMAP. A conversion of one frame
or at an end of the phase shows that frame (R173, R174); interpolated, deinterlaced, denoised and pre-scaled pictures
are not computed by the manual. -/
def jobContent (s : State) (x : Job) (tag : Colour) : Content :=
  let free := Content.free s.free
  let count := bits (wd x.dataWords 0) 15 8
  match x.inputs with
  | [] => free
  | a :: t =>
    let i := objGet s a
    let b := t.headD a
    if x.kernel = 3 ∨ x.kernel = 2 then
      if a = b ∨ x.phase = 0 then i.content
      else if x.phase = 64 then (objGet s b).content
      else if x.kernel = 3 then .blend i.content (objGet s b).content x.phase
      else free
    else if x.kernel = 5 then .hdr i.content i.format i.variant i.w i.colour tag count x.dataWords
    else if x.kernel = 7 then maskOver i x.dataWords i.content count
    else if x.kernel = 8 then glyphsOver i x.dataWords i.content count
    else free

/-- What a one-shot job writes: the kernel's picture converted to the surface's variant and tag, with full alpha, in
the target rectangle over the surface's latest complete frame (R102, R164). -/
def oneShotContent (s : State) (x : Job) (o : Obj) : Content :=
  let i := objGet s (x.inputs.headD 0)
  let tag := if x.kernel = 5 then x.tag else i.colour
  let base := match (srcGet s x.target).latest with
    | some l => (objGet s l).content
    | none => .black
  .patch base x.rect (.shift (.convert (jobContent s x tag) i.format i.variant (x.rect.x1 - x.rect.x0) tag o.variant o.colour)
    x.rect.x0 x.rect.y0)

/-- References of a job to its inputs end. -/
def dropInputs (j : Handle) (x : Job) (s : State) : State :=
  x.inputs.foldl (fun s id => dropRef id (.job j) s) s

/-- A partition's job handles stay valid for 256 ended jobs (R165). -/
def pruneJobs (p : Nat) (s : State) : State :=
  let ended := sortBy (fun a b => decide (a.2.endOrder ≤ b.2.endOrder))
    (s.engines.jobs.filter (fun e => decide (e.2.part = p ∧ e.2.state = 2)))
  (ended.take (ended.length - 256)).foldl (fun s e => jobDel e.1 s) s

/-- A one-shot job ends and JOB_DONE is posted (R164). -/
def endOneShot (j : Handle) (x : Job) (outcome : Nat) (c : Content) (s : State) : State :=
  let good := decide (outcome = 0) && x.outSlot.isSome
  let s1 := match x.outSlot with
    | none => s
    | some slot =>
      if good then
        afterClose x.target slot (closeObj x.target slot (fun o => { o with content := c })
          { s with free := s.free + 1 })
      else abandonObj slot s
  let seq := if good then (x.outSlot.map (fun i => (objGet s1 i).seq)).getD 0 else 0
  let (used, s2) := if x.state = 0 then (0, s1) else fresh s1
  let s3 := postNtf x.part 0x0501 [word j, word outcome, used, word seq] s2
  let s4 := jobPut j { x with
    state := 2, outcome := outcome, endOrder := s3.engines.endOrder, itemsWaiting := 0, inputs := [] } s3
  pruneJobs x.part (setEngines { s4.engines with endOrder := s4.engines.endOrder + 1 } s4)

/-- The holder of a destination's references (R116). -/
def holderOf (d : Nat) : Holder :=
  match dKind d with
  | 1 => .layer (dHead d) (dLayer d)
  | 2 => .encode (handleOf (dPart d) 9 (dIndex d))
  | _ => .flow (dIndex d)

/-- An encode context or egress flow reads the converted frame at D, 1,000 µs after its apply instant: a job that ends before
it has been read gives the frame it shows (Table 7-2, R173). -/
def rebind (h : Handle) (slot : Nat) (s : State) : State :=
  match tget s.routes h with
  | none => s
  | some r =>
    let d := r.dest
    let x := destGet s d
    if dKind d = 1 ∨ x.active ≠ some h ∨ !x.atA.any (fun e => decide (e.1 = h ∧ e.2 ≠ 0)) ∨ r.hold.isSome
      ∨ x.readAt.isNone then s
    else
      let s1 := addRef slot (holderOf d) (destPut d { x with shown := [slot] } s)
      x.shown.foldl (fun s i => dropRef i (holderOf d) s) s1

/-- A generated job ends: its output, of content c, closes, or is dropped (R151, R159). -/
def endGenerated (j : Handle) (x : Job) (h : Handle) (use : Bool) (c : Content) (s : State) : State :=
  let s1 := jobDel j s
  match x.outSlot with
  | none => s1
  | some slot =>
    let s2 := { s1 with free := s1.free + 1 }
    if !use then abandonObj slot s2
    else if hType h = 3 then
      let old := ((tget s2.routes h).bind (fun r => r.output))
      let s3 := tickOrder (objPut slot { objGet s2 slot with
        writing := false, latest := true, closedAt := now s2, closeOrder := s2.order, content := c } s2)
      let s4 := { s3 with routes := tmod s3.routes h (fun r => { r with
        output := some slot, outTime := x.time, outSeq := x.seq }) }
      rebind h slot (match old with
      | some i => endHold i (fun o => { o with latest := false }) s4
      | none => s4)
    else afterClose h slot (closeObj h slot (fun o => { o with content := c }) s2)

/-- A job has no work item left: it ends, and its references to its inputs with it. -/
def finishJob (j : Handle) (s : State) : State :=
  let x := jobGet s j
  let o := objGet s (x.outSlot.getD 0)
  let s1 := dropInputs j x s
  match x.stream with
  | some h => endGenerated j x h (!x.missed && !x.discard && !x.cancelled) (jobContent s x o.colour) s1
  | none => endOneShot j x (if x.cancelled then x.outcome else if x.missed then 1 else 0) (oneShotContent s x o) s1

/-- A job ends at once, whatever work items of it run (R130): those count for nothing when they finish. -/
def endJobNow (j : Handle) (s : State) : State :=
  finishJob j (jobPut j { jobGet s j with cancelled := true, itemsWaiting := 0, itemsRunning := 0 } s)

/-- Withdraw a job, or stop it after its work items in flight (R158, R165). -/
def stopJob (j : Handle) (outcome : Nat) (s : State) : State :=
  let x := jobGet s j
  let s1 := jobPut j { x with cancelled := true, outcome := outcome, itemsWaiting := 0 } s
  if x.itemsRunning = 0 then finishJob j s1 else s1

/-- The jobs that satisfy a test. -/
def jobsWhere (s : State) (p : Job → Bool) : List Handle :=
  (s.engines.jobs.filter (fun e => decide (e.2.state ≠ 2) && p e.2)).map Prod.fst

def stopJobs (p : Job → Bool) (outcome : Nat) (s : State) : State :=
  (jobsWhere s p).foldl (fun s j => stopJob j outcome s) s

/-! ### Ladders and capacity (R156–R158) -/

/-- The rung a stream steps from: that of a handed-off mode where one waits to apply (R185). -/
def rungOf (s : State) (h : Handle) : Nat :=
  if hType h = 3 then ((tget s.routes h).map (fun r => r.rungNext.getD r.rung)).getD 0
  else ((tget s.procs h).map (fun x => x.rung)).getD 0

/-- Put a stream on a rung; the mode that a handed-off one is to replace runs on no higher rung until then. -/
def setRung (h : Handle) (n : Nat) (s : State) : State :=
  if hType h = 3 then { s with routes := tmod s.routes h (fun r => match r.rungNext with
    | some _ => { r with rung := max r.rung n, rungNext := some n }
    | none => { r with rung := n }) }
  else { s with procs := tmod s.procs h (fun x => { x with rung := n }) }

/-- A stream steps one rung: pending jobs not started are withdrawn, the step is raised and posted (R158). -/
def stepRung (t : JobStream) (rung cause : Nat) (s : State) : State :=
  let s1 := setRung t.handle rung (stopJobs (fun x => decide (x.stream = some t.handle ∧ x.state = 0)) 0 s)
  postNtf t.part 0x0502 [word t.handle, pack [(t.rung, 7, 0), (rung, 15, 8)], word cause, word (effBudget s t.part)]
    (raise 129 (if cause = 0 then 1 else 2) s1)

/-- The stream that steps down next: lowest PRIORITY, then larger charge, then higher handle (R157). -/
def downPick (s : State) (p : Nat) : Option JobStream :=
  ((streamsOf s p).filter (fun t => decide (t.rung ≤ t.ladder.rungs.length))).foldl
    (fun (b : Option JobStream) t => match b with
      | none => some t
      | some y =>
        let ct := chargeAt t t.rung
        let cy := chargeAt y y.rung
        if t.ladder.priority < y.ladder.priority
          ∨ (t.ladder.priority = y.ladder.priority ∧ (cy < ct ∨ (cy = ct ∧ y.handle < t.handle)))
        then some t else some y) none

/-- Step ladders down until Q_p ≤ B'_p (R157). -/
def stepDown (p : Nat) : Nat → State → State
  | 0, s => s
  | n + 1, s =>
    if liveQ s p ≤ effBudget s p then s
    else match downPick s p with
      | none => s
      | some t => stepDown p n (stepRung t (t.rung + 1) 0 s)

/-- The most steps a partition's streams can take: at most four rungs below rung 0 each. -/
def maxSteps (s : State) (p : Nat) : Nat := 4 * (streamsOf s p).length

/-- R157 for one partition. -/
def rebalance (p : Nat) (s : State) : State := stepDown p (maxSteps s p) s

/-- The stream that steps up next: the reverse order of R157 (R158). -/
def upPick (s : State) (p : Nat) : Option JobStream :=
  (degraded s p).foldl (fun (b : Option JobStream) t => match b with
    | none => some t
    | some y =>
      let ct := chargeAt t (t.rung - 1)
      let cy := chargeAt y (y.rung - 1)
      if y.ladder.priority < t.ladder.priority
        ∨ (t.ladder.priority = y.ladder.priority ∧ (ct < cy ∨ (cy = ct ∧ t.handle < y.handle)))
      then some t else some y) none

/-- Step ladders up as far as B'_p allows (R158). -/
def stepUp (p : Nat) : Nat → State → State
  | 0, s => s
  | n + 1, s =>
    match upPick s p with
    | none => s
    | some t =>
      if liveQ (setRung t.handle (t.rung - 1) s) p ≤ effBudget s p then
        stepUp p n (stepRung t (t.rung - 1) 1 s)
      else s

/-- A partition whose Q_p exceeds B'_p loses its one-shot jobs, then steps its ladders (R156). -/
def shed (p : Nat) (s : State) : State :=
  if liveQ s p ≤ effBudget s p then s
  else rebalance p (stopJobs (fun x => decide (x.stream = none ∧ x.part = p)) 5 s)

/-- Look at the capacity after an engine or its clock has changed (R156, R158). -/
def capacityCheck (s : State) : State :=
  let c := (capacity s).num / (capacity s).den
  if c = s.engines.capacitySeen then s
  else
    let s1 := raise 129 3 (setEngines { s.engines with
      capacitySeen := c
      upSince := if c < s.engines.capacitySeen then none else some (now s) } s)
    if c < s.engines.capacitySeen then (List.range 16).foldl (fun s p => shed p s) s1 else s1

/-! ### Deletion of a source (R90, R130, R151) -/

/-- Processed sources in the chain above a source, its own kernel first (R151). -/
def chainLen (s : State) : Nat → Handle → Nat
  | 0, _ => 0
  | n + 1, h => match tget s.procs h with
    | some x => 1 + chainLen s n x.input
    | none => 0

/-- Routes that a destination holds end at its next apply instant (R172). -/
def endRoutes (bad : Route → Bool) (cause : Nat) (s : State) : State :=
  { s with dests := tall s.dests (fun _ d => { d with
      ending := d.ending ++ ((([d.active, d.incoming].filterMap id) ++ d.pending.filterMap (fun p => match p.1 with
          | some (.add r _) => some r
          | _ => none)).filter (fun r =>
        ((tget s.routes r).map bad).getD false && !d.ending.any (fun e => decide (e.1 = r)))).map (fun r => (r, cause)) }) }

/-- A pending change of a source counts as resolved when the source goes (R52). -/
def resolvePending (h : Handle) (s : State) : State :=
  match (srcGet s h).pendingFmt with
  | some (_, p, e) => ((srcGet s h).pendingAlso ++ [(p, e)]).foldl (fun s q => applied q.1 (.source h) q.2 s)
      (srcMod h (fun x => { x with pendingFmt := none, pendingAlso := [] }) s)
  | none => s

/-- Abandon every frame a source is writing (R90). -/
def abandonFrames (h : Handle) (s : State) : State :=
  (srcGet s h).writing.foldl (fun s f =>
    let s1 := match f.slot with
      | some id => abandonObj id s
      | none => s
    match f.base with
    | some b => dropRef b (.patcher h) s1
    | none => s1) (srcMod h (fun x => { x with writing := [] }) s)

/-- A surface transfer stops: its object is discarded (R90, R102). -/
def stopUpload (h : Handle) (s : State) : State :=
  match tget s.uploads h with
  | some u => abandonObj u.slot { s with uploads := tdel s.uploads h }
  | none => s

/-- The audio input of a source goes: what heard it is silent at once, and its ramps end (R250, R262). -/
def dropInput (h : Handle) (s : State) : State :=
  let hears := fun (x : Option (Handle × Nat)) => decide (x.map Prod.fst = some h)
  { s with audio := { s.audio with
      inputs := tdel s.audio.inputs h
      outputs := tall s.audio.outputs (fun _ o => { o with chans := tall o.chans (fun _ c => { c with
        heard := if hears c.heard then none else c.heard
        ramp := if hears c.heard || ((c.ramp.map (fun r => hears r.heard)).getD false) then none else c.ramp }) }) } }

/-- Candidates that name a deleted source are disqualified and disabled (R265). -/
def dropCandidates (h : Handle) (s : State) : State :=
  let gone := fun (c : Candidate) => decide (c.kind = 4 ∧ c.source = h) && c.enable
  let s1 := { s with time := { s.time with list := tall s.time.list (fun _ c =>
    if gone c then { c with enable := false, qualified := false, pendQual := false, pendDisq := false } else c) } }
  if s.time.list.any (fun e => gone e.2) then raise 220 1 s1 else s1

/-- Delete a source (R90): a frame in progress is abandoned, its handle names nothing, routes from it end
at their destinations' next apply instants, jobs already released complete and their outputs are
discarded, and the ring's objects are freed as their references end. -/
def deleteSource (h : Handle) (s : State) : State :=
  let s1 := dropCandidates h (dropInput h (stopUpload h (abandonFrames h (resolvePending h s))))
  let s2 := setEngines { s1.engines with
    jobs := tall s1.engines.jobs (fun _ x => if x.stream = some h then { x with discard := true } else x) } s1
  -- INPUT_GONE: a one-shot job that has not started on this source, or that targets it
  let s3 := stopJobs (fun x => decide (x.stream = none) && (decide (x.target = h)
      || (decide (x.state = 0) && x.inputs.any (fun i => decide ((objGet s i).source = h))))) 3 s2
  let s4 := dropLatest h (endRoutes (fun r => decide (r.source = h)) 2 s3)
  let release := fun (d : Domino) => match (srcGet s4 h).kind with
    | .imported o x r =>
      let n := (d.nextReq + 1) % 65536
      { d with
        nextReq := n, waiting := d.waiting ++ [requestBytes d.member o n 3 x r (srcGet s4 h).owner]
        asked := ⟨d.member, o, n, 3, x, r⟩ :: d.asked }
    | _ => d
  let s5 := { s4 with
    domino := { release s4.domino with exports := s4.domino.exports.filter (fun e => decide (e.2.source ≠ h)) }
    grants := s4.grants.filter (fun g => decide (g.source ≠ h))
    procs := tdel s4.procs h }
  let s6 := srcMod h (fun x => { x with
    deleted := true, tier0 := false, tier0Pages := 0, slots := x.slots.map (fun e => { e with surplus := true }) }) s5
  dropDeleted h (settleRing h s6)

end Sys2Proof.Machine
end

