-- ==== Sys2Proof/WellFormed.lean ====
section
/-! DEFINITION. Which terms are commands of the table: a descriptor has twelve body words (Table 2-5), an
access asks for at least one byte (R25), an ancillary packet fits its fields (R93), a planner run reads
all 96 ageing monitors (R402), and a thermal sample all 16 die sensors (R406). -/

namespace Sys2Proof

/-- A descriptor has words 4–15, and no more (R36, Table 2-5). -/
abbrev Desc.Wf (d : Desc) : Prop := d.body.length = 12

/-- An ancillary packet: up to 255 words of ten bits; identifiers of ten bits (R93). -/
abbrev Anc.Wf (a : Anc) : Prop :=
  a.did < 1024 ∧ a.sdid < 1024 ∧ a.words.length ≤ 255 ∧ ∀ w ∈ a.words, w < 1024

/-- The term is a command of the table. -/
def Instr.wf (i : Instr) : Bool :=
  match i with
  | .cmdTailWrite _ _ => true
  | .cplHeadWrite _ _ => true
  | .ntfHeadWrite _ _ => true
  | .ntfOvfClear _ _ => true
  | .ptrErrClear _ _ => true
  | .ntfLostRead _ _ => true
  | .ptimeLoRead _ => true
  | .errValidClear rival => decide (∀ a ∈ rival, 1 ≤ a.bytes.val)
  | .errMoreClear rival => decide (∀ a ∈ rival, 1 ≤ a.bytes.val)
  | .accessRefused a => decide (1 ≤ a.bytes.val)
  | .causeClear _ _ _ => true
  | .severityWrite _ _ => true
  | .firstValidClear _ => true
  | .overflowClear _ => true
  | .quietMsWrite _ => true
  | .registerWrite _ _ _ _ => true
  | .msixUnmask _ _ => true
  | .bar2AccessRefused a => decide (1 ≤ a.bytes.val)
  | .commandTake => true
  | .lateCompletion _ => true
  | .commitHandOff => true
  | .identify _ d => decide d.Wf
  | .getCapabilities _ d => decide d.Wf
  | .getVersions _ d => decide d.Wf
  | .reset _ d => decide d.Wf
  | .partitionResetQuiet => true
  | .deviceResetDelay _ => true
  | .echo _ d => decide d.Wf
  | .commit _ d => decide d.Wf
  | .discardStaged _ d => decide d.Wf
  | .getEpoch _ d => decide d.Wf
  | .createPartition _ d => decide d.Wf
  | .deletePartition _ d => decide d.Wf
  | .partitionFreed _ => true
  | .setQuota _ d => decide d.Wf
  | .getQuota _ d => decide d.Wf
  | .grantSource _ d => decide d.Wf
  | .revokeGrant _ d => decide d.Wf
  | .listGrants _ d => decide d.Wf
  | .readChangeLog _ d => decide d.Wf
  | .createLinkStream _ d => decide d.Wf
  | .create2110Stream _ d => decide d.Wf
  | .createSurfaceSource _ d => decide d.Wf
  | .modifyStream _ d => decide d.Wf
  | .startStream _ d => decide d.Wf
  | .stopStream _ d => decide d.Wf
  | .deleteStream _ d => decide d.Wf
  | .getStreamStatus _ d => decide d.Wf
  | .readAnc _ d => decide d.Wf
  | .uploadSurface _ d => decide d.Wf
  | .surfaceDone _ _ => true
  | .createDecodeContext _ d => decide d.Wf
  | .deleteDecodeContext _ d => decide d.Wf
  | .getDecodeStatus _ d => decide d.Wf
  | .resyncDecode _ d => decide d.Wf
  | .frameStart _ _ => true
  | .frameClose _ => true
  | .patchCopyDone _ => true
  | .streamStallTimeout _ => true
  | .st2110Packet _ _ => true
  | .ancPacket _ a => decide (Anc.Wf a)
  | .streamEntryPacket _ _ => true
  | .decodePictureDone _ _ => true
  | .decodeBudgetExpiry _ _ => true
  | .acquireObject _ d _ => decide d.Wf
  | .releaseObject _ d => decide d.Wf
  | .getObjectInfo _ d => decide d.Wf
  | .readObject _ d => decide d.Wf
  | .setPlacement _ d => decide d.Wf
  | .createTimeshift _ d => decide d.Wf
  | .seekTimeshift _ d => decide d.Wf
  | .deleteTimeshift _ d => decide d.Wf
  | .getRingStatus _ d => decide d.Wf
  | .getToyboxStatus _ d => decide d.Wf
  | .spillCopyDone _ _ => true
  | .spillLate _ => true
  | .recallStart _ => true
  | .recallDone _ _ => true
  | .timeshiftPresentation _ => true
  | .createProcessedSource _ d => decide d.Wf
  | .modifyProcessedSource _ d => decide d.Wf
  | .deleteProcessedSource _ d => decide d.Wf
  | .loadKernelData _ d => decide d.Wf
  | .setLadder _ d => decide d.Wf
  | .submitJob _ d _ => decide d.Wf
  | .cancelJob _ d => decide d.Wf
  | .getJobStatus _ d => decide d.Wf
  | .getEngineStatus _ d => decide d.Wf
  | .getKernelLibrary _ d => decide d.Wf
  | .loadKernel _ d => decide d.Wf
  | .jobRelease _ _ _ => true
  | .workItemDone _ => true
  | .deadlineMiss _ => true
  | .engineFault _ _ => true
  | .lmEccCorrected _ => true
  | .capacityRiseHold => true
  | .addRoute _ d => decide d.Wf
  | .modifyRoute _ d => decide d.Wf
  | .deleteRoute _ d => decide d.Wf
  | .stageSalvo _ d => decide d.Wf
  | .getRouteStatus _ d => decide d.Wf
  | .getDestination _ d => decide d.Wf
  | .setLayer _ d => decide d.Wf
  | .setComposition _ d => decide d.Wf
  | .setMatrix _ d => decide d.Wf
  | .loadCoefficients _ d => decide d.Wf
  | .readCoefficients _ d => decide d.Wf
  | .getLayerStatus _ d => decide d.Wf
  | .getHeadBudget _ d => decide d.Wf
  | .setHeadMode _ d => decide d.Wf
  | .bindSink _ d => decide d.Wf
  | .setCrcRects _ d => decide d.Wf
  | .getHeadStatus _ d => decide d.Wf
  | .headApplyLine _ _ _ => true
  | .blankStart _ _ => true
  | .lineMatch _ _ => true
  | .headFetchStart _ => true
  | .headLineZero _ => true
  | .layerUnderrun _ _ _ _ => true
  | .domainFrameTick _ _ _ => true
  | .createAudioInput _ d => decide d.Wf
  | .deleteAudioInput _ d => decide d.Wf
  | .createAudioOutput _ d => decide d.Wf
  | .deleteAudioOutput _ d => decide d.Wf
  | .setOutputChannels _ d => decide d.Wf
  | .getAudioStatus _ d => decide d.Wf
  | .setAudioClock _ d => decide d.Wf
  | .audioClockMove => true
  | .audioPacket _ _ => true
  | .audioPlayoutMissing _ => true
  | .audioBufferTarget _ => true
  | .srcUnlock _ => true
  | .audioRampEnd _ _ => true
  | .setCandidate _ d => decide d.Wf
  | .setSelection _ d => decide d.Wf
  | .setTimingDomain _ d => decide d.Wf
  | .setFramePulse _ d => decide d.Wf
  | .getTimingStatus _ d => decide d.Wf
  | .selectorEvaluation => true
  | .candidateFault _ => true
  | .qualTimeExpiry _ => true
  | .refinEdge _ _ _ => true
  | .ptpMessage _ _ => true
  | .slewDone => true
  | .holdoverDataValid => true
  | .setLinkPort _ d => decide d.Wf
  | .retrain _ d => decide d.Wf
  | .getLinkStatus _ d => decide d.Wf
  | .setLinkTest _ d => decide d.Wf
  | .getLinkCaps _ d => decide d.Wf
  | .linkCkDetected _ => true
  | .trainBlock _ _ _ => true
  | .linkLockHeld _ => true
  | .alignBlock _ _ _ => true
  | .alignInterval _ _ => true
  | .capsBlock _ _ => true
  | .capsMessage _ _ => true
  | .statusMessage _ _ => true
  | .statusPeriod _ => true
  | .backLost _ => true
  | .lpBlock _ _ => true
  | .lpAck _ _ => true
  | .lpNak _ _ => true
  | .low2IdleExpiry _ => true
  | .fsBlock _ _ => true
  | .lsBlock _ _ _ _ => true
  | .feBlock _ _ => true
  | .ancBlock _ _ _ => true
  | .audBlock _ _ _ => true
  | .linkLos _ => true
  | .linkLol _ => true
  | .linkStateTimeout _ => true
  | .linkErrorHold _ => true
  | .linkActiveHold _ => true
  | .setEthPort _ d => decide d.Wf
  | .createStreamEntry _ d => decide d.Wf
  | .deleteStreamEntry _ d => decide d.Wf
  | .setRelay _ d => decide d.Wf
  | .createFlow _ d => decide d.Wf
  | .deleteFlow _ d => decide d.Wf
  | .armYoyo _ d => decide d.Wf
  | .yoyoSwitch _ d => decide d.Wf
  | .getEthStatus _ d => decide d.Wf
  | .sendAnc _ d => decide d.Wf
  | .ethPacket _ _ => true
  | .ethLinkDown _ _ => true
  | .ethLinkUp _ _ => true
  | .yoyoEvaluation _ => true
  | .silenceTimeout _ => true
  | .nexthopProbe _ => true
  | .nexthopTimeout _ => true
  | .arpReply _ _ _ _ => true
  | .nexthopRefresh => true
  | .holdoffExpiry _ => true
  | .holdoffRestore _ => true
  | .bothLostNexthopHold _ _ => true
  | .getPoolDrives _ d => decide d.Wf
  | .formatPool _ d => decide d.Wf
  | .poolDone => true
  | .getPoolStatus _ d => decide d.Wf
  | .createRecording _ d => decide d.Wf
  | .closeRecording _ d => decide d.Wf
  | .assignRecording _ d => decide d.Wf
  | .exportSegments _ d => decide d.Wf
  | .readManifest _ d => decide d.Wf
  | .markExported _ d => decide d.Wf
  | .deleteSegments _ d => decide d.Wf
  | .getRecordingStatus _ d => decide d.Wf
  | .createEncodeContext _ d => decide d.Wf
  | .deleteEncodeContext _ d => decide d.Wf
  | .getEncodeStatus _ d => decide d.Wf
  | .encodeFrameDone _ _ _ => true
  | .drivePresenceChange _ _ _ => true
  | .nvmeCompletion _ _ => true
  | .nvmeTimeout _ => true
  | .stallHeaderRetry _ _ => true
  | .smartPoll _ _ => true
  | .segmentTimeLimit _ => true
  | .postrollExpiry _ => true
  | .manifestSigned => true
  | .generateKey _ d => decide d.Wf
  | .zeroiseKey _ d => decide d.Wf
  | .getAttestation _ d => decide d.Wf
  | .getIdentity _ d => decide d.Wf
  | .signDigest _ d => decide d.Wf
  | .cryptData _ d => decide d.Wf
  | .getVaultStatus _ d => decide d.Wf
  | .entropyHealthChange _ => true
  | .setDomino _ d => decide d.Wf
  | .getDominoStatus _ d => decide d.Wf
  | .createExport _ d => decide d.Wf
  | .deleteExport _ d => decide d.Wf
  | .createImport _ d => decide d.Wf
  | .dominoQuery _ d => decide d.Wf
  | .groupFrameStart => true
  | .beaconBlock _ _ _ => true
  | .markBlock _ _ _ => true
  | .stateBlock _ _ => true
  | .requestBlock _ _ => true
  | .answerBlock _ _ => true
  | .importRequestTimeout => true
  | .subscriptionRenew _ => true
  | .renewExpired _ _ _ => true
  | .leaderlessTimeout => true
  | .formFail _ => true
  | .divergencePersist => true
  | .setEventDelivery _ d => decide d.Wf
  | .readEvents _ d => decide d.Wf
  | .setSeverity _ d => decide d.Wf
  | .getFaultStatus _ d => decide d.Wf
  | .setQuietPeriod _ d => decide d.Wf
  | .ackFault _ d => decide d.Wf
  | .setEventTimer _ d => decide d.Wf
  | .eventTimerExpiry _ => true
  | .hbmEccUncorrected _ => true
  | .hbmEccCorrected => true
  | .faultExit _ => true
  | .musicBoxFoldExpiry _ => true
  | .firmwareException => true
  | .writeParamPage _ d => decide d.Wf
  | .readParamPage _ d => decide d.Wf
  | .store _ d => decide d.Wf
  | .recallParams _ d => decide d.Wf
  | .readMusicBox _ d => decide d.Wf
  | .writeNote _ d => decide d.Wf
  | .getPersistStatus _ d => decide d.Wf
  | .getTamper _ d => decide d.Wf
  | .setTamper _ d => decide d.Wf
  | .storeDone _ => true
  | .powerFailDetect _ _ _ _ => true
  | .checkpointTimer => true
  | .tamperEdge _ _ => true
  | .vbatCheck _ => true
  | .setEnvelope _ d => decide d.Wf
  | .setThermal _ d => decide d.Wf
  | .setAdc _ d => decide d.Wf
  | .getHealth _ d => decide d.Wf
  | .plannerRun slowdowns _ _ => decide (slowdowns.length = 96)
  | .thermalSample readings _ => decide (readings.length = 16)
  | .throttleHoldExpiry _ => true
  | .hbmTemperature _ _ => true
  | .railExcursion _ _ _ => true
  | .adcConversionDone _ _ _ => true
  | .getFwStatus _ d => decide d.Wf
  | .flashRead _ d => decide d.Wf
  | .flashErase _ d => decide d.Wf
  | .flashWrite _ d => decide d.Wf
  | .flashDone _ => true
  | .fwActivate _ d => decide d.Wf
  | .fwConfirm _ d => decide d.Wf
  | .porstNRelease _ => true
  | .porstNAssert => true
  | .watchdogExpiry => true
  | .lockedSequenceTimeout _ _ => true
  | .pcieLinkDown => true
  | .pcieLinkUp => true
  | .pcieHotReset => true
  | .vfFlr _ => true
  | .pfFlr => true
  | .gpioEdge _ => true
  | .srcRelock _ => true
  | .prbsSync _ _ => true
  | .prbsSyncLost _ _ _ _ => true
  | .fecCodewordUncorrected _ _ => true
  | .resolveFail _ _ _ => true
  | .readObjectDone _ _ => true
  | .exportDone _ _ => true
  | .digestSigned => true
  | .hbmSleepExit => true
  | .audioOutputPacket _ => true
  | .pcieAerError _ => true
  | .debugAttach => true
  | .debugDetach => true
  | .debugHalt => true
  | .vddCoreBrownOutEnd _ => true

end Sys2Proof
end

