-- ==== Sys2Proof/Machine/Engines.lean ====
section
/-! DEFINITION. The engine-class commands (R161–R166) and the events of engines and jobs (R142, R149,
R156–R160). The release of output-paced jobs stands with the routes. -/

namespace Sys2Proof.Machine

open Sys2Proof

/-! ### Processed sources (R146, R151, R161) -/

/-- The kernel data KIND a kernel takes (Table 6-1, Table 6-2). -/
def slotKind (k : Nat) : Option Nat :=
  match k with
  | 5 => some 1
  | 7 => some 2
  | 8 => some 3
  | _ => none

/-- Parameters of Table 6-8 from three words. -/
def procParams (w1 w2 w3 : Word) : ProcParams :=
  { kernel := bits w1 7 0, variant := bits w1 15 8, slot := bits w1 19 16
    ringDepth := if bits w1 24 20 = 0 then 4 else bits w1 24 20
    outW := bits w2 13 0, outH := bits w2 29 16, outColour := bits w3 7 0, strength := bits w3 11 8 }

/-- A colour tag of OUT_COLOUR is one of Table 4-2. -/
def colourGood (c : Nat) : Bool := decide (c % 8 ≤ 3 ∧ c / 8 % 4 ≤ 2)

/-- A source that holds frames (R79): no compressed stream entry and no AUDIO source. -/
def isFrames (x : Source) : Bool :=
  match x.kind with
  | .entry => false
  | .audio _ => false
  | _ => true

/-- Field ranges of processed-source parameters for an input format (Table 6-1, Table 6-8). -/
def procRange (p : ProcParams) (i : Format) : Bool :=
  decide (p.kernel ∈ [1, 4, 5, 6, 7, 8] ∧ kernelK p.kernel p.variant ≠ 0 ∧ 2 ≤ p.ringDepth ∧ p.ringDepth ≤ 16)
    && (decide (p.kernel ≠ 5) || colourGood p.outColour)
    && (decide (p.kernel ≠ 1) || decide (64 ≤ p.outW ∧ p.outW ≤ i.width ∧ 64 ≤ p.outH ∧ p.outH ≤ objHeight i
        ∧ p.outW % 2 = 0 ∧ p.outH % 2 = 0 ∧ i.width ≤ 8 * p.outW ∧ objHeight i ≤ 8 * p.outH))

/-- Fields that do not apply to the kernel are 0 (Table 6-8). -/
def procApplies (p : ProcParams) : Bool :=
  (decide (p.kernel = 1) || decide (p.outW = 0 ∧ p.outH = 0))
    && (decide (p.kernel = 5) || decide (p.outColour = 0))
    && (decide (p.kernel = 6) || decide (p.strength = 0))
    && ((slotKind p.kernel).isSome || decide (p.slot = 0))

/-- The input's scan type fits the kernel (R146). -/
def scanFits (k : Nat) (i : Format) : Bool := decide (k ≠ 4) || i.interlaced

/-- The data slot holds what the kernel takes (R147). -/
def slotGood (s : State) (p : Nat) (k slot : Nat) : Bool :=
  match slotKind k with
  | none => true
  | some kind => match tget ((tget s.parts p).getD {}).kernelData slot with
    | some (w :: _) => decide (bits w 7 0 = kind)
    | _ => false

/-- Steps 2–5 of R161; a source that holds no frames fails step 3, and its parameters keep the ranges that no input size
bounds. -/
def procCheck (s : State) (part : Nat) (chain : Nat) (p : ProcParams) (x : Source) : Option Status :=
  let i := if isFrames x then x.fmt else { x.fmt with width := p.outW, height := p.outH }
  if !procRange p i ∨ 4 < chain then some .range
  else if !procApplies p ∨ !isFrames x then some .inconsistent
  else if !scanFits p.kernel i then some .inconsistent
  else if !slotGood s part p.kernel p.slot then some .state
  else none

/-- The count limits: live objects (R127) and pending jobs (R154). -/
def countsGood (s : State) : Bool :=
  decide (s.objects.length ≤ 262144 ∧ streamCount s ≤ 24576)

/-- Permissions a processed source of the issuer derives from its input (R151). -/
def derived (s : State) (page : Nat) (input : Handle) : Option (Bool × Bool) :=
  if hPart input ≠ page then (grantOf s input page).map (fun g => (g.allowRecord, g.allowEgress))
  else (tget s.procs input).bind (fun x => x.granted)

/-- Make a processed source with its ring, not yet checked; nothing leaves a ring yet. -/
def makeProc (part : Nat) (input : Handle) (prm : ProcParams) (g : Option (Bool × Bool))
    (pre : Option (Nat × Nat)) (s : State) : Handle × State :=
  let f := procFormat prm (srcGet s input).fmt
  let (h, s1) := newHandle part 1 s
  let s2 := srcPut h { owner := part, kind := .processed, fmt := f } s1
  let x : Proc := { input := input, params := prm, inFmt := (srcGet s input).fmt, granted := g, prescale := pre }
  let s3 := { s2 with procs := tset s2.procs h x }
  (h, markRings (addSlots h (footprint f) part false prm.ringDepth s3))

/-- Tier 1 pages of a ring. -/
def ringPages (s : State) (h : Handle) : Nat := ((ringOf s h).map (fun e => e.pages)).sum

def cmdCreateProcessed (c : Ctx) (s : State) : CmdOut :=
  withReadable c.page s (bn c 0) fun x =>
    let prm := procParams (bw c 1) (bw c 2) (bw c 3)
    match procCheck s c.page (1 + chainLen s 4 (bn c 0)) prm x with
    | some e => refuse e
    | none =>
      let (h, s1) := makeProc c.page (bn c 0) prm (derived s c.page (bn c 0)) none s
      if !countsGood s1 then refuse .quota
      else admitted s s1 (.done .ok
        [word h, word (procQ s1 (h, (tget s1.procs h).getD { input := 0, params := {} })), word (ringPages s1 h)] s1)

/-- A ring for a new format: slots of the new footprint take over, and the old ones leave as their objects
become free (R104, R117, R128). -/
def renewRing (h : Handle) (f : Format) (s : State) : State :=
  let x := srcGet s h
  (addSlots h (footprint f) x.owner false f.ringDepth
    (srcMod h (fun x => { x with slots := x.slots.map (fun e => { e with surplus := true }) }) s))

/-- New parameters of a processed source are handed off: they apply at the next release (R161). -/
def handProc (h : Handle) (prm : ProcParams) (page : Nat) (e : Word) (s : State) : State :=
  match tget s.procs h with
  | none => s
  | some x =>
    let f := procFormat prm (nextFmt s x.input)
    let s1 := srcMod h (fun y => { y with pendingFmt := some (f, page, e) })
      { s with procs := tset s.procs h { x with pending := some prm } }
    if footprint f = footprint (nextFmt s h) ∧ f.ringDepth = (nextFmt s h).ringDepth then s1 else renewRing h f s1

/-- A processed source of the issuer or, for P0, of anyone. -/
def withProc (c : Ctx) (s : State) (h : Handle) (k : Proc → CmdOut) : CmdOut :=
  withOwnSource c.page s h fun _ => match tget s.procs h with
    | none => refuse .state
    | some x => k x

/-- An item of the same kind and target replaces the one staged before and takes its place (R104, R161). -/
def restage (c : Ctx) (same : Staged → Bool) (item : Staged) (res : Nat → List Word) (s : State) : CmdOut :=
  let m := box s c.page
  if m.staged.any same then
    .done .ok (res m.staged.length)
      (setBox c.page { m with staged := m.staged.map (fun i => if same i then item else i) } s)
  else stage c [item] (res (m.staged.length + 1)) s

def cmdModifyProcessed (c : Ctx) (s : State) : CmdOut :=
  withProc c s (bn c 0) fun x =>
    let prm := procParams (bw c 1) (bw c 2) (bw c 3)
    let h := bn c 0
    if !procRange prm (srcGet s x.input).fmt then refuse .range
    else if prm.kernel ≠ x.params.kernel then refuse .inconsistent
    else match procCheck s (hPart h) 1 prm (srcGet s x.input) with
      | some e => refuse e
      | none => restage c (fun i => match i with | .proc g _ => decide (g = h) | _ => false) (.proc h prm)
          (fun n => [word n]) s

def specCreateProcessedSource : OpSpec :=
  { op := 0x0500, maxLen := 16, rsv := within [0xFFFFFFFF, field 24 0, field 13 0 ||| field 29 16, field 11 0]
    log := always, named := nameWord 0, run := cmdCreateProcessed }

def specModifyProcessedSource : OpSpec :=
  { op := 0x0501, maxLen := 16, rsv := within [0xFFFFFFFF, field 24 0, field 13 0 ||| field 29 16, field 11 0]
    run := cmdModifyProcessed }

/-! ### Kernel data (R147, R148, R162) -/

/-- Data words that the header announces (Table 6-2). -/
def dataLen (h : Word) : Nat :=
  let n := bits h 15 8
  1 + (match bits h 7 0 with
    | 1 => n * n * n
    | 2 => 10 * n
    | _ => 34 * n)

/-- A mask of ten words is in range; a rectangle is not empty (R7). -/
def maskGood (w : List Word) : Bool :=
  let t := bits (wd w 0) 1 0
  decide (t = 1 ∨ t = 2) && decide (bits (wd w 0) 3 2 ≤ 1) && decide (bits (wd w 0) 7 4 ≤ 3)
    && (if t = 1 then decide (bits (wd w 2) 15 0 < bits (wd w 3) 15 0 ∧ bits (wd w 2) 31 16 < bits (wd w 3) 31 16)
      else decide (3 ≤ bits (wd w 0) 11 8 ∧ bits (wd w 0) 11 8 ≤ 8))

/-- A glyph string of 34 words is in range. -/
def glyphGood (w : List Word) : Bool :=
  decide (bits (wd w 1) 1 0 ≤ 2) && decide (1 ≤ bits (wd w 1) 9 2 ∧ bits (wd w 1) 9 2 ≤ 120)
    && decide (bits (wd w 3) 31 30 ≤ 2)

/-- Reserved bits of a block are 0 (R5, Table 6-2). -/
def dataRsv (ws : List Word) : Bool :=
  let d := ws.drop 1
  let h := wd d 0
  decide (wd ws 0 &&& ~~~ (field 3 0) = 0) && decide (bits h 31 16 = 0)
    && (match bits h 7 0 with
      | 1 => (d.drop 1).all (fun w => decide (bits w 31 30 = 0))
      | 2 => (List.range (d.length / 10)).all (fun i =>
          decide (bits (wd d (1 + 10 * i)) 31 12 = 0 ∧ bits (wd d (2 + 10 * i)) 31 30 = 0))
      | 3 => (List.range (d.length / 34)).all (fun i =>
          decide (bits (wd d (2 + 34 * i)) 31 10 = 0 ∧ bits (wd d (3 + 34 * i)) 31 30 = 0))
      | _ => true)

/-- KIND and COUNT are in range (Table 6-2): a header that is not names no length. -/
def headGood (w : Word) : Bool :=
  let n := bits w 15 8
  match bits w 7 0 with
  | 1 => decide (n = 17 ∨ n = 33)
  | 2 => decide (1 ≤ n ∧ n ≤ 32)
  | 3 => decide (1 ≤ n ∧ n ≤ 64)
  | _ => false

/-- The masks or strings of a block are in range (Table 6-2). -/
def dataGood (d : List Word) : Bool :=
  let n := bits (wd d 0) 15 8
  match bits (wd d 0) 7 0 with
  | 2 => (List.range n).all (fun i => maskGood ((d.drop (1 + 10 * i)).take 10))
  | 3 => (List.range n).all (fun i => glyphGood ((d.drop (1 + 34 * i)).take 34))
  | _ => true

def cmdLoadKernelData (c : Ctx) (s : State) : CmdOut :=
  let d := c.body.drop 1
  if !headGood (wd d 0) then refuse .range
  else if c.len ≠ 4 * (1 + dataLen (wd d 0)) then refuse .length
  else if !dataGood d then refuse .range
  else
    let p := (tget s.parts c.page).getD {}
    .done .ok [] { s with parts := tset s.parts c.page { p with kernelData := tset p.kernelData (bf c 0 3 0) d } }

def specLoadKernelData : OpSpec :=
  { op := 0x0503, maxLen := 143756, bulkOnly := true, rsv := dataRsv, log := always, run := cmdLoadKernelData }

/-! ### SET_LADDER (R163) -/

/-- Configured kernel and variant of a ladder's target, the kernels its rungs may name, and its owner;
none where the field does not accept the target. -/
def ladderTarget (s : State) (h : Handle) : Option ((Nat × Nat) × List Nat) :=
  if hType h = 3 then
    (tget s.routes h).bind (fun r => (modeKV r.mode r.variant).map (fun kv => (kv, [2, 3])))
  else (tget s.procs h).map (fun x =>
    let p := x.pending.getD x.params
    ((p.kernel, p.variant), [p.kernel]))

/-- Each rung has a lower K than the one above it (R163). -/
def falling : List (Nat × Nat) → Bool
  | a :: b :: t => decide (kernelK b.1 b.2 < kernelK a.1 a.2) && falling (b :: t)
  | _ => true

def cmdSetLadder (c : Ctx) (s : State) : CmdOut :=
  let h := bn c 0
  let n := bf c 1 6 4
  let rungs := (List.range n).map (fun i => (bf c (2 + i) 7 0, bf c (2 + i) 15 8))
  let go : CmdOut :=
    if 3 < n then refuse .range
    else match ladderTarget s h with
      | none => refuse .inconsistent
      | some (kv, allowed) =>
        if ((List.range 3).drop n).any (fun i => decide (bw c (2 + i) ≠ 0)) then refuse .inconsistent
        else if rungs.any (fun r => decide (r.1 ∉ allowed ∨ kernelK r.1 r.2 = 0)) ∨ !falling (kv :: rungs) then refuse .inconsistent
        else stage c [.ladder h { priority := bf c 1 3 0, rungs := rungs }] [word ((box s c.page).staged.length + 1)] s
  match handleFault c.page s h [1, 3] with
  | some e => refuse e
  | none =>
    if hType h = 1 then
      withOwnSource c.page s h fun _ => go
    else match tget s.routes h with
      | none => refuse .noSuchHandle
      | some _ => go

def specSetLadder : OpSpec :=
  { op := 0x0504, maxLen := 20, dflt := [0, 8], rsv := within [0xFFFFFFFF, field 6 0, field 15 0, field 15 0, field 15 0]
    run := cmdSetLadder }

/-! ### One-shot jobs (R153, R164, R165) -/

/-- The object a one-shot job reads, with its size and scan (Table 6-10): a source that the issuer may read, or an object
of the issuer (R141). -/
def jobInput (c : Ctx) (s : State) (target : Handle) (k : Source → Option Nat → Nat → Nat → Bool → CmdOut) : CmdOut :=
  let h := bn c 1
  if h = 0 ∧ bf c 0 7 0 = 8 then
    let x := srcGet s target
    k x x.latest x.fmt.width x.fmt.height false
  else match handleFault c.page s h [1, 2] with
    | some e => refuse e
    | none =>
      if hType h = 1 then
        withReadable c.page s h fun x =>
          if !isFrames x then refuse .inconsistent
          else match x.latest with
            | some id => k x (some id) (objGet s id).w (objGet s id).h (decide ((objGet s id).parity ≠ 0))
            | none => k x none x.fmt.width (objHeight x.fmt) x.fmt.interlaced
      else if hPart h ≠ c.page then refuse .notOwner
      else match objOfHandle s h with
        | none => refuse .noSuchHandle
        | some id => k (srcGet s (objGet s id).source) (some id) (objGet s id).w (objGet s id).h
            (decide ((objGet s id).parity ≠ 0))

/-- Input and output sizes fit the kernel: KRN_PRESCALE by Table 6-1, the others by R164. -/
def sizeFault (k iw ih ow oh : Nat) : Option Status :=
  if k = 1 then
    (if 64 ≤ ow ∧ ow ≤ iw ∧ 64 ≤ oh ∧ oh ≤ ih ∧ iw ≤ 8 * ow ∧ ih ≤ 8 * oh then none else some .range)
  else if ow = iw ∧ oh = (if k = 4 then 2 * ih else ih) then none else some .inconsistent

/-- A transfer or another job on the same target is pending (R164). -/
def targetBusy (s : State) (h : Handle) : Bool :=
  (tget s.uploads h).isSome
    || s.engines.jobs.any (fun e => e.2.stream.isNone && decide (e.2.target = h ∧ e.2.state ≠ 2))

/-- Pending one-shot jobs of a partition. -/
def oneShots (s : State) (p : Nat) : Nat :=
  (s.engines.jobs.filter (fun e => e.2.stream.isNone && decide (e.2.part = p ∧ e.2.state ≠ 2))).length

/-- Accept a one-shot job: its first target slot is taken and its input is held. -/
def acceptJob (c : Ctx) (id : Nat) (r : Rect) (n : Nat) (slot : Nat) (s : State) : Handle × State :=
  let y := srcGet s (bn c 2)
  let k := bf c 0 7 0
  let v := bf c 0 15 8
  let cost := costC (kernelK k v) n
  let o := objGet s id
  let s1 := takeSlot (bn c 2) slot { objGet s slot with
    format := 1, variant := variantOf y.fmt, w := y.fmt.width, h := y.fmt.height, parity := 0
    colour := y.fmt.colour, patched := o.patched, concealed := o.concealed, vuiAbsent := o.vuiAbsent
    recalled := o.recalled, capture := o.capture, ptpSeconds := o.ptpSeconds, ptpNanos := o.ptpNanos
    ptpLock := o.ptpLock, latest := false, closeOrder := 0, refs := [], content := .black } s
  newJob c.page {
    part := c.page, kernel := k, variant := v
    dataWords := (tget ((tget s.parts c.page).getD {}).kernelData (bf c 0 19 16)).getD []
    tag := { matrix := bf c 5 2 0, transfer := bf c 5 4 3, primaries := bf c 5 6 5, full := bb c 5 7 }
    inputs := id :: fieldsBefore s1 k v o.source o, target := bn c 2, outSlot := some slot, rect := r, pixels := n
    costNum := cost.num, costDen := cost.den, released := now s, deadline := ⟨now s + bn c 6, 1⟩
    deadlineUs := bn c 6, itemsWaiting := itemsOf k v y.fmt } s1

def cmdSubmitJob (c : Ctx) (s : State) : CmdOut :=
  let k := bf c 0 7 0
  let v := bf c 0 15 8
  let target := bn c 2
  let ready : Source → Option Nat → Nat → Nat → Bool → CmdOut := fun _ obj iw ih fieldIn =>
    withSource c.page s target fun y =>
      let r : Rect := ⟨bf c 3 15 0, bf c 3 31 16, bf c 4 15 0, bf c 4 31 16⟩
      let all := decide (r.x1 ≤ r.x0 ∨ r.y1 ≤ r.y0)
      let r := if all then ⟨0, 0, y.fmt.width, y.fmt.height⟩ else r
      let ow := r.x1 - r.x0
      let oh := r.y1 - r.y0
      let prm : ProcParams := { kernel := k, variant := v, slot := bf c 0 19 16, outColour := bf c 5 7 0, strength := bf c 5 11 8 }
      if y.kind ≠ .surface then refuse .state
      else if y.owner ≠ c.page then refuse .notOwner
      else if k ∉ [1, 4, 5, 6, 7, 8] ∨ kernelK k v = 0 ∨ bn c 6 < 1000 ∨ 10000000 < bn c 6
          ∨ (k = 5 ∧ !colourGood (bf c 5 7 0)) ∨ y.fmt.width < r.x1 ∨ y.fmt.height < r.y1 then refuse .range
      else if !procApplies prm ∨ (k = 4 ∧ !fieldIn) then refuse .inconsistent
      else match sizeFault k iw ih ow oh with
        | some e => refuse e
        | none =>
          if !slotGood s c.page k prm.slot then refuse .state
          else match obj with
            | none => refuse .state
            | some id =>
              if targetBusy s target then refuse .busy
              else if 1024 ≤ oneShots s c.page then refuse .quota
              else match pickSlot s target with
                | none => refuse .busy
                | some slot =>
                  let (j, s1) := acceptJob c id r (ow * oh) slot s
                  let cost := costC (kernelK k v) (ow * oh)
                  admitted s s1 (.done .ok [word j, word (fceil cost),
                    word (fceil ⟨cost.num * 1000, cost.den * bn c 6⟩)] (dispatch s1))
  -- handles first, in the order of the body (R38)
  if k = 8 ∧ bn c 1 = 0 then
    withSource c.page s target fun _ => jobInput c s target ready
  else jobInput c s target ready

/-- A job handle of the issuer, or any for P0. -/
def withJob (c : Ctx) (s : State) (k : Handle → Job → CmdOut) : CmdOut :=
  withHandle c.page s (bn c 0) 5
    (match tget s.engines.jobs (bn c 0) with
      | some x => if x.stream.isNone then some x else none
      | none => none) (fun x => k (bn c 0) x)

def cmdCancelJob (c : Ctx) (s : State) : CmdOut :=
  withJob c s fun j x => if x.state = 2 then refuse .state else .done .ok [] (stopJob j 2 s)

def cmdGetJobStatus (c : Ctx) (s : State) : CmdOut :=
  withJob c s fun _ x =>
    .done .ok [pack [(x.state, 1, 0), (x.outcome, 7, 4)],
      word (if x.state = 2 then 0 else ffloor x.deadline - now s)] s

def specSubmitJob : OpSpec :=
  { op := 0x0505, maxLen := 28
    rsv := within [field 19 0, 0xFFFFFFFF, 0xFFFFFFFF, 0xFFFFFFFF, 0xFFFFFFFF, field 11 0]
    log := always, named := nameWord 1, run := cmdSubmitJob }

def specCancelJob : OpSpec :=
  { op := 0x0506, maxLen := 4, log := always, named := nameWord 0, run := cmdCancelJob }

def specGetJobStatus : OpSpec := { op := 0x0507, maxLen := 4, run := cmdGetJobStatus }

/-! ### Status (R166) -/

def cmdGetEngineStatus (c : Ctx) (s : State) : CmdOut :=
  let p := c.page
  .done .ok [word (quotaOf s p 7), word (effBudget s p), word (liveQ s p), word (fceil (oneShot s p)),
    word (degraded s p).length, if p = 0 then word s.engines.capacitySeen else 0] s

def cmdGetKernelLibrary (c : Ctx) (s : State) : CmdOut :=
  let k := bn c 0
  if k = 0 ∨ 8 < k then refuse .range
  else
    .done .ok [s.sys.klibVersion, word (bitmap ((List.range 3).filter (fun v => decide (kernelK k v ≠ 0)))),
      word (kernelK k 0), word (kernelK k 1), word (kernelK k 2), word (kernelF k)] s

def specGetEngineStatus : OpSpec := { op := 0x0508, run := cmdGetEngineStatus }

def specGetKernelLibrary : OpSpec := { op := 0x0509, maxLen := 4, run := cmdGetKernelLibrary }

/-- LOAD_KERNEL has no effect in this stepping (R140). -/
def specLoadKernel : OpSpec := { op := 0x050A, maxLen := 65536, run := fun _ _ => refuse .unsupported }

/-! ### Meanings of the commands -/

def execCreateProcessedSource (page : Fin 16) (d : Desc) (s : State) : Host.Outcome State Fault Refusal :=
  if d.Wf then .next (issue specCreateProcessedSource page d s) else .fault .illFormed

def execModifyProcessedSource (page : Fin 16) (d : Desc) (s : State) : Host.Outcome State Fault Refusal :=
  if d.Wf then .next (issue specModifyProcessedSource page d s) else .fault .illFormed

def execLoadKernelData (page : Fin 16) (d : Desc) (s : State) : Host.Outcome State Fault Refusal :=
  if d.Wf then .next (issue specLoadKernelData page d s) else .fault .illFormed

def execSetLadder (page : Fin 16) (d : Desc) (s : State) : Host.Outcome State Fault Refusal :=
  if d.Wf then .next (issue specSetLadder page d s) else .fault .illFormed

/-- The request for the input's latest complete frame may meet closes in its cycle (R16). -/
def execSubmitJob (page : Fin 16) (d : Desc) (s : State) (rivals : Nat := 0) : Host.Outcome State Fault Refusal :=
  if d.Wf then .next (serveRequest rivals (issue specSubmitJob page d) s) else .fault .illFormed

def execCancelJob (page : Fin 16) (d : Desc) (s : State) : Host.Outcome State Fault Refusal :=
  if d.Wf then .next (issue specCancelJob page d s) else .fault .illFormed

def execGetJobStatus (page : Fin 16) (d : Desc) (s : State) : Host.Outcome State Fault Refusal :=
  if d.Wf then .next (issue specGetJobStatus page d s) else .fault .illFormed

def execGetEngineStatus (page : Fin 16) (d : Desc) (s : State) : Host.Outcome State Fault Refusal :=
  if d.Wf then .next (issue specGetEngineStatus page d s) else .fault .illFormed

def execGetKernelLibrary (page : Fin 16) (d : Desc) (s : State) : Host.Outcome State Fault Refusal :=
  if d.Wf then .next (issue specGetKernelLibrary page d s) else .fault .illFormed

def execLoadKernel (page : Fin 16) (d : Desc) (s : State) : Host.Outcome State Fault Refusal :=
  if d.Wf then .next (issue specLoadKernel page d s) else .fault .illFormed

/-! ### Events -/

/-- A job that still waits for work items. -/
def jobLive (s : State) (j : Handle) : Option Job :=
  (tget s.engines.jobs j).bind (fun x => if x.state = 2 then none else some x)

/-- A byte of an engine's local memory: 0 once it has been cleared (R140, R141). -/
def localByte (s : State) (e a : Nat) : Byte :=
  match tget s.engines.localMem e with
  | some n => Config.localByte n a
  | none => 0

/-- An engine is free of its work item, which leaves something in its local memory (R140). -/
def freeEngine (e : Nat) (s : State) : State :=
  { setEngines { s.engines with busy := tdel s.engines.busy e, localMem := tset s.engines.localMem e s.free } s with
    free := s.free + 1 }

/-- An engine finishes its work item (R142, R152). -/
def execWorkItemDone (engine : Fin 512) (s : State) : Host.Outcome State Fault Refusal :=
  match tget s.engines.busy engine.val with
  | none => .next s
  | some j =>
    let s1 := freeEngine engine.val s
    .next (dispatch (match jobLive s j with
      | none => s1
      | some x =>
        let s2 := jobPut j { x with itemsRunning := x.itemsRunning - 1 } s1
        if x.itemsWaiting = 0 ∧ x.itemsRunning ≤ 1 then finishJob j s2 else s2))

/-- A job's deadline passes before it completes (R159): its output is not used; a job of a partition that
has been reset or deleted ends here (R130). -/
def execDeadlineMiss (job : Word) (s : State) : Host.Outcome State Fault Refusal :=
  match tget s.engines.jobs job.toNat with
  | none => .next s
  | some x =>
    if x.state = 2 ∨ fgt x.deadline ⟨now s, 1⟩ = true then .next s
    else if x.ends then .next (dispatch (endJobNow job.toNat s))
    else if x.missed then .next s
    else
      let h := x.stream.getD job.toNat
      let s1 := jobPut job.toNat { x with missed := true } s
      let s2 := { s1 with
        procs := tmod s1.procs h (fun e => { e with misses := e.misses + 1 })
        routes := tmod s1.routes h (fun e => { e with misses := e.misses + 1 }) }
      .next (postNtf x.part 0x0503 [word h] (raise 129 0 s2))

/-- An engine goes offline; its work item runs again from the start on another engine, the cluster
raises its event, and the capacity falls (R142, R156). -/
def engineOff (engine : Fin 512) (trap : Bool) (s : State) : State :=
  let e := engine.val
  let c := e / 32
  if e ∈ s.engines.offline then s
  else
    let s1 := setEngines { s.engines with offline := e :: s.engines.offline, busy := tdel s.engines.busy e } s
    let s2 := match (tget s.engines.busy e).bind (fun j => (jobLive s j).map (fun x => (j, x))) with
      | none => s1
      | some (j, x) =>
        if x.cancelled then
          let s2 := jobPut j { x with itemsRunning := x.itemsRunning - 1 } s1
          if x.itemsRunning ≤ 1 then finishJob j s2 else s2
        else jobPut j { x with itemsRunning := x.itemsRunning - 1, itemsWaiting := x.itemsWaiting + 1 } s1
    let s3 := raise (113 + c) (if trap then 2 else 1) s2
    if 32 ≤ (s3.engines.offline.filter (fun n => decide (n / 32 = c))).length then raise (113 + c) 3 s3 else s3

def execEngineFault (engine : Fin 512) (trap : Bool) (s : State) : Host.Outcome State Fault Refusal :=
  .next (awake (fun s => if engine.val ∈ s.engines.offline then s else dispatch (capacityCheck (engineOff engine trap s))) s)

def execLmEccCorrected (engine : Fin 512) (s : State) : Host.Outcome State Fault Refusal :=
  .next (raise (113 + engine.val / 32) 0 s)

/-- The capacity has stayed up for 5 s: streams step up, in each partition in turn (R158). -/
def execCapacityRiseHold (s : State) : Host.Outcome State Fault Refusal :=
  match s.engines.upSince with
  | none => .next s
  | some t =>
    if now s < t + 5000000 then .next s
    else .next ((List.range 16).foldl (fun s p => stepUp p (maxSteps s p) s)
      (setEngines { s.engines with upSince := none } s))

end Sys2Proof.Machine
end

