-- ==== Sys2Proof/Machine/Reference.lean ====
section
/-! DEFINITION. The timebase as candidates and domains see it: measures of phase and frequency, alignment events
(R264, R266, R270–R272), where the ticks of a domain fall (R274), and frame pulses (R276). The timing-class commands
and the selector stand in Timing.lean. -/

namespace Sys2Proof.Machine

open Sys2Proof

def setTime (t : Timebase) (s : State) : State := { s with time := t }

def candGet (s : State) (i : Nat) : Candidate := (tget s.time.list i).getD {}

def candPut (i : Nat) (c : Candidate) (s : State) : State := setTime { s.time with list := tset s.time.list i c } s

def domainGet (s : State) (td : Nat) : Domain := (tget s.time.domains td).getD {}

def domainPut (td : Nat) (d : Domain) (s : State) : State := setTime { s.time with domains := tset s.time.domains td d } s

/-- The next free measure. -/
def measure (s : State) : Int × State := (Config.measured s.free, { s with free := s.free + 1 })

/-- A frame period in ns is num / den. -/
def periodNs (rate : Nat) : Frac := ⟨1001 * 1000000000, max 1 (rate1001 rate)⟩

/-- A frame period in fs is num / den. -/
def periodFs (rate : Nat) : Frac := ⟨1001 * 1000000000000000, max 1 (rate1001 rate)⟩

/-- An instant of the timebase's own time as powered time in ns. -/
def poweredNs (s : State) (c : Int) : Int :=
  1000 * (now s : Int) + (c - clockNow s) * 1000 / (1000000000 + s.time.freqOffset)

/-- A value that turns from one to another at a slope of 0.1 ppm steps, dt µs after it started (R270, R274). -/
def slewTo (start goal : Int) (slope dt : Nat) : Int :=
  let d := slope * dt
  if (goal - start).natAbs * 10000 ≤ d then goal else start + (goal - start).sign * (d / 10000 : Nat)

/-- A phase in the shorter direction modulo a period; of two equal ones, that which retards the timebase (R270). -/
def shorter (t : Frac) (p : Int) : Int :=
  let m := p * t.den % t.num
  if 2 * m ≤ t.num then m / t.den else -((t.num - m) / t.den)

/-- The phase of an alignment event of a candidate: modulo the frame period, or 100 ns (R270). DESIGN CHOICE (log entry
149): the alignment period of KIND 3 is the frame period of TD0. -/
def phaseOf (s : State) (c : Candidate) (p : Int) : Int :=
  match c.kind with
  | 1 => shorter (periodNs c.rate) p
  | 2 => shorter ⟨100, 1⟩ p
  | 4 => shorter (periodNs (srcGet s c.source).fmt.rate) p
  | _ => shorter (periodNs (domainGet s 0).rate) p

/-- How far an event stands, against the local oscillator, from where one dt µs earlier at phase q leads with no
deviation: the timebase itself has moved in between. -/
def moved (s : State) (c : Candidate) (p q : Int) (dt : Nat) : Int :=
  phaseOf s c (p - q - s.time.freqOffset * dt / 1000000)

/-! ### Output frequency (R270–R272) -/

/-- What is left of a slew, in 1/10,000 ns. -/
def slewLeft (s : State) : Nat :=
  if s.time.state = 1 then s.time.phaseErr.natAbs * 10000 - s.time.slopeNow * (now s - s.time.slewStart) else 0

/-- The newest entries of a log of durations that make up 10 s. -/
def lastTen : Nat → List (Nat × Int) → List (Nat × Int)
  | _, [] => []
  | left, (d, v) :: t => if left = 0 then [] else (min d left, v) :: lastTen (left - d) t

/-- The output frequency changes; in LOCKED the one before is remembered for 10 s (R272). -/
def setFreq (v : Int) (s : State) : State :=
  let log := if s.time.state = 2 then lastTen 10000000 ((now s - s.time.freqSince, s.time.freqOffset) :: s.time.freqLog)
    else s.time.freqLog
  setTime { s.time with freqLog := log, clock := clockNow s, freqSince := now s, freqOffset := v } s

/-- The mean output frequency over the last 10 s of LOCKED (R272); the manual gives no rounding. -/
def meanFreq (t : Timebase) : Int :=
  let d := (t.freqLog.map Prod.fst).sum
  let n := (t.freqLog.map (fun e => e.2 * (e.1 : Int))).sum
  if d = 0 then t.freqOffset else if n % d = 0 then n / d else n / d + b1 (Config.roundUp n.natAbs d)

/-- A frequency in steps that the manual bounds: never more than 100 ppm + SLOPE at once (R270). -/
def stepFreq (t : Timebase) (v : Int) : Int :=
  let b : Int := 100000 + 100 * t.slopeNow
  t.freqOffset + max (-b) (min b (v - t.freqOffset))

/-- The output frequency where no candidate gives it: nominal in FREERUN, the holdover data in HOLDOVER (R267, R272). -/
def restFreq (t : Timebase) : Int := stepFreq t (if t.state = 3 then t.holdover.getD 0 else 0)

/-- What a bounded step has left of the way is gone at the next evaluation. -/
def settleClock (s : State) : State :=
  if (s.time.state = 0 ∨ s.time.state = 3) ∧ restFreq s.time ≠ s.time.freqOffset then setFreq (restFreq s.time) s else s

/-- The output frequency while it slews towards a candidate: an event that is late retards the timebase (R270). -/
def slewFreq (t : Timebase) (c : Candidate) : Int :=
  stepFreq t (c.freq.getD 0 + (if 0 < t.phaseErr then -(100 * t.slopeNow : Int) else 100 * t.slopeNow))

/-- The output frequency in LOCKED: what BANDWIDTH makes of the phase error, within SLOPE of the candidate (R271). -/
def trackFreq (t : Timebase) (c : Candidate) : Int :=
  let f := c.freq.getD 0
  let b : Int := 100 * t.slopeNow
  stepFreq t (max (f - b) (min (f + b) (Config.tracked t.bandNow t.phaseErr t.freqOffset f)))

/-! ### Domains (R274, R275) -/

/-- The domain is aligned (R274, R275). -/
def isAligned (s : State) (td : Nat) : Bool :=
  let d := domainGet s td
  let near := fun (r : Nat) => (List.range 4).any (fun m =>
    decide (rate1001 d.rate = (m + 1) * rate1001 r ∨ (m + 1) * rate1001 d.rate = rate1001 r))
  match s.time.selected.bind (fun i => tget s.time.list i) with
  | none => false
  | some c => d.eventSeen && (match c.kind with
    | 3 => true
    | 1 => near c.rate
    | 4 => near (srcGet s c.source).fmt.rate
    | _ => false)

/-- OFFSET of a domain as it stands: a change is slewed at SLOPE (R274). -/
def offsetNow (s : State) (d : Domain) : Int := slewTo d.offsetFrom d.offset s.time.slopeNow (now s - d.offsetAt)

/-- The first instant of a grid of period t through g that lies more than half a period after another. -/
def nextOnGrid (t : Frac) (g last : Int) : Int :=
  let k := (2 * (last - g) * t.den + t.num) / (2 * t.num) + 1
  g + (k * t.num + t.den - 1) / t.den

/-- Where the next tick of a domain falls, by the timebase's own time: on the grid OFFSET after the instant that it is
aligned to, or whose phase it keeps (R272, R274). -/
def tickDue (s : State) (td : Nat) : Int :=
  let d := domainGet s td
  match d.alignAt with
  | some g => nextOnGrid (periodFs d.rate) (g + 1000000 * offsetNow s d) d.lastClock
  | none => nextOnGrid (periodFs d.rate) d.lastClock d.lastClock

/-- A domain that has neither ticked nor been aligned: its first tick sets its phase. -/
def firstTick (d : Domain) : Bool := decide (d.ticks = 0) && d.alignAt.isNone

/-- A tick of the domain falls now, to the microsecond of powered time. -/
def tickFalls (s : State) (td : Nat) : Bool :=
  firstTick (domainGet s td) || decide (tickDue s td ≤ clockAt s.time (now s + 1))

/-- The exact instant of a tick that falls now. -/
def tickAt (s : State) (td : Nat) : Int := if firstTick (domainGet s td) then clockNow s else tickDue s td

/-- A tick is counted; a domain with no phase takes it from this one. -/
def countTick (td : Nat) (s : State) : State :=
  let d := domainGet s td
  domainPut td { d with
    ticks := d.ticks + 1, lastTick := now s, lastClock := clockNow s
    alignAt := some (d.alignAt.getD (tickAt s td - 1000000 * offsetNow s d)) } s

/-- A domain joins the grid of the timebase's alignment instants through g; its ticks turn from where they stand
(R274). From then on they follow the timebase, and so no raw event moves them faster than SLOPE (R271). -/
def joinGrid (s : State) (g : Int) (d : Domain) : Domain :=
  if d.aligned then d
  else { d with
    aligned := true, alignAt := some g, offsetAt := now s
    lastClock := if d.ticks = 0 then clockNow s else d.lastClock
    offsetFrom := if d.ticks = 0 then d.offset
      else d.offset + shorter (periodNs d.rate) ((d.lastClock - g) / 1000000 - d.offset) }

/-- An alignment instant of the timebase for a domain, by an event of the selected candidate at phase e: KIND 3 has one
wherever the time since the epoch is a whole number of the domain's periods. -/
def gridOf (s : State) (c : Candidate) (d : Domain) : Int :=
  let t := periodFs d.rate
  (if c.kind = 3 then c.ptpClock - ((c.ptpSeconds * 1000000000 + c.ptpNanos) * 1000000 * t.den % t.num / t.den : Nat)
    else clockNow s) - 1000000 * s.time.phaseErr

/-- An alignment event of the selected candidate: in LOCKED the domains that it aligns join its grid (R274, R275). -/
def alignDomains (s : State) : State :=
  match s.time.selected.bind (fun i => tget s.time.list i) with
  | some c =>
    let join := fun (l : Tbl Domain) (td : Nat) =>
      let d := { domainGet s td with eventSeen := true }
      tset l td (if s.time.state = 2 ∧ isAligned (domainPut td d s) td then joinGrid s (gridOf s c d) d else d)
    setTime { s.time with domains := (List.range 16).foldl join s.time.domains } s
  | none => s

/-! ### Candidates (R264, R266) -/

/-- The selected candidate moves against the output faster than SLOPE: SLOPE_LIMITED once in a second (R271). -/
def slopeCheck (c : Candidate) (s : State) : State :=
  if s.time.state = 2 ∧ 100 * s.time.slopeNow < (c.freq.getD s.time.freqOffset - s.time.freqOffset).natAbs
    ∧ s.time.limitedSecond ≠ some (second s) then
    raise 221 2 (setTime { s.time with limitedSecond := some (second s) } s)
  else s

/-- The count towards qualification starts again (R266). -/
def restartCount (t : Nat) (c : Candidate) : Candidate := { c with cleanSince := t, seen := 0, pendQual := false }

/-- A fault of Table 11-1: the count starts again, and the entry is disqualified at the next evaluation; a KIND 1
entry only by a second consecutive fault. -/
def faulted (t : Nat) (c : Candidate) : Candidate :=
  { restartCount t c with
    faults := c.faults + 1, pendDisq := c.pendDisq || decide (c.kind ≠ 1 ∨ 2 ≤ c.faults + 1)
    expect := if c.kind ≠ 1 ∨ 2 ≤ c.faults + 1 then none else c.expect
    freq := if c.kind ≠ 1 ∨ 2 ≤ c.faults + 1 then none else c.freq
    masters := [], syncDue := none }

/-- The frequency an event shows, in 0.001 ppm, from one at phase q dt µs earlier. -/
def shownFreq (s : State) (c : Candidate) (p q : Int) (dt : Nat) : Option Int :=
  if dt = 0 then c.freq else some (-(moved s c p q dt) * 1000000 / dt)

/-- A frequency outside ±100 ppm starts the count again (R266). -/
def withFreq (t : Nat) (f : Option Int) (c : Candidate) : Candidate :=
  let c1 := { c with freq := f }
  if (f.getD 0).natAbs ≤ 100000 then c1 else restartCount t c1

/-- The frequency that n frame periods in dt µs show, in 0.001 ppm. -/
def countFreq (rate n dt : Nat) : Option Int :=
  let t := periodUs rate
  if dt = 0 then none else some (((n * t.num : Nat) - (dt * t.den : Nat) : Int) * 1000000000 / (dt * t.den : Nat))

/-- What an alignment event at phase p says of a candidate (R266): a pulse of KIND 1 more than 1 µs from its expected
instant is a fault; a frame start of KIND 4 is counted. DESIGN CHOICE (log entry 149): the frequency of KIND 2 and 3 is
measured over at least 100 ms, that of a qualified KIND 4 entry over 10 s. -/
def seeEvent (s : State) (p : Int) (c : Candidate) : Candidate :=
  let t := now s
  match c.kind with
  | 1 =>
    (match c.expect with
    | none => { c with expect := some (p, t), faults := 0 }
    | some (q, t0) =>
      let dt := t - t0
      let off := (c.freq.map (fun f => phaseOf s c (moved s c p q dt + f * dt / 1000000))).getD 0
      if 1000 < off.natAbs then faulted t c
      else withFreq t (shownFreq s c p q dt) { c with expect := some (p, t), faults := 0 })
  | 4 =>
    if c.seen = 0 then { c with seen := 1, firstAt := t }
    else if c.qualified ∧ t < c.firstAt + 10000000 then { c with seen := c.seen + 1 }
    else { c with
      freq := countFreq (srcGet s c.source).fmt.rate c.seen (t - c.firstAt)
      seen := if c.qualified then 1 else c.seen + 1, firstAt := if c.qualified then t else c.firstAt }
  | _ => (match c.phaseNs, c.expect with
    | some q, some (y, t0) =>
      let z := y + moved s c p q (t - c.edgeAt)
      if t < t0 + 100000 then { c with expect := some (z, t0) }
      else withFreq t (some (-z * 1000000 / (t - t0 : Nat))) { c with expect := some (0, t) }
    | _, _ => { c with expect := some (0, t) })

/-- An alignment event of an entry, with its phase; in LOCKED the timebase tracks it (R271, R274). A misplaced pulse
is a fault and nothing else. -/
def alignment (i : Nat) (phase : Int) (s : State) : State :=
  let c := candGet s i
  let p := phaseOf s c phase
  let c0 := seeEvent s p c
  if c.faults < c0.faults then candPut i c0 s
  else
    let c1 := { c0 with phaseNs := some p, edgeAt := now s }
    let s1 := candPut i c1 s
    if s.time.selected ≠ some i then s1
    else
      let s2 := slopeCheck c1 s1
      let s3 := if s2.time.state = 2 then
          let s3 := setTime { s2.time with phaseErr := p } s2
          setFreq (trackFreq s3.time c1) s3
        else s2
      alignDomains s3

/-- A frame start of a source is an alignment event of the KIND 4 entries that name it: its phase is where the
timebase's own time stands in the frame period. -/
def frameCadence (h : Handle) (s : State) : State :=
  (s.time.list.filter (fun e => e.2.enable && decide (e.2.kind = 4 ∧ e.2.source = h))).foldl (fun s e =>
    alignment e.1 (clockNow s / 1000000) s) s

/-! ### Frame-pulse outputs (R276) -/

/-- The KIND 1 entry on a REFIN. -/
def pulseEntry (s : State) (refin : Nat) : Option Candidate :=
  (s.time.list.find? (fun e => decide (e.2.kind = 1 ∧ e.2.port = refin))).map Prod.snd

/-- The frequency of what an output follows, from nominal, in 0.001 ppm: the timebase's, or that of the entry whose
pulses it follows. -/
def pulseFreq (s : State) (x : Pulse) : Int :=
  if x.source < 17 ∨ x.flywheel then s.time.freqOffset
  else ((pulseEntry s (x.source - 17)).bind (fun c => c.freq)).getD s.time.freqOffset

/-- The frame period of an output's source, in fs of the timebase's own time. -/
def pulsePeriod (s : State) (x : Pulse) : Frac :=
  fmul (periodFs (if 1 ≤ x.source ∧ x.source ≤ 16 then (domainGet s (x.source - 1)).rate else x.rate))
    ⟨(1000000000 + s.time.freqOffset).toNat, (1000000000 + pulseFreq s x).toNat⟩

/-- OFFSET of an output as it stands: a change is slewed at SLOPE. -/
def pulseOffset (s : State) (x : Pulse) : Int := slewTo x.offsetFrom x.offset s.time.slopeNow (now s - x.offsetAt)

/-- A pulse is never closer to the one before than (1 − SLOPE) × period. -/
def spaced (s : State) (x : Pulse) (d : Int) : Int :=
  let t := pulsePeriod s x
  match x.lastPulse with
  | none => d
  | some l => max d (l + ((t.num * (10000000 - s.time.slopeNow) + t.den * 10000000 - 1) / (t.den * 10000000) : Nat))

/-- The pulses of a REFIN as the DPLL cleans them: their phase goes on at the entry's frequency, and a pulse moves it by
no more than SLOPE. DESIGN CHOICE (log entry 149): each input is cleaned by itself, selected or not. -/
def cleaned (s : State) (c : Candidate) (x : Pulse) : Pulse :=
  let p := c.phaseNs.getD 0
  match x.follow with
  | none => { x with follow := some (clockNow s - 1000000 * p, p, now s) }
  | some (a, q, t) =>
    let dt := now s - t
    let q1 := q + (s.time.freqOffset - pulseFreq s x) * dt / 1000000
    let b : Int := (s.time.slopeNow * dt / 10000 : Nat)
    { x with follow := some (a, q1 + max (-b) (min b (shorter (periodNs c.rate) (p - q1))), now s) }

/-- The grid of an output's cleaned pulses, OFFSET after each. -/
def pulseGrid (s : State) (x : Pulse) : Option Int := x.follow.map (fun f => f.1 + 1000000 * (f.2.1 + pulseOffset s x))

/-- An output follows its entry again: from where the timebase kept its pulses, through a slew. -/
def rejoined (s : State) (c : Candidate) (x : Pulse) : Pulse :=
  let a := clockNow s - 1000000 * (c.phaseNs.getD 0) - (now s - c.edgeAt : Nat) * (1000000000 + s.time.freqOffset)
  { x with flywheel := false, follow := some (match x.follow with
    | some (b, q, _) => (b, q, now s)
    | none => (a, (x.lastPulse.getD a - a) / 1000000 - pulseOffset s x, now s)) }

/-- Pulses that are due leave; one without its source stays on its grid, or follows a period after the last, by the
timebase. -/
def firePulses (s : State) : State :=
  s.time.pulses.foldl (fun s e =>
    let x := e.2
    let due := if x.flywheel then
        some ((x.lastPulse.map (fun l => nextOnGrid (pulsePeriod s x) ((pulseGrid s x).getD l) l)).getD (clockNow s))
      else x.due
    match due with
    | some d =>
      if x.source ≠ 0 ∧ d ≤ clockNow s then
        send (.pulse e.1 x.activeHigh x.width (poweredNs s d))
          (setTime { s.time with pulses := tset s.time.pulses e.1 { x with due := none, lastPulse := some d } } s)
      else s
    | none => s) s

/-- The source of frame-pulse outputs has its event, at an instant of the timebase's own time: the pulse follows OFFSET
after it. -/
def sendPulses (p : Pulse → Bool) (at_ : Pulse → Int) (s : State) : State :=
  firePulses (setTime { s.time with pulses := tall s.time.pulses (fun _ x =>
    if !p x then x
    else
      let t := pulsePeriod s x
      let o := 1000000 * pulseOffset s x
      { x with due := some (spaced s x (at_ x + (if o < 0 then o + (t.num + t.den - 1) / t.den else o))) }) } s)

/-- A pulse of a KIND 1 entry at its expected instant: the outputs on its REFIN follow it as cleaned. -/
def followEdge (refin i : Nat) (s : State) : State :=
  let c := candGet s i
  let on := fun (p : Pulse) => decide (p.source = 17 + refin) && !p.flywheel
  let s1 := setTime { s.time with pulses := tall s.time.pulses (fun _ x => if on x then cleaned s c x else x) } s
  sendPulses on (fun x =>
    let t := periodFs c.rate
    nextOnGrid t ((x.follow.map (fun f => f.1 + 1000000 * f.2.1)).getD 0) (clockNow s - (t.num / t.den : Nat))) s1

end Sys2Proof.Machine
end

