-- ==== Sys2Proof/Machine/Ingress.lean ====
section
/-! DEFINITION. Ingress streams, host surfaces and decode contexts: the format block, storage conversion,
frame shape and patching, stream states, and the ingress-class commands (R79–R107). -/

namespace Sys2Proof.Machine

open Sys2Proof

/-! ### The format block (R80–R82, Table 4-2) -/

/-- The format block in three words. -/
def formatOf (w2 w3 w4 : Word) : Format :=
  { width := bits w2 13 0, height := bits w2 29 16
    rate := bits w3 3 0, interlaced := bit w3 4, sampling := bits w3 6 5, depth := bits w3 9 8
    store := bits w3 11 10, follow := bit w3 12
    colour := { matrix := bits w3 15 13, transfer := bits w3 17 16, primaries := bits w3 19 18, full := bit w3 20 }
    ringDepth := if bits w4 4 0 = 0 then 4 else bits w4 4 0
    stallFrames := if bits w4 11 8 = 0 then 3 else bits w4 11 8
    ic := bits w4 15 12, ancEn := bit w4 16 }

/-- Words 3 and 4 of the format block where a short body leaves them out (Table 4-2). -/
def formatDflt : List Word := [pack [(2, 15, 13), (2, 19, 18)], pack [(4, 4, 0), (3, 11, 8), (15, 15, 12)]]

/-- Reserved bits of the block (Table 4-2). -/
def formatRsv : List Word := [field 13 0 ||| field 29 16, field 6 0 ||| field 20 8, field 4 0 ||| field 16 8]

/-- Field ranges (R80, R81). -/
def formatRange (f : Format) : Bool :=
  decide (64 ≤ f.width ∧ f.width ≤ 7680 ∧ f.width % 2 = 0 ∧ 64 ≤ f.height ∧ f.height ≤ 4320)
    && (!f.interlaced || decide (f.height % 2 = 0)) && decide (rate1001 f.rate ≠ 0)
    && decide (f.sampling ≠ 3 ∧ f.depth ≠ 3 ∧ f.colour.matrix ≤ 3 ∧ f.colour.transfer ≤ 2)
    && decide (2 ≤ f.ringDepth ∧ f.ringDepth ≤ 16) && decide (f.ic ≤ 7 ∨ f.ic = 15)
    && decide (f.width * objHeight f * rate1001 f.rate ≤ 995328000 * 1001)
    && (!f.interlaced || decide (f.rate ∈ [6, 7, 8]))

/-- Fields that must agree (R82). -/
def formatAgrees (k : SrcKind) (f : Format) : Bool :=
  (decide (f.sampling ≠ 0) || (decide (f.colour.matrix = 0 ∧ f.store ≤ 1)))
    && (decide (f.sampling = 0) || decide (f.colour.matrix ≠ 0))
    && (match k with
      | .surface => decide (f.sampling = 0 ∧ f.depth ≠ 2) && !f.interlaced && !f.follow
      | .st2110 _ _ _ => !f.follow
      | _ => true)

/-! ### Storage conversion (R83, R84) -/

/-- A sample of the given depth at 10 bits. -/
def to10 (depth v : Nat) : Nat :=
  if depth = 0 then v * 4 else if depth = 1 then v else min 1023 (divHalfUp v 4)

/-- A sample of the given depth at 8 bits, as P2 stores it; the manual gives no rounding from 12 bits. -/
def to8 (depth v : Nat) : Nat :=
  if depth = 0 then v else if depth = 1 then min 255 (divHalfUp v 4) else min 255 (divOpen v 16)

/-- The run that holds column x of line y. -/
def holds (y x : Nat) (r : RawRun) : Bool := decide (r.y = y ∧ r.x ≤ x ∧ x < r.x + r.px.length)

/-- The samples of column x of line y, where they have arrived. -/
def rawAt (raw : List RawRun) (y x : Nat) : Option (Nat × Nat × Nat) := (raw.find? (holds y x)).bind (fun r => r.px[x - r.x]?)

/-- A chroma component of column i of a line; where no pixel of the line stands there (outside the line, or
lost) it is what `Config.edgeChroma` gives for the column `inner`. -/
def chromaAt (line : Nat → Option (Nat × Nat × Nat)) (c : Nat × Nat × Nat → Nat) (i : Int) (inner : Nat) : Nat :=
  match if 0 ≤ i then line i.toNat else none with
  | some p => c p
  | none => Config.edgeChroma (((line inner).map c).getD 0) inner

/-- One chroma component of column i, 4:4:4 to 4:2:2: [1 2 1]/4 at even luma (Table 4-4). -/
def filtered (line : Nat → Option (Nat × Nat × Nat)) (c : Nat × Nat × Nat → Nat) (i : Nat) : Nat :=
  if i % 2 = 1 then 0
  else divOpen (chromaAt line c (i - 1 : Int) i + 2 * chromaAt line c i i + chromaAt line c (i + 1 : Int) i) 4

/-- One chroma component of column i, 4:2:2 to 4:4:4: an odd one is the mean of its neighbours. -/
def spread (line : Nat → Option (Nat × Nat × Nat)) (c : Nat × Nat × Nat → Nat) (i : Nat) : Nat :=
  if i % 2 = 0 then chromaAt line c i i
  else divOpen (chromaAt line c (i - 1 : Int) (i - 1) + chromaAt line c (i + 1 : Int) (i - 1)) 2

/-- The pixel p of column i (c0, c1, c2: Cb or B, Y or G, Cr or R) as the storage format holds it. Chroma is filtered or
interpolated at the input's depth, and the depth converted after that (DESIGN CHOICE, log entry 142). -/
def convertPx (f : Format) (line : Nat → Option (Nat × Nat × Nat)) (i : Nat) (p : Nat × Nat × Nat) : Nat × Nat × Nat × Nat :=
  let store := storeOf f
  let d := f.depth
  if f.sampling = 0 then
    (if d = 0 then (p.1, p.2.1, p.2.2, 255) else (to10 d p.1, to10 d p.2.1, to10 d p.2.2, 3))
  else
    let chroma := fun (c : Nat × Nat × Nat → Nat) =>
      if store ≠ 1 ∧ f.sampling = 1 then filtered line c i else if store = 1 ∧ f.sampling = 2 then spread line c i else c p
    let cb := chroma (fun q => q.1)
    let cr := chroma (fun q => q.2.2)
    if store = 3 then (to8 d cb, to8 d p.2.1, to8 d cr, 0) else (to10 d cb, to10 d p.2.1, to10 d cr, 0)

/-- What has arrived of a frame, as the storage format holds it: pixels beyond WIDTH are discarded (R83, Table 4-5). -/
def convertRuns (f : Format) (raw : List RawRun) : List Run :=
  raw.map (fun r =>
    let line := fun x => if x < f.width then rawAt raw r.y x else none
    ⟨r.y, r.x, ((List.range r.px.length).map (fun k => convertPx f line (r.x + k) ((r.px[k]?).getD (0, 0, 0)))).take (f.width - r.x)⟩)

/-! ### Kinds -/

/-- A stream of the ingress class (R105). -/
def isIngress (x : Source) : Bool :=
  match x.kind with
  | .link _ _ _ => true
  | .st2110 _ _ _ => true
  | .surface => true
  | .imported _ _ _ => true
  | _ => false

/-- An import source (R370). -/
def isImport (x : Source) : Bool :=
  match x.kind with
  | .imported _ _ _ => true
  | _ => false

/-- A source an IC unit writes (R89, R370). -/
def onIc (x : Source) : Bool := isIngress x && decide (x.kind ≠ .surface)

/-- The receive port of a link source, or of an import's ring; 32 for any other. -/
def portOf (s : State) (x : Source) : Nat :=
  match x.kind with
  | .link p _ _ => p
  | .imported _ _ r => s.domino.rxPorts.getD r 0
  | _ => 32

def stateCode : StreamState → Nat
  | .stopped => 0 | .waiting => 1 | .running => 2 | .stalled => 3

/-- A stream changes state (R89). -/
def setStream (h : Handle) (st : StreamState) (s : State) : State :=
  if (srcGet s h).state = st then s
  else postNtf (srcGet s h).owner 0x0302 [word h, word (stateCode st)] (srcMod h (fun x => { x with state := st }) s)

/-- Raise a sub-cause of the IC unit a stream runs on (R94). -/
def raiseIc (h : Handle) (sub : Nat) (s : State) : State := raise (211 + (srcGet s h).ic % 8) sub s

/-- A MODIFY_STREAM that has been handed off applies: format, unit, shape count (R104). -/
def applyFormat (h : Handle) (s : State) : State :=
  match (srcGet s h).pendingFmt with
  | none => s
  | some (f, p, e) =>
    let s1 := srcMod h (fun x => { x with
      fmt := f, ic := if f.ic = 15 then x.ic else f.ic
      pendingFmt := none, pendingAlso := [], suspect := false, shape := none, shapeCount := 0 }) s
    ((srcGet s h).pendingAlso ++ [(p, e)]).foldl (fun s q => applied q.1 (.source h) q.2 s) s1

/-! ### Frames (R85–R88, R111, R118) -/

/-- Change the frame in progress: the last one started, while it has not ended. -/
def modFrame (h : Handle) (f : Frame → Frame) (s : State) : State :=
  srcMod h (fun x => { x with writing := match x.writing.reverse with
    | g :: t => if g.ended then x.writing else (f g :: t).reverse
    | [] => [] }) s

/-- The frame in progress, if it has not ended. -/
def openFrame (s : State) (h : Handle) : Option Frame :=
  match (srcGet s h).writing.getLast? with
  | some f => if f.ended then none else some f
  | none => none

/-- Patch lines come only from a frame of the same storage format, size and field parity (R86). -/
def patchable (a b : Obj) : Bool :=
  decide (a.format = b.format ∧ a.variant = b.variant ∧ a.w = b.w ∧ a.h = b.h ∧ a.parity = b.parity)

/-- The format lines are written under: that of the frame in progress (R104). -/
def frameFmt (s : State) (h : Handle) : Format := ((openFrame s h).map (fun f => f.fmt)).getD (srcGet s h).fmt

/-- The first column of line y, from c on, that no run holds, looking at most n runs far. -/
def reach (raw : List RawRun) (y : Nat) : Nat → Nat → Nat
  | 0, c => c
  | n + 1, c => match raw.find? (holds y c) with
    | some r => reach raw y n (r.x + r.px.length)
    | none => c

/-- The frame is damaged: missing pixels are to be completed (Table 4-5). -/
def damaged (f : Frame) : Bool :=
  (List.range (objHeight f.fmt)).any (fun y => decide (reach f.raw y f.raw.length 0 < f.fmt.width))

/-- Every run of pixels that arrived, in order: its line and its last column. -/
def arrivals (f : Frame) : List (Nat × Nat) :=
  let rows := f.raw.reverse
  (List.range (rows.length + 1)).flatMap (fun i =>
    ((f.beyond.reverse.filter (fun e => decide (e.2.2 = i))).map (fun e => (e.1, e.2.1)))
      ++ ((rows[i]?).map (fun r => (r.y, r.x + r.px.length))).toList)

/-- The lines that arrived, in order, each with its measured width; a line that is shorter only where a sequence
gap lies has WIDTH (R85). -/
def measured (f : Frame) : List (Nat × Nat) :=
  (((arrivals f).map Prod.fst).eraseDups).map (fun y =>
    let w := (((arrivals f).filter (fun r => decide (r.1 = y))).map Prod.snd).foldl max 0
    (y, if w < f.fmt.width ∧ f.gaps.any (fun g => decide (g.1 ≤ y ∧ y ≤ g.2)) then f.fmt.width else w))

/-- The shape of a frame: its lines and the width of the first that differs from WIDTH (R87). -/
def shapeOf (f : Frame) : Nat × Nat :=
  (f.lines, (((measured f).map Prod.snd).find? (fun w => decide (w ≠ f.fmt.width))).getD f.fmt.width)

/-- Shape count and FORMAT_SUSPECT (R87), against the declared shape. The four frames of one report count for no other: an
unbroken run of one wrong shape is reported at every fourth frame (DESIGN CHOICE, log entry 144). -/
def shapeCheck (h : Handle) (declared sh : Nat × Nat) (s : State) : State :=
  let x := srcGet s h
  if sh = declared then
    srcMod h (fun x => { x with suspect := false, shape := none, shapeCount := 0 }) s
  else
    let n := if x.shape = some sh then x.shapeCount + 1 else 1
    if n < 4 then srcMod h (fun x => { x with shape := some sh, shapeCount := n }) s
    else
      let s1 := srcMod h (fun x => { x with shape := some sh, shapeCount := 0, suspect := true }) s
      postNtf x.owner 0x0301 [word h, pack [(sh.1, 15, 0), (sh.2, 31, 16)]] (raiseIc h 2 s1)

/-- Raise a sub-cause where a condition holds. -/
def raiseIf (c : Bool) (n sub : Nat) (s : State) : State := if c then raise n sub s else s

/-- LOS (0) or LOL (1) of a receive port, with LINK_STATE, once every frame that the loss ended has closed
(R88, R291). -/
def lossReport (port : Nat) (s : State) : State :=
  match tget s.ports port with
  | none => s
  | some q =>
    match q.lossPending with
    | none => s
    | some k =>
      if s.sources.any (fun e => decide (portOf s e.2 = port) && e.2.writing.any (fun f => f.byLoss)) then s
      else
        postNtf (holder s 1 port) 0x0B01 [word port, word 8, word k]
          (raise (64 + port) k { s with ports := tset s.ports port { q with lossPending := none } })

/-- Close the frame f of stream h: content, marks, counters and events (Table 4-5, R86, R87, R92). -/
def closeFrame (h : Handle) (f : Frame) (s : State) : State :=
  match f.slot with
  | none => s
  | some id =>
    let hh := objHeight f.fmt
    let bad := damaged f
    let sh := shapeOf f
    let kept := (measured f).filter (fun e => decide (e.1 < hh))
    let shorts := (kept.filter (fun e => decide (e.2 < f.fmt.width))).length
    let longs := (kept.filter (fun e => decide (f.fmt.width < e.2))).length
    let few := decide (f.lines < hh + f.dropped) || f.discarded
    let extra := max f.dropped (f.lines - hh)
    let o := objGet s id
    let below := match f.base with
      | some b => if bad && patchable (objGet s b) o then (objGet s b).content else .black
      | none => .black
    let s1 := closeObj h id (fun o => { o with content := .rows below (convertRuns f.fmt f.raw), patched := bad }) s
    let s2 := match f.base with
      | some b => dropRef b (.patcher h) s1
      | none => s1
    let s3 := srcMod h (fun x => { x with
      frames := sat 0xFFFFFFFF x.frames 1
      patchedCount := sat 0xFFFFFFFF x.patchedCount (b1 bad)
      short := sat 65535 x.short (b1 few)
      long := sat 65535 x.long (b1 (decide (0 < extra)))
      linesDropped := sat 0xFFFFFFFF x.linesDropped extra
      shortLines := sat 0xFFFFFFFF x.shortLines shorts, longLines := sat 0xFFFFFFFF x.longLines longs
      lastPatched := bad, lastShape := sh, fresh := false }) s2
    let u := 211 + f.ic % 8
    let s4 := raiseIf (few || decide (0 < shorts)) u 0 s3
    let s5 := raiseIf (decide (0 < extra ∨ 0 < longs) || f.excess) u 1 s4
    afterClose h id (shapeCheck h (hh, f.fmt.width) sh s5)

/-- Close the frames that have ended, in the order in which they started (R86). -/
def closeReady (h : Handle) : Nat → State → State
  | 0, s => s
  | n + 1, s =>
    match (srcGet s h).writing with
    | f :: t =>
      if f.ended && !f.copying then
        closeReady h n (closeFrame h f (srcMod h (fun x => { x with writing := t }) s))
      else s
    | [] => s

/-- Close what can be closed, then report a loss that waited for it (R88). -/
def closeFrames (h : Handle) (s : State) : State :=
  let x := srcGet s h
  lossReport (portOf s x) (closeReady h x.writing.length s)

/-- The frame in progress ends (R85): a damaged one is patched first, and closes at the end of the copy
(R86); one that found no slot is discarded whole (R118). The timestamps of the last 64 frames that ended are kept. -/
def endFrame (h : Handle) (s : State) : State :=
  match openFrame s h with
  | none => s
  | some f =>
    let s1 := srcMod h (fun x => { x with endedTs := (f.ts :: x.endedTs).take 64 }) s
    if f.slot.isNone then closeFrames h (srcMod h (fun x => { x with writing := x.writing.dropLast }) s1)
    else closeFrames h (modFrame h (fun f => { f with ended := true, copying := damaged f }) s1)

/-- A frame starts (R89, R104, R115, R118): a frame still in progress ends, a pending format applies, the
stream runs, the IC unit holds the latest complete frame (R86: none from before START_STREAM), and the writer
takes a slot. That one frame is all the patch lines can come from: the latest frame before a field is of the other parity,
so the missing pixels of a field are black (DESIGN CHOICE, log entry 143). -/
def startFrame (h : Handle) (bottom : Bool) (number : Word) (ts : Word) (s : State) : State :=
  if (srcGet s h).state = .stopped then s
  else
    let s1 := setStream h .running (applyFormat h (endFrame h s))
    let s2 := frameCadence h (srcMod h (fun y => { y with lastStart := now s }) s1)
    let y := srcGet s2 h
    match pickSlot s2 h with
    | none => srcMod h (fun y => { y with writing := y.writing ++ [{ started := now s, ts := ts, fmt := y.fmt, ic := y.ic }] }) (ringStarved h s2)
    | some id =>
      let base := if y.fresh then none else y.latest
      let s3 := match base with
        | some l => addRef l (.patcher h) s2
        | none => s2
      let tag := if y.fmt.follow then y.rxColour.getD y.fmt.colour else y.fmt.colour
      let s4 := takeSlot h id (stamp s3 {
        format := storeOf y.fmt, variant := variantOf y.fmt, w := y.fmt.width, h := objHeight y.fmt
        parity := if y.fmt.interlaced then (if bottom then 2 else 1) else 0
        colour := tag, freeOrder := (objGet s3 id).freeOrder }) s3
      srcMod h (fun y => { y with writing := y.writing ++ [{
        slot := some id, started := now s, bottom := bottom, number := number, base := base, ts := ts, fmt := y.fmt, ic := y.ic }] }) s4

/-- The capture time of a frame is that of its first active line (R111). -/
def stampFirst (f : Frame) (s : State) : State :=
  match f.slot with
  | some id => if f.lines = 0 then objPut id (stamp s (objGet s id)) s else s
  | none => s

/-- Line y of a link frame arrives (R85, Table 4-5), `excess` with more than its LS names (R299). With the crossing queue
full, the line and the rest of the frame are discarded (R88, Table 1-3). -/
def addLine (h : Handle) (y : Nat) (l : List (Nat × Nat × Nat)) (full excess : Bool) (s : State) : State :=
  match openFrame s h with
  | none => s
  | some f =>
    if f.discarded || full then modFrame h (fun f => { f with discarded := true }) s
    else if objHeight f.fmt ≤ y then modFrame h (fun f => { f with
      lines := f.lines + 1, dropped := f.dropped + 1, excess := f.excess || excess
      beyond := (y, l.length, f.raw.length) :: f.beyond }) s
    else modFrame h (fun f => { f with
      lines := f.lines + 1, excess := f.excess || excess
      raw := if f.slot.isSome then ⟨y, 0, l⟩ :: f.raw else [] }) (stampFirst f s)

/-- STALL_FRAMES frame periods without a frame start (R89). -/
def stallDue (s : State) (x : Source) : Bool :=
  let t := periodUs x.fmt.rate
  decide (x.state = .running ∧ x.fmt.stallFrames * t.num ≤ (now s - x.lastStart) * t.den)

/-- The stream enters STALLED (R89, R104). -/
def stallStream (h : Handle) (s : State) : State := applyFormat h (raiseIc h 3 (setStream h .stalled s))

/-! ### ST 2110-20 (R85) -/

/-- Samples in the order of ST 2110-20 as (c0, c1, c2): R G B; Cb Y Cr; or Cb Y Cr Y. -/
def groupPixels (sampling : Nat) : List Nat → List (Nat × Nat × Nat)
  | a :: b :: c :: d :: t =>
    if sampling = 2 then (a, b, c) :: (0, d, 0) :: groupPixels sampling t
    else if sampling = 1 then (a, b, c) :: groupPixels sampling (d :: t)
    else (c, b, a) :: groupPixels sampling (d :: t)
  | [a, b, c] => if sampling = 2 then [] else if sampling = 1 then [(a, b, c)] else [(c, b, a)]
  | _ => []

/-- Pixels of one row from a given column on. The lines of the frame count up to the highest that has come: one that is
lost whole below it counts as arrived (DEDUCED, log entry 105). -/
def addRun (h : Handle) (line x0 : Nat) (l : List (Nat × Nat × Nat)) (s : State) : State :=
  modFrame h (fun f => { f with
    lines := max f.lines (line + 1)
    beyond := if line < objHeight f.fmt then f.beyond else (line, x0 + l.length, f.raw.length) :: f.beyond
    raw := if f.slot.isSome ∧ line < objHeight f.fmt then ⟨line, x0, l⟩ :: f.raw else f.raw }) s

/-- A gap in the sequence (Table 4-5): n packets are lost, in the frame in progress between the line that came
last and line `upTo`. -/
def seqGap (h : Handle) (n upTo : Nat) (s : State) : State :=
  if n = 0 then s
  else raiseIc h 4 (modFrame h (fun f => { f with gaps := ((f.raw.head?.map (fun r => r.y)).getD 0, upTo) :: f.gaps })
    (srcMod h (fun x => { x with lostPkts := sat 0xFFFFFFFF x.lostPkts n }) s))

/-- Packets lost before a packet, and whether it is newer than the last (R85). -/
def seqStep (last : Option (BitVec 16)) (seq : BitVec 16) : Nat × Bool :=
  match last with
  | some q => let d := (seq - q - 1).toNat; if d < 32768 then (d, true) else (0, false)
  | none => (0, true)

/-- A video packet of an ST 2110-20 stream: a new RTP timestamp ends the frame before it and starts one,
the marker bit ends the frame; a packet of a frame that has ended is late (R85). -/
def videoPacket (h : Handle) (p : Rtp) (s : State) : State :=
  match p.ess with
  | .video bottom line off samples =>
    let x := srcGet s h
    if x.state = .stopped then s
    else
      let (gap, newer) := seqStep x.lastSeq p.seq
      let here := (openFrame s h).any (fun f => decide (f.ts = p.ts))
      let s1 := seqGap h gap (if here then line else 65535)
        (srcMod h (fun x => { x with lastSeq := if newer then some p.seq else x.lastSeq }) s)
      if !here && decide (p.ts ∈ x.endedTs) then srcMod h (fun x => { x with latePkts := sat 0xFFFFFFFF x.latePkts 1 }) s1
      else
        let s2 := if here then s1 else modFrame h (fun f => { f with gaps := if gap = 0 then [] else [(0, line)] })
          (startFrame h bottom 0 p.ts s1)
        let s3 := addRun h line off (groupPixels (frameFmt s2 h).sampling samples) s2
        if p.marker then endFrame h s3 else s3
  | _ => s

/-! ### Ancillary packets (R93) -/

/-- Queue an ancillary packet, or drop it when the queue holds 64; a STOPPED stream takes none (DESIGN CHOICE, log entry
145). -/
def ancArrive (h : Handle) (a : Anc) (s : State) : State :=
  let x := srcGet s h
  if !x.fmt.ancEn ∨ x.state = .stopped then s
  else if 64 ≤ x.ancQueue.length then
    raiseIc h 5 (srcMod h (fun x => { x with ancDropped := sat 0xFFFFFFFF x.ancDropped 1 }) s)
  else
    let id := match x.writing.getLast? with
      | some f => f.slot
      | none => x.latest
    srcMod h (fun x => { x with
      ancQueue := x.ancQueue ++ [{ packet := a, object := (id.map (fun i => hIndex (objHandle s i))).getD 0 }] }) s

/-! ### Quota use (R66, Table 3-1) -/

/-- Use of resources 3–6 and 11 by a partition. -/
def quotaUse (s : State) (p r : Nat) : Nat :=
  match r with
  | 3 => (s.eth.entries.filter (fun e => decide (hPart e.1 = p))).length
  | 4 => (s.sources.filter (fun e => !e.2.deleted && onIc e.2 && decide (e.2.owner = p))).length
  | 5 => (s.decodes.filter (fun e => decide (e.2.owner = p))).length
  | 6 => (s.pool.encodes.filter (fun e => decide (e.2.owner = p))).length
  | 11 => (s.vault.slots.filter (fun e => e.2.key.isSome && decide (e.2.owner = p))).length
  | _ => 0

/-! ### Creation of streams (R91, R103) -/

/-- Spare rate of a unit, in 1/1,000 pix/s, for comparison. -/
def icSpare (s : State) (u : Nat) : Nat :=
  let r := icRate s u
  6000000000 * 1000 - r.num * 1000 / r.den

/-- The unit a new stream goes to with IC = 15: the lowest-numbered with room for both; where none has,
the one with the most spare rate among those with room for a stream (R91; DEDUCED, log entry 101). -/
def chooseIc (s : State) (f : Format) : Option Nat :=
  let open_ := (List.range 8).filter (fun u => decide (icStreams s u < 32))
  match open_.find? (fun u => !fgt (fadd (icRate s u) (pixelRate f)) ⟨6000000000, 1⟩) with
  | some u => some u
  | none => open_.foldl (fun (b : Option Nat) u => match b with
    | none => some u
    | some y => if icSpare s y < icSpare s u then some u else some y) none

/-- Make a source with its ring, not yet checked. -/
def makeSource (part : Nat) (k : SrcKind) (f : Format) (ic : Nat) (s : State) : Handle × State :=
  let (h, s1) := newHandle part 1 s
  let s2 := srcPut h { owner := part, kind := k, fmt := { f with ic := ic }, ic := ic } s1
  (h, addSlots h (footprint f) part false f.ringDepth s2)

/-- Steps 5 and 6 of R103 for a stream on an IC unit. -/
def createStream (c : Ctx) (k : SrcKind) (f : Format) (s : State) : CmdOut :=
  if quotaOf s c.page 4 ≤ quotaUse s c.page 4 then refuse .quota
  else
    let unit := if f.ic = 15 then chooseIc s f else if icStreams s f.ic < 32 then some f.ic else none
    match unit with
    | none => refuse .quota
    | some u =>
      let (h, s1) := makeSource c.page k f u s
      if 262144 < s1.objects.length then refuse .quota
      else admitted s s1 (.done .ok [word h, word u, word (ringPages s1 h)] s1)

/-- Sub-streams of a receive port in use: first lane and width. -/
def subsOnPort (s : State) (p : Nat) : List (Nat × Nat) :=
  s.sources.filterMap (fun e => match e.2.kind with
    | .link q sub w => if q = p ∧ !e.2.deleted then some (sub, w) else none
    | _ => none)

/-- The lane rule of R283 for a sub-stream of width w, apart from the sub-stream of its own number. -/
def lanesFit (lanes : BitVec 4) (others : List (Nat × Nat)) (sub w : Nat) : Bool :=
  decide (sub % w = 0 ∧ sub + w ≤ 4)
    && (List.range w).all (fun i => lanes.getLsbD (sub + i))
    && others.all (fun o => decide (o.1 = sub ∨ o.1 + o.2 ≤ sub ∨ sub + w ≤ o.1))

/-- R103 in its order; the ERR_STATE of a port in Domino mode (R300) stands between the ranges and the agreement of the
block (DESIGN CHOICE, log entry 147). -/
def cmdCreateLinkStream (c : Ctx) (s : State) : CmdOut :=
  let port := bf c 0 3 0
  let sub := bf c 0 5 4
  let w := if bf c 0 7 6 = 0 then 1 else if bf c 0 7 6 = 1 then 2 else 4
  let f := formatOf (bw c 2) (bw c 3) (bw c 4)
  if holder s 1 port ≠ c.page then refuse .notOwner
  else if bf c 0 7 6 = 3 ∨ !formatRange f then refuse .range
  else if ((tget s.ports port).map (fun q => q.mode)).getD 0 = 2 then refuse .state
  else if !formatAgrees (.link port sub w) f
      ∨ !lanesFit (((tget s.ports port).map (fun q => q.lanes)).getD 0) (subsOnPort s port) sub w then refuse .inconsistent
  else if (subsOnPort s port).any (fun o => decide (o.1 = sub)) then refuse .busy
  else createStream c (.link port sub w) f s

/-- A flow of the flow table that receives the given essence. -/
def rxFlow (s : State) (n essence : Nat) : Bool :=
  match tget s.eth.flows n with
  | some f => !f.tx && decide (f.essence = essence)
  | none => false

/-- The issuer holds authority over a flow entry. -/
def ownsFlow (s : State) (page n : Nat) : Bool :=
  match tget s.eth.flows n with
  | some f => decide (page = 0 ∨ f.owner = page)
  | none => false

/-- R103 in its order: authority over FLOW and ANC_FLOW, which no entry gives to anyone; the ranges; the agreement of the
block, to which a flow of another direction or essence belongs (DESIGN CHOICE, log entry 147). -/
def cmdCreate2110Stream (c : Ctx) (s : State) : CmdOut :=
  let n := bf c 0 7 0
  let af := bf c 1 15 0
  let anc := if af = 0xFFFF then none else some af
  let f := formatOf (bw c 2) (bw c 3) (bw c 4)
  if (n ≤ 159 ∧ !ownsFlow s c.page n) ∨ (af ≤ 1023 ∧ !ownsFlow s c.page af) then refuse .notOwner
  else if 159 < n ∨ (1023 < af ∧ af ≠ 0xFFFF) ∨ !formatRange f then refuse .range
  else if !formatAgrees (.st2110 n (bb c 0 8) anc) f ∨ !rxFlow s n 0 ∨ (af ≠ 0xFFFF ∧ !rxFlow s af 2) then
    refuse .inconsistent
  else if s.sources.any (fun e => match e.2.kind with
      | .st2110 m _ a => !e.2.deleted && (decide (m = n) || (a.isSome && decide (a = anc)))
      | _ => false) then refuse .busy
  else createStream c (.st2110 n (bb c 0 8) anc) f s

def cmdCreateSurface (c : Ctx) (s : State) : CmdOut :=
  let f := formatOf (bw c 2) (bw c 3) (bw c 4)
  if !formatRange f then refuse .range
  else if !formatAgrees .surface f then refuse .inconsistent
  else if 256 ≤ (s.sources.filter (fun e => decide (e.2.kind = .surface) && !e.2.deleted)).length then refuse .quota
  else
    let (h, s1) := makeSource c.page .surface f 15 s
    if 262144 < s1.objects.length then refuse .quota
    else admitted s s1 (.done .ok [word h, 15, word (ringPages s1 h)] s1)

def specCreateLinkStream : OpSpec :=
  { op := 0x0300, maxLen := 20, dflt := [0, 0, 0] ++ formatDflt, rsv := within ([field 7 0, 0] ++ formatRsv), log := always, named := nameMade, run := cmdCreateLinkStream }

def specCreate2110Stream : OpSpec :=
  { op := 0x0301, maxLen := 20, dflt := [0, 0xFFFF, 0] ++ formatDflt, rsv := within ([field 8 0, field 15 0] ++ formatRsv), log := always, named := nameMade
    run := cmdCreate2110Stream }

def specCreateSurfaceSource : OpSpec :=
  { op := 0x0302, maxLen := 20, dflt := [0, 0, 0] ++ formatDflt, rsv := within ([0, 0] ++ formatRsv), log := always, named := nameMade, run := cmdCreateSurface }

/-! ### Commands on streams (R104, R105) -/

/-- An ingress stream of the issuer, or any for P0. -/
def withStream (c : Ctx) (s : State) (k : Source → CmdOut) : CmdOut :=
  withOwnSource c.page s (bn c 0) fun x => if isIngress x then k x else refuse .state

/-- Word 1, which R104 asks to be 0, is taken as a reserved field (R5, notes/assumptions/92). -/
def cmdModifyStream (c : Ctx) (s : State) : CmdOut :=
  withStream c s fun x =>
    let f := formatOf (bw c 2) (bw c 3) (bw c 4)
    if isImport x then refuse .state
    else if !formatRange f then refuse .range
    else if !formatAgrees x.kind f then refuse .inconsistent
    else restage c (fun i => match i with | .stream g _ => decide (g = bn c 0) | _ => false) (.stream (bn c 0) f)
      (fun n => [word n]) s

def cmdStartStream (c : Ctx) (s : State) : CmdOut :=
  withStream c s fun x =>
    if x.kind = .surface ∨ x.state ≠ .stopped then refuse .state
    else .done .ok [] (setStream (bn c 0) .waiting (srcMod (bn c 0) (fun x => { x with
      nextSeq := 1, rxColour := none, lastSeq := none, endedTs := [], fresh := true }) s))

/-- Stop a stream (R90, R104). -/
def stopStream (h : Handle) (s : State) : State :=
  lossReport (portOf s (srcGet s h)) (applyFormat h (setStream h .stopped (abandonFrames h s)))

def cmdStopStream (c : Ctx) (s : State) : CmdOut :=
  withStream c s fun x =>
    if x.kind = .surface ∨ x.state = .stopped then refuse .state else .done .ok [] (stopStream (bn c 0) s)

/-- CLEAR of a grantee zeroes the counters too (DEDUCED, log entry 100). -/
def cmdGetStreamStatus (c : Ctx) (s : State) : CmdOut :=
  withSource c.page s (bn c 0) fun x =>
    if !isIngress x then refuse .state
    else
      let surf := decide (x.kind = .surface)
      let rx := x.rxColour.getD { matrix := 0, transfer := 0 }
      let res := if surf then [0, word x.frames] else
        [pack [(stateCode x.state, 1, 0), (b1 x.suspect, 2, 2), (b1 x.lastPatched, 3, 3), (rx.matrix, 6, 4),
            (rx.transfer, 8, 7), (b1 x.rxColour.isSome, 9, 9)],
          word x.frames, word x.patchedCount, pack [(x.short, 15, 0), (x.long, 31, 16)],
          pack [(x.lastShape.1, 15, 0), (x.lastShape.2, 31, 16)],
          word (match x.kind with | .st2110 _ _ _ => x.lostPkts | _ => x.linesDropped)]
      .done .ok res (if bb c 1 0 then srcMod (bn c 0) (fun x => { x with
        frames := 0, patchedCount := 0, short := 0, long := 0, shortLines := 0, longLines := 0
        lostPkts := 0, latePkts := 0, linesDropped := 0 }) s else s)

/-- A READ_ANC entry: four header words, then 255 user words two to a word (R106). -/
def ancEntryWords (e : AncEntry) : List Word :=
  let a := e.packet
  let fields := [a.did, a.sdid, a.line, a.hoff, a.words.length, b1 a.badSum, e.object]
  (List.range 4).map (Config.ancHeader fields)
    ++ (List.range 128).map (fun i => pack [(a.words.getD (2 * i) 0, 15, 0), (a.words.getD (2 * i + 1) 0, 31, 16)])

def cmdReadAnc (c : Ctx) (s : State) : CmdOut :=
  withStream c s fun x =>
    let len := bn c 3
    if isImport x then refuse .state
    else if len % 528 ≠ 0 ∨ len < 528 ∨ 33792 < len ∨ bn64 c 1 % 4 ≠ 0 then refuse .range
    else
      let n := min x.ancQueue.length (len / 528)
      hostWrite s (bn64 c 1) (bytesOf ((x.ancQueue.take n).flatMap ancEntryWords)) fun s1 =>
        .done (if n < x.ancQueue.length then .okPartial else .ok) [word n, word x.ancDropped]
          (srcMod (bn c 0) (fun x => { x with ancQueue := x.ancQueue.drop n, ancDropped := 0 }) s1)

def cmdUploadSurface (c : Ctx) (s : State) : CmdOut :=
  withStream c s fun x =>
    let f := nextFmt s (bn c 0)
    let r : Rect := ⟨bf c 4 15 0, bf c 4 31 16, bf c 5 15 0, bf c 5 31 16⟩
    let r := if r.x1 ≤ r.x0 ∨ r.y1 ≤ r.y0 then ⟨0, 0, f.width, f.height⟩ else r
    let pitch := bf c 3 15 0
    if x.kind ≠ .surface then refuse .state
    else if bn64 c 1 % 4 ≠ 0 ∨ pitch % 4 ≠ 0 ∨ pitch < 4 * f.width ∨ f.width < r.x1 ∨ f.height < r.y1 then refuse .range
    else if (tget s.uploads (bn c 0)).isSome then refuse .busy
    else
      let h := bn c 0
      let s0 := applyFormat h s
      match pickSlot s0 h with
      | none => .done .busy [] (ringStarved h s)
      | some id =>
        let y := srcGet s0 h
        let s1 := takeSlot h id (stamp s0 {
          format := 1, variant := variantOf y.fmt, w := y.fmt.width, h := y.fmt.height, colour := y.fmt.colour
          freeOrder := (objGet s0 id).freeOrder }) s0
        let u : Upload := { issuer := c.page, addr := bn64 c 1, pitch := pitch, rect := r, slot := id, capture := now s }
        .done .ok [] { s1 with uploads := tset s1.uploads h u }

def specModifyStream : OpSpec :=
  { op := 0x0303, maxLen := 20, dflt := [0, 0, 0] ++ formatDflt, rsv := within ([0xFFFFFFFF, 0] ++ formatRsv), run := cmdModifyStream }

def specStartStream : OpSpec := { op := 0x0304, maxLen := 4, log := always, named := nameWord 0, run := cmdStartStream }

def specStopStream : OpSpec := { op := 0x0305, maxLen := 4, log := always, named := nameWord 0, run := cmdStopStream }

def specGetStreamStatus : OpSpec :=
  { op := 0x0307, maxLen := 8, rsv := within [0xFFFFFFFF, 1], log := fun b => bit (wd b 1) 0, named := nameWord 0
    run := cmdGetStreamStatus }

def specReadAnc : OpSpec := { op := 0x0308, maxLen := 16, log := always, named := nameWord 0, run := cmdReadAnc }

def specUploadSurface : OpSpec :=
  { op := 0x0309, maxLen := 24
    rsv := within [0xFFFFFFFF, 0xFFFFFFFF, 0xFFFFFFFF, field 15 0], log := always, named := nameWord 0, run := cmdUploadSurface }

/-! ### Decode contexts (R95–R100, R107) -/

/-- The core with room for a context; where none has, the lowest-numbered with room for one more context, which
word 3 of code 8 then names (R95, notes/assumptions/93). -/
def chooseCore (s : State) (rate : Frac) : Option Nat :=
  let count := fun k => (s.decodes.filter (fun e => decide (e.2.core = k))).length
  let used := fun k => fsum (s.decodes.map (fun e => if e.2.core = k then decodeRate e.2 else ⟨0, 1⟩))
  let open_ := (List.range 48).filter (fun k => decide (count k < 16))
  match open_.find? (fun k => !fgt (fadd (used k) rate) ⟨497664000, 1⟩) with
  | some k => some k
  | none => open_.head?

/-- Reference memory in 1 MiB units (R95). -/
def refUnitsOf (w h dpb : Nat) (d10 : Bool) : Nat :=
  cdiv (cdiv w 16 * 16 * (cdiv h 16 * 16) * 3 * (if d10 then 2 else 1) * dpb) (2 * 1048576)

def cmdCreateDecode (c : Ctx) (s : State) : CmdOut :=
  withOwnSource c.page s (bn c 0) fun x =>
    let core := bf c 1 7 0
    let h265 := bb c 1 8
    let d10 := bb c 1 9
    let dpb := if bf c 1 15 11 = 0 then 3 else bf c 1 15 11
    let rate := bf c 1 19 16
    let ring := if bf c 1 24 20 = 0 then 4 else bf c 1 24 20
    let w := bf c 2 12 0
    let h := bf c 2 27 16
    let au := bn c 3
    if (47 < core ∧ core ≠ 255) ∨ dpb < 2 ∨ 17 < dpb ∨ rate1001 rate = 0 ∨ ring < 2 ∨ 16 < ring ∨ w < 64 ∨ 4096 < w
        ∨ h < 64 ∨ 2304 < h ∨ 8912896 < w * h ∨ au < 4096 ∨ 8388608 < au then refuse .range
    else if x.kind ≠ .entry ∨ (d10 ∧ !h265) then refuse .inconsistent
    else if quotaOf s c.page 5 ≤ quotaUse s c.page 5 then refuse .quota
    else
      let pick := if core = 255 then chooseCore s ⟨w * h * rate1001 rate, 1001⟩
        else if (s.decodes.filter (fun e => decide (e.2.core = core))).length < 16 then some core else none
      match pick with
      | none => refuse .quota
      | some k =>
        let f : Format := { width := w, height := h, rate := rate, sampling := 2, depth := b1 d10
                            store := if d10 then 2 else 3, ringDepth := ring }
        let (ctx, s1) := newHandle c.page 8 s
        let (src, s2) := makeSource c.page (.decoded ctx) f 15 s1
        let units := refUnitsOf w h dpb d10
        let x : DecodeCtx := {
          owner := c.page, input := bn c 0, source := src, core := k, h265 := h265, depth10 := d10
          conceal := bb c 1 10, dpb := dpb, rate := rate, maxW := w, maxH := h, maxAu := au, refUnits := units }
        let s3 := { s2 with decodes := tset s2.decodes ctx x }
        if 262144 < s3.objects.length then refuse .quota
        else admitted s s3 (.done .ok [word ctx, word src, word k, word units] s3)

/-- A decode context of the issuer, or any for P0. -/
def withDecode (c : Ctx) (s : State) (k : DecodeCtx → CmdOut) : CmdOut :=
  withHandle c.page s (bn c 0) 8 (tget s.decodes (bn c 0)) k

/-- Delete a decode context; its source follows R90 (R107). -/
def deleteDecode (h : Handle) (s : State) : State :=
  match tget s.decodes h with
  | none => s
  | some x => resizeRings (deleteSource x.source { s with decodes := tdel s.decodes h })

def cmdGetDecodeStatus (c : Ctx) (s : State) : CmdOut :=
  withDecode c s fun x =>
    .done .ok [word (b1 x.running), word x.pictures, word x.errors, word x.abandoned, word x.dropped, word x.concealed] s

/-- Back to WAIT_RAP with an empty buffer (R107, R318). -/
def resyncDecode (x : DecodeCtx) : DecodeCtx :=
  { x with running := false, stopped := false, damaged := false, flooding := false, units := [], arriving := none }

def cmdResyncDecode (c : Ctx) (s : State) : CmdOut :=
  withDecode c s fun _ => .done .ok [] { s with decodes := tmod s.decodes (bn c 0) resyncDecode }

def specCreateDecodeContext : OpSpec :=
  { op := 0x0310, maxLen := 16, dflt := [0, pack [(255, 7, 0), (3, 15, 11), (4, 24, 20)]], rsv := within [0xFFFFFFFF, field 24 0, field 12 0 ||| field 27 16], log := always
    named := nameWord 0, run := cmdCreateDecode }

def specGetDecodeStatus : OpSpec := { op := 0x0312, maxLen := 4, run := cmdGetDecodeStatus }

def specResyncDecode : OpSpec := { op := 0x0313, maxLen := 4, log := always, named := nameWord 0, run := cmdResyncDecode }

/-- A decode fault of a kind: raised, and posted the first time since RUNNING (R100). -/
def decodeFault (h : Handle) (sub : Nat) (s : State) : State :=
  match tget s.decodes h with
  | none => s
  | some x =>
    let s1 := raise (131 + x.core) sub s
    if sub ∈ x.posted then s1
    else postNtf x.owner 0x0303 [word h, word sub, word x.pictures]
      { s1 with decodes := tmod s1.decodes h (fun x => { x with posted := sub :: x.posted }) }

/-- A bitstream error (R98): HOLD returns to WAIT_RAP, CONCEAL marks pictures up to the next
random-access point. -/
def bitstreamError (h : Handle) (s : State) : State :=
  decodeFault h 0 { s with decodes := tmod s.decodes h (fun x => { x with
    errors := sat 0xFFFFFFFF x.errors 1
    running := x.running && x.conceal, damaged := x.damaged || (x.running && x.conceal) }) }

/-- A random-access point: the context runs (R98, R107). -/
def atRap (h : Handle) (s : State) : State :=
  { s with decodes := tmod s.decodes h (fun x => { x with
      running := true, damaged := false, posted := if x.running then x.posted else [] }) }

/-- A picture of parity p as one of parity q: a frame or a field of it. -/
def asParity (p q : Nat) (c : Content) : Content :=
  if p = 0 ∧ q ≠ 0 then .field c q else if p ≠ 0 ∧ q = 0 then .weave c c else c

/-- Under CONCEAL, damaged areas are filled from the co-located area of the most recent decoded picture (R98). -/
def concealAreas (x : DecodeCtx) (areas : List Rect) (parity : Nat) (c : Content) : Content :=
  match x.latest with
  | some l => if x.conceal then areas.foldl (fun c r => .patch c r (asParity l.1 parity l.2)) c else c
  | none => c

/-- Write a decoded picture, or one field of it, into the next object of the ring (R96, R118). -/
def writeObject (x : DecodeCtx) (u : Au) (pic : Picture) (parity height : Nat) (c : Content) (s : State) : State :=
  match pickSlot s x.source with
  | none => ringStarved x.source s
  | some id =>
    let s1 := takeSlot x.source id {
      format := storeOf (srcGet s x.source).fmt, w := pic.width, h := height, parity := parity
      colour := pic.vui.getD {}, vuiAbsent := pic.vui.isNone, concealed := x.damaged
      capture := u.capture, ptpSeconds := u.ptp.1, ptpNanos := u.ptp.2.1, ptpLock := u.ptp.2.2
      freeOrder := (objGet s id).freeOrder
      content := c } s
    afterClose x.source id (closeObj x.source id (fun o => o) s1)

/-- Write a decoded picture: an MBAFF picture as one object for each field, the top field first (R96). It is then the most
recent decoded picture. -/
def writePicture (x : DecodeCtx) (h : Handle) (u : Au) (pic : Picture) (s : State) : State :=
  let areas := fun (k : Nat) => pic.areas.map (fun e => (⟨e.1, e.2.1 / k, e.2.2.1, cdiv e.2.2.2 k⟩ : Rect))
  let wrote := (pickSlot s x.source).isSome
  let s0 := { s with free := s.free + 2 }
  let part := fun (n p height k : Nat) => concealAreas x (areas k) p (.decoded n p height)
  let top := part s.free 1 (pic.height / 2) 2
  let bottom := part (s.free + 1) 2 (pic.height / 2) 2
  let whole := part s.free pic.parity.val pic.height 1
  let s1 := if pic.mbaff then writeObject x u pic 2 (pic.height / 2) bottom (writeObject x u pic 1 (pic.height / 2) top s0)
    else writeObject x u pic pic.parity.val pic.height whole s0
  { s1 with decodes := tmod s1.decodes h (fun x => { x with
      latest := some (if pic.mbaff then (0, .weave top bottom) else (pic.parity.val, whole))
      pictures := sat 0xFFFFFFFF x.pictures (b1 wrote), concealed := sat 0xFFFFFFFF x.concealed (b1 (wrote && x.damaged)) }) }

/-- A parameter set beyond the declaration, as reported or by the picture's size (R98). -/
def unsupported (x : DecodeCtx) (pic : Picture) : Bool :=
  pic.unsupported || decide (x.maxW < pic.width ∨ x.maxH < pic.height)

/-- A core is done with the oldest unit of a context's buffer: finished, or abandoned at the end of its budget,
which is a bitstream error (R96–R98). A parameter set beyond the declaration counts as an error too; it leaves the context
in its state, whatever ERR_POLICY is (DESIGN CHOICE, log entry 146). -/
def pictureDone (h : Handle) (x : DecodeCtx) (u : Au) (pic : Picture) (expired : Bool) (s : State) : State :=
  let s0 := { s with decodes := tset s.decodes h { x with
    units := x.units.drop 1, abandoned := sat 0xFFFFFFFF x.abandoned (b1 expired) } }
  let s1 := if expired then decodeFault h 1 s0 else s0
  if unsupported x pic then
    decodeFault h 2 { s1 with decodes := tmod s1.decodes h (fun x => { x with errors := sat 0xFFFFFFFF x.errors 1 }) }
  else
    let s2 := if pic.rap then atRap h s1 else s1
    let run := ((tget s2.decodes h).map (fun y => y.running)).getD false
    let s3 := if expired || (run && (pic.error || u.bad)) then bitstreamError h s2 else s2
    match tget s3.decodes h with
    | none => s3
    | some y => if y.running then writePicture y h u pic s3 else s3

/-! ### Meanings of the commands -/

def execCreateLinkStream (page : Fin 16) (d : Desc) (s : State) : Host.Outcome State Fault Refusal :=
  if d.Wf then .next (issue specCreateLinkStream page d s) else .fault .illFormed

def execCreate2110Stream (page : Fin 16) (d : Desc) (s : State) : Host.Outcome State Fault Refusal :=
  if d.Wf then .next (issue specCreate2110Stream page d s) else .fault .illFormed

def execCreateSurfaceSource (page : Fin 16) (d : Desc) (s : State) : Host.Outcome State Fault Refusal :=
  if d.Wf then .next (issue specCreateSurfaceSource page d s) else .fault .illFormed

def execModifyStream (page : Fin 16) (d : Desc) (s : State) : Host.Outcome State Fault Refusal :=
  if d.Wf then .next (issue specModifyStream page d s) else .fault .illFormed

def execStartStream (page : Fin 16) (d : Desc) (s : State) : Host.Outcome State Fault Refusal :=
  if d.Wf then .next (issue specStartStream page d s) else .fault .illFormed

def execStopStream (page : Fin 16) (d : Desc) (s : State) : Host.Outcome State Fault Refusal :=
  if d.Wf then .next (issue specStopStream page d s) else .fault .illFormed

def execGetStreamStatus (page : Fin 16) (d : Desc) (s : State) : Host.Outcome State Fault Refusal :=
  if d.Wf then .next (issue specGetStreamStatus page d s) else .fault .illFormed

def execReadAnc (page : Fin 16) (d : Desc) (s : State) : Host.Outcome State Fault Refusal :=
  if d.Wf then .next (issue specReadAnc page d s) else .fault .illFormed

def execUploadSurface (page : Fin 16) (d : Desc) (s : State) : Host.Outcome State Fault Refusal :=
  if d.Wf then .next (issue specUploadSurface page d s) else .fault .illFormed

def execCreateDecodeContext (page : Fin 16) (d : Desc) (s : State) : Host.Outcome State Fault Refusal :=
  if d.Wf then .next (issue specCreateDecodeContext page d s) else .fault .illFormed

def execGetDecodeStatus (page : Fin 16) (d : Desc) (s : State) : Host.Outcome State Fault Refusal :=
  if d.Wf then .next (issue specGetDecodeStatus page d s) else .fault .illFormed

def execResyncDecode (page : Fin 16) (d : Desc) (s : State) : Host.Outcome State Fault Refusal :=
  if d.Wf then .next (issue specResyncDecode page d s) else .fault .illFormed

/-! ### Events -/

/-- The flow of an ST 2110-20 source. -/
def flowOf (x : Source) : Option Nat :=
  match x.kind with
  | .st2110 n _ _ => some n
  | _ => none

/-- A live source an IC unit writes. -/
def icSource (s : State) (h : Word) : Bool := ((liveSource s h.toNat).map onIc).getD false

/-- A frame starts on a link or ST 2110-20 stream (R115). -/
def execFrameStart (source : Word) (bottom : Bool) (s : State) : Host.Outcome State Fault Refusal :=
  .next (if icSource s source then startFrame source.toNat bottom 0 0 s else s)

/-- The frame in progress ends (R85). -/
def execFrameClose (source : Word) (s : State) : Host.Outcome State Fault Refusal :=
  .next (if icSource s source then endFrame source.toNat s else s)

/-- The copy of patch lines ends: the first frame whose copy runs closes (R86). -/
def execPatchCopyDone (source : Word) (s : State) : Host.Outcome State Fault Refusal :=
  if !icSource s source then .next s
  else
    let h := source.toNat
    .next (closeFrames h (srcMod h (fun x => { x with writing := match x.writing with
      | f :: t => { f with copying := false } :: t
      | [] => [] }) s))

/-- A transfer to a surface ends (R102). -/
def execSurfaceDone (source : Word) (pcieError : Bool) (s : State) : Host.Outcome State Fault Refusal :=
  let h := source.toNat
  match tget s.uploads h with
  | none => .next s
  | some u =>
    let s1 := { s with uploads := tdel s.uploads h }
    let r := u.rect
    let rowAt := fun y => u.addr + y * u.pitch + 4 * r.x0
    let ys := (List.range (r.y1 - r.y0)).map (fun i => r.y0 + i)
    let n := 4 * (r.x1 - r.x0)
    if pcieError || ys.any (fun y => decide (dmaReach s (rowAt y) n < n)) then
      .next (postNtf u.issuer 0x0304 [word h, word (statusCode .hostDma)] (raise 112 5 (abandonObj u.slot s1)))
    else
      let v := (objGet s u.slot).variant
      let pixel := fun (w : Word) =>
        if v = 1 then (bits w 7 0, bits w 15 8, bits w 23 16, bits w 31 24)
        else (bits w 9 0, bits w 19 10, bits w 29 20, bits w 31 30)
      let runs := ys.map (fun y => (⟨y, r.x0, (wordsOf (memRead 0 s.hostMem (rowAt y) n)).map pixel⟩ : Run))
      let below := match (srcGet s h).latest with
        | some l => if patchable (objGet s l) (objGet s u.slot) then (objGet s l).content else .black
        | none => .black
      let s2 := srcMod h (fun x => { x with frames := sat 0xFFFFFFFF x.frames 1 })
        (closeObj h u.slot (fun o => { o with content := .rows below runs }) s1)
      .next (postNtf u.issuer 0x0304 [word h, 0] (afterClose h u.slot s2))

/-- A packet of a receive ST 2110-20 flow: every stream on the flow takes it (R85). -/
def execSt2110Packet (flow : Fin 1024) (p : Rtp) (s : State) : Host.Outcome State Fault Refusal :=
  .next ((tkeys s.sources).foldl (fun s h =>
    match liveSource s h with
    | some x => if flowOf x = some flow.val then videoPacket h p s else s
    | none => s) s)

def execAncPacket (source : Word) (a : Anc) (s : State) : Host.Outcome State Fault Refusal :=
  if a.Wf then .next (if icSource s source then ancArrive source.toNat a s else s) else .fault .illFormed

def execDecodePictureDone (ctx : Word) (pic : Picture) (s : State) : Host.Outcome State Fault Refusal :=
  match tget s.decodes ctx.toNat with
  | none => .next s
  | some x => match x.units with
    | [] => .next s
    | u :: _ => .next (pictureDone ctx.toNat x u pic false s)

/-- A picture is not finished within its budget: abandoned, and handled as a bitstream error (R97); its areas are
those that were not decoded. -/
def execDecodeBudgetExpiry (ctx : Word) (s : State) (pic : Picture := {}) : Host.Outcome State Fault Refusal :=
  match tget s.decodes ctx.toNat with
  | none => .next s
  | some x => match x.units with
    | [] => .next s
    | u :: _ => .next (pictureDone ctx.toNat x u pic true s)

end Sys2Proof.Machine
end

