-- ==== Sys2Proof/Machine/FrameStore.lean ====
section
/-! DEFINITION. The Toybox-class commands and the time-shift events (R110, R121–R126, R132–R139), and the
rows of an object as memory holds them (R108). -/

namespace Sys2Proof.Machine

open Sys2Proof

/-! ### Rows of memory (Table 5-1, Table 5-2) -/

/-- Samples of pixels x0 to x1 − 1 of a 4:2:2 row: Cb Y Cr at even pixels, Y at odd ones (Table 5-1). -/
def rowSamples (o : Obj) (y x0 x1 : Nat) : List Nat :=
  (List.range (x1 - x0)).flatMap (fun i =>
    let p := pixelAt o (x0 + i) y
    if (x0 + i) % 2 = 0 then [p.1, p.2.1, p.2.2.1] else [p.2.1])

/-- The 64-bit words of a P20 row, six samples to a word. -/
def p20Bytes (l : List Nat) : List Byte :=
  (List.range (cdiv l.length 6)).flatMap (fun k =>
    leBytes (((List.range 6).map (fun j =>
      ((l[6 * k + j]?).getD (Config.padSample j)) % 1024 * 2 ^ (10 * j))).sum) 8)

/-- A P4 pixel word (Table 5-2). -/
def p4Word (variant : Nat) (p : Nat × Nat × Nat × Nat) : Word :=
  if variant = 1 then pack [(p.1, 7, 0), (p.2.1, 15, 8), (p.2.2.1, 23, 16), (p.2.2.2, 31, 24)]
  else pack [(p.1, 9, 0), (p.2.1, 19, 10), (p.2.2.1, 29, 20), (if variant = 0 then 0 else p.2.2.2, 31, 30)]

/-- The bytes of pixels x0 to x1 − 1 of row y, as the tile lines of Table 5-1 joined (R134). -/
def rowBytes (o : Obj) (y x0 x1 : Nat) : List Byte :=
  if o.format = 1 then
    (List.range (x1 - x0)).flatMap (fun i => wordBytes (p4Word o.variant (pixelAt o (x0 + i) y)))
  else if o.format = 2 then p20Bytes (rowSamples o y x0 x1)
  else (rowSamples o y x0 x1).map (fun v => BitVec.ofNat 8 v)

/-- Bytes of a row of n pixels (R134). -/
def rowLen (format n : Nat) : Nat :=
  if format = 1 then 4 * n else if format = 2 then cdiv n 3 * 8 else 2 * n

/-! ### Objects (R132–R134) -/

def cmdAcquireObject (c : Ctx) (s : State) : CmdOut :=
  withOwnSource c.page s (bn c 0) fun x =>
    match x.latest with
    | none => refuse .state
    | some id =>
      if 1024 ≤ hostRefs s c.page then refuse .quota
      else .done .ok [word (objHandle s id), word (objGet s id).seq] (addRef id (.host c.page) s)

/-- An object of the issuer, or any for P0 (R129). -/
def withObject (c : Ctx) (s : State) (k : Nat → Obj → CmdOut) : CmdOut :=
  withHandle c.page s (bn c 0) 2 (objOfHandle s (bn c 0)) fun id => k id (objGet s id)

def cmdReleaseObject (c : Ctx) (s : State) : CmdOut :=
  withObject c s fun id o =>
    if .host c.page ∈ o.refs then .done .ok [] (dropRef id (.host c.page) s) else refuse .state

/-- A colour tag as GET_OBJECT_INFO word 5 encodes it (R133). -/
def colourWord (k : Colour) : Word := pack [(k.matrix, 2, 0), (k.transfer, 4, 3), (k.primaries, 6, 5), (b1 k.full, 7, 7)]

def cmdGetObjectInfo (c : Ctx) (s : State) : CmdOut :=
  withObject c s fun _ o =>
    .done .ok (if bb c 1 0 then
      [word o.ptpSeconds, pack [(o.ptpSeconds / 2 ^ 32, 15, 0), (o.ptpLock, 17, 16)], word o.ptpNanos,
        word o.refs.length, word (o.refs.count (.host c.page)), word o.source]
    else
      [pack [(o.format, 1, 0), (o.variant, 3, 2), (o.parity, 5, 4), (b1 o.patched, 6, 6), (b1 o.concealed, 7, 7),
          (b1 o.vuiAbsent, 8, 8), (b1 o.recalled, 9, 9), (o.tier, 11, 10)],
        pack [(o.w, 15, 0), (o.h, 31, 16)], word o.seq, colourWord o.colour, word o.capture, word (o.capture / 2 ^ 32)]) s

def cmdReadObject (c : Ctx) (s : State) : CmdOut :=
  withObject c s fun id o =>
    let r : Rect := ⟨bf c 4 15 0, bf c 4 31 16, bf c 5 15 0, bf c 5 31 16⟩
    let r := if r.x1 ≤ r.x0 ∨ r.y1 ≤ r.y0 then ⟨0, 0, o.w, o.h⟩ else r
    let pitch := bf c 3 15 0
    let aligned := if o.format = 2 then decide (r.x0 % 6 = 0 ∧ (r.x1 % 6 = 0 ∨ r.x1 = o.w))
      else if o.format = 3 then decide (r.x0 % 2 = 0 ∧ r.x1 % 2 = 0) else true
    if bn64 c 1 % 4 ≠ 0 ∨ pitch % 4 ≠ 0 ∨ pitch < 4 ∨ 32764 < pitch ∨ o.w < r.x1 ∨ o.h < r.y1 ∨ !aligned
        ∨ pitch < rowLen o.format (r.x1 - r.x0) then refuse .range
    else .wait (.readObject id (bn64 c 1) pitch r) (addRef id .reader s)

def specAcquireObject : OpSpec := { op := 0x0400, maxLen := 4, log := always, named := nameWord 0, run := cmdAcquireObject }

def specReleaseObject : OpSpec := { op := 0x0401, maxLen := 4, log := always, named := nameWord 0, run := cmdReleaseObject }

def specGetObjectInfo : OpSpec := { op := 0x0402, maxLen := 8, rsv := within [0xFFFFFFFF, 1], run := cmdGetObjectInfo }

/-- The transfer may take 100 ms (R134). -/
def specReadObject : OpSpec :=
  { op := 0x0403, maxLen := 24, rsv := within [0xFFFFFFFF, 0xFFFFFFFF, 0xFFFFFFFF, field 15 0], bound := 110000
    run := cmdReadObject }

/-- Write rows of an object to host memory, stopping before a row that cannot be reached; answers the rows
written. -/
def copyRows (o : Obj) (addr pitch : Nat) (r : Rect) : Nat → State → Nat × State
  | 0, s => (0, s)
  | n + 1, s =>
    let (k, s1) := copyRows o addr pitch r n s
    let bs := rowBytes o (r.y0 + n) r.x0 r.x1
    if k < n ∨ dmaReach s1 (addr + n * pitch) bs.length < bs.length then (k, s1)
    else (n + 1, { s1 with hostMem := memWrite 0 s1.hostMem (addr + n * pitch) bs })

/-- A READ_OBJECT transfer ends, or stops at a row boundary (R134). -/
def readDone (e : Executing) (id addr pitch : Nat) (r : Rect) (rows : Nat) (err : Bool) (s : State) : State :=
  let o := objGet s id
  let total := r.y1 - r.y0
  let want := min rows total
  let (n, s1) := copyRows o addr pitch r want s
  let s2 := dropRef id .reader s1
  if err || decide (n < want) then complete e false 0 .hostDma [] s2
  else complete e false 0 (if n < total then .okPartial else .ok) [word n, word o.seq] s2

/-! ### Placement and status (R121, R135, R138, R139) -/

def cmdSetPlacement (c : Ctx) (s : State) : CmdOut :=
  withOwnSource c.page s (bn c 0) fun x =>
    let h := bn c 0
    if !isFrames x then refuse .inconsistent
    else if bb c 1 0 then
      let s1 := srcMod h (fun x => { x with tier0 := true, tier0Pages := (effDepth s h).1 * footprint x.fmt }) s
      admitted s s1 (.done .ok [] s1)
    else .done .ok [] (srcMod h (fun x => { x with tier0 := false, tier0Pages := 0 }) s)

def cmdGetRingStatus (c : Ctx) (s : State) : CmdOut :=
  withSource c.page s (bn c 0) fun x =>
    let mine := decide (c.page = 0 ∨ x.owner = c.page)
    let free := (x.slots.filter (fun e => objFree (objGet s e.id))).length
    let seq := match x.latest with
      | some id => (objGet s id).seq
      | none => 0
    let w2 := pack [(x.fmt.ringDepth, 7, 0), ((effDepth s (bn c 0)).1, 15, 8), (free, 23, 16), (b1 x.tier0, 24, 24)]
    .done .ok (if !mine then [w2, 0, word seq] else
      [w2, match x.latest with | some id => word (objHandle s id) | none => 0, word seq, word x.droppedRing,
        word ((x.slots.map (fun e => (objGet s e.id).refs.count (.host c.page))).sum),
        word ((x.slots.map (fun e => if e.payer = c.page then e.pages else 0)).sum)]) s

def cmdGetToyboxStatus (c : Ctx) (s : State) : CmdOut :=
  let p := c.page
  .done .ok [word (tier1Use s p), word (quotaOf s p 8), word (tier2Use s p), word (hostRefs s p),
    word ((allSlots s).filter (fun e => decide (e.payer = p))).length,
    if p = 0 then pack [(tier0Reserved s, 15, 0), (tier0Used s, 31, 16)] else 0] s

def specSetPlacement : OpSpec :=
  { op := 0x0404, maxLen := 8, rsv := within [0xFFFFFFFF, 1], log := always, named := nameWord 0, run := cmdSetPlacement }

def specGetRingStatus : OpSpec := { op := 0x0408, maxLen := 4, run := cmdGetRingStatus }

def specGetToyboxStatus : OpSpec := { op := 0x0409, run := cmdGetToyboxStatus }

/-! ### Time-shift buffers (R122–R125, R136, R137) -/

/-- The kept-frame period in µs. -/
def keptPeriod (s : State) (source : Handle) (every : Nat) : Frac :=
  let t := periodUs (srcGet s source).fmt.rate
  ⟨t.num * every, t.den⟩

/-- DELAY lies between four kept-frame periods and the span less one (R124). -/
def delayGood (t : Frac) (frames ms : Nat) : Bool :=
  decide (4 * t.num ≤ ms * 1000 * t.den ∧ ms * 1000 * t.den ≤ (frames - 1) * t.num)

/-- A source a time-shift buffer may keep (Table 5-9). -/
def shiftable (x : Source) : Bool :=
  match x.kind with
  | .link _ _ _ => true
  | .st2110 _ _ _ => true
  | .decoded _ => true
  | .surface => true
  | _ => false

/-- The delayed source changes state (R124). -/
def shiftState (dh : Handle) (n : Nat) (s : State) : State :=
  match tget s.shifts dh with
  | none => s
  | some x =>
    if x.state = n then s
    else postNtf (hPart dh) 0x0402 [word dh, word n] { s with shifts := tset s.shifts dh { x with state := n } }

def cmdCreateTimeshift (c : Ctx) (s : State) : CmdOut :=
  withOwnSource c.page s (bn c 0) fun x =>
    let every := if bf c 1 7 0 = 0 then 1 else bf c 1 7 0
    let frames := bn c 2
    let t := keptPeriod s (bn c 0) every
    let p := x.owner
    let pages := frames * footprint x.fmt
    if !shiftable x ∨ frames < 16 ∨ 4194304 < frames ∨ !delayGood t frames (bn c 3) then refuse .range
    else if s.shifts.any (fun e => decide (e.2.source = bn c 0)) ∨ !s.pool.mounted then refuse .state
    else if 64 ≤ s.shifts.length ∨ quotaOf s p 9 < tier2Use s p + pages then refuse .quota
    else
      let (dh, s1) := newHandle p 1 s
      let s2 := addSlots dh (footprint x.fmt) p false 4
        (srcPut dh { owner := p, kind := .delayed, fmt := { x.fmt with ringDepth := 4 } } s1)
      let z : Shift := { source := bn c 0, keepEvery := every, frames := frames, delayMs := bn c 3, tier2 := pages }
      let s3 := resizeRings { s2 with shifts := tset s2.shifts dh z }
      if 262144 < s3.objects.length then refuse .quota
      else admitted s s3 (.done .ok [word dh, word pages, word (ringPages s3 dh), word (t.num / t.den)]
        (postNtf p 0x0402 [word dh, 0] s3))

/-- A delayed source of the issuer, or any for P0. -/
def withShift (c : Ctx) (s : State) (k : Shift → CmdOut) : CmdOut :=
  withOwnSource c.page s (bn c 0) fun _ => match tget s.shifts (bn c 0) with
    | none => refuse .range
    | some x => k x

def cmdSeekTimeshift (c : Ctx) (s : State) : CmdOut :=
  withShift c s fun x =>
    if !delayGood (keptPeriod s (bn c 0) x.keepEvery) x.frames (bn c 1) then refuse .range
    else
      let reached := x.kept.any (fun k => decide (k.capture + bn c 1 * 1000 ≤ now s))
      let s1 := { s with shifts := tset s.shifts (bn c 0) { x with
        delayMs := bn c 1
        kept := x.kept.map (fun k => { k with
          recalling := 0, shown := decide (k.capture + bn c 1 * 1000 < now s) }) } }
      .done .ok [] (if reached then s1 else shiftState (bn c 0) 0 s1)

/-- Delete a time-shift buffer; its delayed source follows R90 (R137). -/
def deleteShift (dh : Handle) (s : State) : State :=
  match tget s.shifts dh with
  | none => s
  | some x =>
    let s1 := x.kept.foldl (fun s k => if k.spilling then dropRef k.slot (.spill x.source) s else s) s
    resizeRings (deleteSource dh { s1 with shifts := tdel s1.shifts dh })

def specCreateTimeshift : OpSpec :=
  { op := 0x0405, maxLen := 16, rsv := within [0xFFFFFFFF, field 7 0], log := always, named := nameWord 0, run := cmdCreateTimeshift }

def specSeekTimeshift : OpSpec := { op := 0x0406, maxLen := 8, log := always, named := nameWord 0, run := cmdSeekTimeshift }

/-- Change the first kept frame that satisfies a test. -/
def modKept (p : Kept → Bool) (f : Kept → Kept) : List Kept → List Kept
  | [] => []
  | k :: t => if p k then f k :: t else k :: modKept p f t

/-- The buffer that keeps a live source. -/
def shiftOn (s : State) (h : Handle) : Option (Handle × Shift) := s.shifts.find? (fun e => decide (e.2.source = h))

/-- The frame is MISSING after a pool fault: TIER2_FAULT, and the delayed source enters FAULT (R125). -/
def tier2Fault (dh : Handle) (s : State) : State := shiftState dh 2 (raise 130 3 s)

/-! ### Meanings of the commands -/

/-- The request may meet closes in its cycle (R16). -/
def execAcquireObject (page : Fin 16) (d : Desc) (s : State) (rivals : Nat := 0) : Host.Outcome State Fault Refusal :=
  if d.Wf then .next (serveRequest rivals (issue specAcquireObject page d) s) else .fault .illFormed

def execReleaseObject (page : Fin 16) (d : Desc) (s : State) : Host.Outcome State Fault Refusal :=
  if d.Wf then .next (issue specReleaseObject page d s) else .fault .illFormed

def execGetObjectInfo (page : Fin 16) (d : Desc) (s : State) : Host.Outcome State Fault Refusal :=
  if d.Wf then .next (issue specGetObjectInfo page d s) else .fault .illFormed

def execReadObject (page : Fin 16) (d : Desc) (s : State) : Host.Outcome State Fault Refusal :=
  if d.Wf then .next (issue specReadObject page d s) else .fault .illFormed

def execSetPlacement (page : Fin 16) (d : Desc) (s : State) : Host.Outcome State Fault Refusal :=
  if d.Wf then .next (issue specSetPlacement page d s) else .fault .illFormed

def execCreateTimeshift (page : Fin 16) (d : Desc) (s : State) : Host.Outcome State Fault Refusal :=
  if d.Wf then .next (issue specCreateTimeshift page d s) else .fault .illFormed

def execSeekTimeshift (page : Fin 16) (d : Desc) (s : State) : Host.Outcome State Fault Refusal :=
  if d.Wf then .next (issue specSeekTimeshift page d s) else .fault .illFormed

def execGetRingStatus (page : Fin 16) (d : Desc) (s : State) : Host.Outcome State Fault Refusal :=
  if d.Wf then .next (issue specGetRingStatus page d s) else .fault .illFormed

def execGetToyboxStatus (page : Fin 16) (d : Desc) (s : State) : Host.Outcome State Fault Refusal :=
  if d.Wf then .next (issue specGetToyboxStatus page d s) else .fault .illFormed

/-! ### Events -/

def execReadObjectDone (rows : BitVec 16) (pcieError : Bool) (s : State) : Host.Outcome State Fault Refusal :=
  match s.exec with
  | some e => match e.waits with
    | .readObject id addr pitch r => .next (readDone e id addr pitch r rows.toNat pcieError s)
    | _ => .next s
  | none => .next s

/-- The oldest copy of a live source to tier 2 ends (R123, R125). -/
def execSpillCopyDone (source : Word) (failed : Bool) (s : State) : Host.Outcome State Fault Refusal :=
  match shiftOn s source.toNat with
  | none => .next s
  | some (dh, x) => match x.kept.find? (fun k => k.spilling) with
    | none => .next s
    | some k =>
      let s1 := dropRef k.slot (.spill source.toNat) { s with shifts := tset s.shifts dh { x with
        kept := modKept (fun k => k.spilling) (fun k => { k with spilling := false, absent := failed }) x.kept } }
      .next (if failed then tier2Fault dh s1 else s1)

/-- One source period after the close the copy is abandoned and the frame is MISSING (R123). -/
def execSpillLate (source : Word) (s : State) : Host.Outcome State Fault Refusal :=
  match shiftOn s source.toNat with
  | none => .next s
  | some (dh, x) => match x.kept.find? (fun k => k.spilling) with
    | none => .next s
    | some k =>
      let t := periodUs (srcGet s source.toNat).fmt.rate
      if (now s - k.info.closedAt) * t.den < t.num then .next s
      else .next (raise 130 1 (dropRef k.slot (.spill source.toNat) { s with shifts := tset s.shifts dh { x with
        spillLate := x.spillLate + 1
        kept := modKept (fun k => k.spilling) (fun k => { k with spilling := false, absent := true }) x.kept } }))

/-- A kept frame whose recall is due: three kept-frame periods ahead of its presentation (R124). -/
def recallDue (s : State) (dh : Handle) (x : Shift) (k : Kept) : Bool :=
  let t := keptPeriod s dh x.keepEvery
  !k.shown && !k.absent && !k.spilling && decide (k.recalling = 0)
    && decide ((k.capture + x.delayMs * 1000) * t.den ≤ now s * t.den + 3 * t.num)

/-- A recall starts on a delayed source (R124). -/
def execRecallStart (source : Word) (s : State) : Host.Outcome State Fault Refusal :=
  let dh := source.toNat
  match tget s.shifts dh with
  | none => .next s
  | some x => .next { s with shifts := tset s.shifts dh { x with
      kept := modKept (recallDue s dh x) (fun k => { k with recalling := 1 }) x.kept } }

def execRecallDone (source : Word) (failed : Bool) (s : State) : Host.Outcome State Fault Refusal :=
  let dh := source.toNat
  match tget s.shifts dh with
  | none => .next s
  | some x =>
    if !x.kept.any (fun k => decide (k.recalling = 1)) then .next s
    else
      let s1 := { s with shifts := tset s.shifts dh { x with
        kept := modKept (fun k => decide (k.recalling = 1))
          (fun k => if failed then { k with recalling := 0, absent := true } else { k with recalling := 2 }) x.kept } }
      .next (if failed then tier2Fault dh s1 else s1)

/-- The delayed source holds its previous frame and counts the event (R124). -/
def holdShift (dh : Handle) (s : State) : State :=
  { s with shifts := tmod s.shifts dh (fun x => { x with held := x.held + 1 }) }

/-- Present a recalled frame (R124). -/
def presentKept (dh : Handle) (k : Kept) (s : State) : State :=
  match pickSlot s dh with
  | none => ringStarved dh s
  | some id =>
    let s1 := takeSlot dh id { k.info with
      recalled := true, latest := false, refs := [], freeOrder := (objGet s id).freeOrder } s
    shiftState dh 1 (afterClose dh id (closeObj dh id (fun o => o) s1))

/-- The presentation instant of the next kept frame of a delayed source (R124, R125). -/
def execTimeshiftPresentation (source : Word) (s : State) : Host.Outcome State Fault Refusal :=
  let dh := source.toNat
  match tget s.shifts dh with
  | none => .next s
  | some x =>
    let due := fun (k : Kept) => !k.shown && decide (k.capture + x.delayMs * 1000 ≤ now s)
    match x.kept.find? due with
    | none => .next (holdShift dh s)
    | some k =>
      let s1 := { s with shifts := tset s.shifts dh { x with kept := modKept due (fun k => { k with shown := true }) x.kept } }
      if k.absent then .next (holdShift dh s1)
      else if k.recalling ≠ 2 then
        .next (raise 130 2 (holdShift dh { s1 with shifts := tmod s1.shifts dh (fun x => { x with recallLate := x.recallLate + 1 }) }))
      else .next (presentKept dh k s1)

end Sys2Proof.Machine
end

