-- ==== Sys2Proof/Machine/Router.lean ====
section
/-! DEFINITION. The audio router: inputs, what an output channel hears, delays and ramps (R247–R258). The
audio-class commands and events stand in Audio.lean. -/

namespace Sys2Proof.Machine

open Sys2Proof

/-! ### Inputs (R248, R251, R258) -/

def setAudio (a : Audio) (s : State) : State := { s with audio := a }

def inGet (s : State) (h : Handle) : Option AudioIn := tget s.audio.inputs h

def inMod (h : Handle) (f : AudioIn → AudioIn) (s : State) : State :=
  setAudio { s.audio with inputs := tmod s.audio.inputs h f } s

/-- Silence is played: the input is in GAP, or its converter has no lock (R251, R258). -/
def inSilent (s : State) (x : AudioIn) : Bool := (x.gap && decide (x.gapSince ≤ now s)) || !x.locked

/-- GAP_SAMPLES: samples of 48 kHz for which silence has been played in GAP. -/
def gapCount (s : State) (x : AudioIn) : Nat :=
  sat 0xFFFFFFFF x.gapSamples (if x.gap then 48 * (now s - x.gapSince) / 1000 else 0)

/-- An input changes state: AUDIO_INPUT_STATE is posted (R258). -/
def inState (h : Handle) (gap : Bool) (s : State) : State :=
  match inGet s h with
  | none => s
  | some x => postNtf x.owner 0x0901 [word h, word (b1 gap), word (gapCount s x)] s

/-- The buffer target of an input in µs (Table 10-2); a link input has none. -/
def bufferTarget (x : AudioIn) : Nat :=
  if x.kind = 1 then 0 else if x.kind = 4 then 20000 else if x.ptime125 then 500 else 2000

/-- Weight 1, in 1/2^24. -/
def fullWeight : Nat := 2 ^ 24

/-- A sample scaled by a weight; the manual gives no rounding. -/
def weigh (v : Int) (w : Nat) : Int :=
  let p := v * w
  if p % fullWeight = 0 then p / fullWeight else p / fullWeight + b1 (Config.roundUp p.natAbs fullWeight)

/-- The sine of an angle, both in 1/2^60: the first terms of its series. -/
def sinFixed (x : Nat) : Nat :=
  ((List.range 11).foldl (fun (a : Int × Int) k =>
    (a.1 + a.2, -(a.2 * x / 2 ^ 60 * x / 2 ^ 60 / ((2 * k + 2) * (2 * k + 3) : Nat)))) (0, (x : Int))).1.toNat

/-- The raised cosine (1 − cos πi/n) / 2 = sin² (πi/2n) that rises over n samples, at sample i (R255). -/
def raisedCosine (n i : Nat) : Nat :=
  if n ≤ i then fullWeight
  else
    let v := sinFixed (i * 314159265358979323846 * 2 ^ 60 / (2 * n * 10 ^ 20))
    v * v / 2 ^ 96

/-- Samples of a packet ramped down to zero across it (R258). -/
def rampedDown (channels : Nat) (l : List Int) : List Int :=
  let n := l.length / max 1 channels
  (List.range l.length).map (fun i => weigh (l.getD i 0) (fullWeight - raisedCosine n (i / max 1 channels)))

/-- The samples an input played last: of the newest packet whose playout time has come. -/
def lastPlayed (t : Nat) (x : AudioIn) : List Int :=
  (((x.buffered.filter (fun p => decide (p.1 ≤ t))).getLast?).map Prod.snd).getD []

/-- What has been played before the last packet leaves the buffer. -/
def forgetPlayed (t : Nat) (l : List (Nat × List Int)) : List (Nat × List Int) :=
  let (old, new) := l.partition (fun p => decide (p.1 ≤ t))
  old.drop (old.length - 1) ++ new

/-- The first packet that is missing at its playout time: the one before it is played again (R258). -/
def missOne (h : Handle) (s : State) : State :=
  inMod h (fun x =>
    let (old, new) := x.buffered.partition (fun p => decide (p.1 ≤ now s))
    { x with
      missedAt := some (now s), lostPkts := sat 0xFFFFFFFF x.lostPkts 1
      buffered := old ++ [(now s, rampedDown x.channels (lastPlayed (now s) x))] ++ new }) s

/-- The packet before the one that is missing now was missing too: no packet has been played since. -/
def missedBefore (t : Nat) (x : AudioIn) : Bool :=
  match x.missedAt with
  | none => false
  | some m => x.buffered.all (fun p => decide (p.1 ≤ m ∨ t < p.1))

/-- The input enters GAP (R258). -/
def enterGap (h : Handle) (since : Nat) (s : State) : State :=
  inState h true (raise 223 0 (inMod h (fun x => { x with
    gap := true, gapSince := since, missedAt := none, resumeFrom := none, gapDue := none }) s))

/-- A link input loses its stream: LOS, LOL or a STALLED stream (R258), with packets of 1 ms: the first that is missing is
made of the one before it, and the second brings GAP. -/
def linkGap (h : Handle) (s : State) : State :=
  match inGet s h with
  | some x =>
    if x.kind ≠ 1 ∨ x.gap ∨ x.gapDue.isSome then s
    else if missedBefore (now s) x then enterGap h (now s) s
    else inMod h (fun x => { x with gapDue := some (now s + 1000) }) (missOne h s)
  | none => s

/-- Link inputs enter GAP when their second packet is missing. -/
def gapsDue (s : State) : State :=
  (s.audio.inputs.filter (fun e => match e.2.gapDue with
    | some t => decide (t ≤ now s)
    | none => false)).foldl (fun s e => enterGap e.1 (now s) s) s

/-- The rate of an input in Hz (Table 10-1). -/
def rateHz (x : AudioIn) : Nat := if x.kind = 4 then 8000 else [44100, 48000, 96000].getD x.fs 0

/-- One sample of an input channel as its converter delivers it (R247, R251): the manual gives no filter. -/
def inSample (s : State) (hc : Option (Handle × Nat)) (n : Nat) : Int :=
  match hc with
  | none => 0
  | some (h, c) =>
    match inGet s h with
    | none => 0
    | some x =>
      if inSilent s x then 0
      else (Config.resample (x.first + c) (rateHz x) (x.buffered.map (fun p =>
        (p.1, (List.range (p.2.length / max 1 x.channels)).map (fun i => p.2.getD (i * x.channels + c) 0)))) n).toInt

/-! ### What a channel hears (R250) -/

/-- The source at the root of a chain of processed sources (R151, R250). -/
def rootOf (s : State) : Nat → Handle → Handle
  | 0, h => h
  | n + 1, h => match tget s.procs h with
    | some x => rootOf s n x.input
    | none => h

/-- Channel c of a source's audio input. -/
def channelOf (s : State) (h : Handle) (c : Nat) : Option (Handle × Nat) :=
  match inGet s h with
  | none => none
  | some x => if c < x.channels then some (h, c) else none

/-- The owner of an output may hear a source that it names itself, or that P0 has named for it (R70, R250). -/
def mayHear (s : State) (owner : Nat) (byP0 : Bool) (h : Handle) : Bool :=
  match derived s owner h with
  | none => byP0 || decide (owner = 0 ∨ hPart h = owner)
  | some (_, egress) => egress

/-- The route a followed layer shows, or turns to in a fade. -/
def followed (s : State) (d : Nat) : Option Handle :=
  let x := destGet s d
  if x.fadeN ≠ 0 then x.incoming else x.active

/-- What a configuration hears; with FOLLOW the grant that counts is that of the routed source (R250). -/
def hears (s : State) (owner : Nat) (c : ChanCfg) : Option (Handle × Nat) :=
  match c.sel with
  | 1 => if mayHear s owner c.byP0 c.src then channelOf s c.src c.inCh else none
  | 2 =>
    match (followed s c.src).bind (fun r => tget s.routes r) with
    | none => none
    | some r =>
      match derived s owner r.source with
      | some (_, false) => none
      | _ => channelOf s (rootOf s 6 r.source) c.inCh
  | _ => none

/-! ### Delay (R252, R253) -/

/-- Timing domain of an output: that of the head bound to its port, or of its flow (R249). -/
def outTd (s : State) (id : Nat) : Option Nat :=
  if id / 2 ^ 28 = 1 then
    s.heads.findSome? (fun e => match e.2.act.sink with
      | .link p _ _ _ _ => if p = id % 32 then some e.2.act.mode.td else none
      | _ => none)
  else (tget s.eth.flows (id % 65536)).map (fun f => f.td)

/-- A_path in µs (Table 10-2). -/
def pathUs (s : State) (id : Nat) (o : AudioOut) (x : AudioIn) : Nat :=
  (if x.kind = 1 then 250 else if x.kind = 4 then 22000 else if x.ptime125 then 1000 else 2500)
    + (if x.fs = 1 ∧ x.kind ≠ 4 then 500 else 1000)
    + (if id / 2 ^ 28 = 1 then 250 else if o.ptime125 then 125 else 1000)
    + (match outTd s id with
      | some td => if td = s.audio.clockTd then 0 else 500
      | none => 0)

/-- The mode a route runs in: that of its rung (R157, R188). -/
def currentMode (r : Route) : Nat :=
  match (modeKV r.mode r.variant).bind (fun kv => rungKV kv r.ladder r.rung) with
  | some (2, _) => 2
  | some (3, _) => 1
  | _ => 0

/-- L + T_in of a layer's route in µs (R175, R253), as a fraction and what is to be taken from it. -/
def latencyUs (s : State) (d : Nat) (r : Route) : Frac × Frac :=
  let st := (setsOf s d).1
  let tin := periodUs (srcGet s r.source).fmt.rate
  let lead := linesUs st (st.mode.timing.vtotal - st.mode.applyLine)
  let base := fadd (fadd (tOut st) lead) tin
  match currentMode r with
  | 0 => (base, ⟨0, 1⟩)
  | 1 => (fadd base tin, ⟨0, 1⟩)
  | _ => (fadd (fadd base tin) (fadd (tOut st) ⟨50, 1⟩), linesUs st (daLines st))

/-- The roundInt whole number to a fraction; the manual does not say which of two that are equally near. -/
def roundInt (n : Int) (d : Nat) : Int :=
  if 2 * (n % d) = d then n / d + b1 (Config.roundUp n.toNat d) else (2 * n + d) / (2 * d)

/-- The delay of a channel in samples, and whether it had to be clamped (R252, R253). -/
def delayOf (s : State) (id : Nat) (o : AudioOut) (c : ChanCfg) (old : Nat) : Nat × Bool :=
  if !c.align then (c.delay.toNat, false)
  else
    match hears s o.owner c, (followed s c.src).bind (fun r => tget s.routes r) with
    | some (h, _), some r =>
      match inGet s h with
      | none => (old, false)
      | some x =>
        let (a, b) := latencyUs s c.src r
        let p : Frac := fadd b ⟨pathUs s id o x, 1⟩
        let v := roundInt (48 * ((a.num * p.den : Nat) - (p.num * a.den : Nat) : Int)) (1000 * a.den * p.den) + c.delay
        let v1 := min (max v 0) c.delayMax
        (v1.toNat, decide (v1 ≠ v))
    | _, _ => (old, false)

/-! ### Ramps (R255, R256) -/

/-- The weight of the incoming signal. -/
def inWeight (r : Ramp) : Nat := raisedCosine r.length r.pos

/-- The weight of the outgoing signal of a ramp that started from weight w. -/
def outWeight (w : Nat) (r : Ramp) : Nat := w * (fullWeight - inWeight r) / fullWeight

/-- A configuration as the channel sounds: at zero while the clock moves (R262). -/
def sounding (cfg : ChanCfg) (hush : Bool) : ChanCfg := { cfg with mute := cfg.mute || hush }

/-- The ramp of a channel that still runs. -/
def running (c : Chan) : Option Ramp := c.ramp.filter (fun r => decide (r.pos < r.length))

/-- The weight at which what is heard enters the line. -/
def riseWeight (c : Chan) : Nat := (c.rise.map (fun r => raisedCosine r.2 r.1)).getD fullWeight

/-- A ramp is made behind the line: it changes delay, gain or mute. -/
def behind (delay : Nat) (out : ChanCfg) (c : Chan) : Bool :=
  !decide (delay = c.delay ∧ out.gain = c.cfg.gain ∧ out.mute = (sounding c.cfg c.hush).mute)

/-- A channel starts a ramp of n samples from what it heard, at what gain and delay: the incoming signal of a ramp that
runs becomes the outgoing one at its present weight (R256). That weight stays where the cut ramp was made: what already
stands in the line leaves at the weight of a ramp behind it, and a signal that was rising before the line goes on rising.
The flag says that a ramp was cut short. -/
def startRamp (n : Nat) (heard : Option (Handle × Nat)) (c new : Chan) : Chan × Bool :=
  let cut := running c
  let w := (cut.map inWeight).getD fullWeight
  let before := cut.any (fun r => decide (r.heard ≠ c.heard))
  let after := cut.any (fun r => behind r.delay r.out c)
  let pre := decide (heard ≠ new.heard)
  let post := behind c.delay (sounding c.cfg c.hush) new
  ({ new with
      ramp := some {
        out := sounding c.cfg c.hush, heard := heard, delay := c.delay, length := n
        from_ := (if before || (after && !post) then w else fullWeight) * riseWeight c / fullWeight
        leaveFrom := if after then w else fullWeight }
      rise := if pre then none else if before then cut.map (fun r => (r.pos, r.length)) else c.rise
      past := if pre && after && !post then (w, c.delay) else c.past }, cut.isSome)

/-- A channel turns to a configuration; a change of what it hears starts a ramp of n samples (R255). -/
def turn (n : Nat) (cfg : ChanCfg) (hush : Bool) (heard : Option (Handle × Nat)) (delay : Nat) (c : Chan) : Chan × Bool :=
  let new := { c with cfg := cfg, hush := hush, heard := heard, delay := delay }
  if c.heard = heard ∧ c.delay = delay ∧ c.cfg.gain = cfg.gain ∧ (sounding c.cfg c.hush).mute = (sounding cfg hush).mute
    then (new, false)
  else startRamp n c.heard c new

def outGet (s : State) (id : Nat) : Option AudioOut := tget s.audio.outputs id

def outPut (id : Nat) (o : AudioOut) (s : State) : State :=
  setAudio { s.audio with outputs := tset s.audio.outputs id o } s

/-- Channel k of an output becomes what is given; a ramp that was cut is counted and raised (R256). -/
def putChannel (id k : Nat) (o : AudioOut) (c : Chan × Bool) (s : State) : State :=
  let s1 := outPut id { o with
    chans := tset o.chans k c.1, rampCuts := sat 0xFFFFFFFF o.rampCuts (b1 c.2) } s
  if c.2 then raise 224 2 s1 else s1

/-- A channel of an output takes a configuration (R253, R255): its delay is evaluated, and a clamp or a cut
ramp is counted and raised. -/
def turnChannel (id k n : Nat) (cfg : ChanCfg) (s : State) : State :=
  match outGet s id with
  | none => s
  | some o =>
    let c := (tget o.chans k).getD {}
    let (d, clamp) := delayOf s id o cfg c.delay
    let o1 := { o with clamps := sat 0xFFFFFFFF o.clamps (b1 clamp) }
    putChannel id k o1 (turn n cfg c.hush (hears s o.owner cfg) d c) (if clamp then raise 224 1 s else s)

/-- Every channel of every output goes to zero over 1 ms, or comes back from it over RAMP (R262). -/
def hushAll (hush : Bool) (s : State) : State :=
  s.audio.outputs.foldl (fun s e => e.2.chans.foldl (fun s f =>
    match outGet s e.1 with
    | none => s
    | some o => putChannel e.1 f.1 o
        (turn (if hush then 48 else f.2.cfg.ramp) f.2.cfg hush f.2.heard f.2.delay f.2) s) s) s

/-- Look again at every channel that satisfies a test, with a ramp of the given length, or RAMP where it is 0. -/
def refresh (p : Nat → ChanCfg → Bool) (n : Nat) (s : State) : State :=
  s.audio.outputs.foldl (fun s e => e.2.chans.foldl (fun s f =>
    if p e.1 f.2.cfg then turnChannel e.1 f.1 (if n = 0 then f.2.cfg.ramp else n) f.2.cfg s else s) s) s

/-- The apply instant of a followed layer (R253, R255, R256): a fade of N frames makes a ramp of N × T_out. -/
def refollow (d : Nat) (s : State) : State :=
  let x := destGet s d
  let t := fmul (tOut (setsOf s d).1) ⟨48 * x.fadeN, 1000⟩
  refresh (fun _ c => decide (c.sel = 2 ∧ c.src = d)) (if x.fadeN ≠ 0 then divOpen t.num t.den else 0) s

/-- The changes of an output that have been handed off apply (R257). -/
def applyOutput (id : Nat) (s : State) : State :=
  match outGet s id with
  | none => s
  | some o =>
    o.pending.foldl (fun s p =>
      let s1 := (List.range p.2.1.length).foldl (fun s i => match (p.2.1)[i]? with
        | some c => turnChannel id (p.1 + i) c.ramp c s
        | none => s) s
      applied p.2.2.1 (.audio id) p.2.2.2 s1) (outPut id { o with pending := [] } s)

/-- Playout resumes (R258): every channel that hears the input ramps up from silence. -/
def resume (h : Handle) (s : State) : State :=
  let s1 := inMod h (fun x => { x with
    gapSamples := gapCount s x, gap := false, missedAt := none, resumeFrom := none, gapDue := none
    buffered := (x.buffered.getLast?).toList.map (fun p => (now s, p.2)) }) s
  let s2 := s1.audio.outputs.foldl (fun s e => e.2.chans.foldl (fun s f =>
    if f.2.heard.map Prod.fst = some h then
      match outGet s e.1 with
      | none => s
      | some o =>
        let c := (tget o.chans f.1).getD {}
        putChannel e.1 f.1 o (startRamp c.cfg.ramp none c c) s
    else s) s) s1
  inState h false (raise 223 1 s2)

/-! ### Samples (R252, R254, R255) -/

/-- Two signals mixed by weights. -/
def mix2 (inn : Int) (wi : Nat) (out : Int) (wo : Nat) : Int := weigh inn wi + weigh out wo

/-- The greatest m below 2^k + b with m^200 × q ≤ p. -/
def root200 (p q : Nat) : Nat → Nat → Nat
  | 0, b => b
  | k + 1, b => root200 p q k (if (b + 2 ^ k) ^ 200 * q ≤ p then b + 2 ^ k else b)

/-- |v| × 10^(n/200), n steps of 0.1 dB (R254); the manual gives no rounding. -/
def gainOf (v : Nat) (n : Int) : Nat :=
  let p := v ^ 200 * 10 ^ n.toNat
  let q := 10 ^ (-n).toNat
  let m := root200 p q 29 0
  if m ^ 200 * q = p then m else m + b1 (Config.roundUp m v)

/-- A delayed sample after gain and mute, not yet clipped. -/
def gained (line : List Int) (delay : Nat) (cfg : ChanCfg) : Int :=
  if cfg.mute then 0
  else
    let v := line.getD delay 0
    if cfg.gain = 0 then v else v.sign * (gainOf v.natAbs cfg.gain : Nat)

/-- What enters a channel's delay line: a ramp between two signals heard is made before it (R255). -/
def heardNow (s : State) (n : Nat) (c : Chan) : Int :=
  let inn := weigh (inSample s c.heard n) (riseWeight c)
  match running c with
  | none => inn
  | some r => if r.heard = c.heard then inn else mix2 inn (inWeight r) (inSample s r.heard n) (outWeight r.from_ r)

/-- What leaves the line: a ramp of delay, gain or mute is made behind it (R255). -/
def leaving (line : List Int) (c : Chan) : Int :=
  let v := weigh (gained line c.delay (sounding c.cfg c.hush)) (if c.past.2 = 0 then fullWeight else c.past.1)
  match running c with
  | none => v
  | some r =>
    if behind r.delay r.out c then mix2 v (inWeight r) (gained line r.delay r.out) (outWeight r.leaveFrom r) else v

/-- One sample of a channel: what goes out, whether it was clipped, and the channel after it. -/
def chanStep (s : State) (n : Nat) (c : Chan) : Int × Bool × Chan :=
  let x := heardNow s n c
  let line := (x :: c.line).take (1 + max c.delay (max c.cfg.delayMax ((c.ramp.map (fun r => r.delay)).getD 0)))
  let y := leaving line c
  let z := min (max y (-8388608)) 8388607
  (z, decide (z ≠ y), { c with
    line := line, ramp := c.ramp.map (fun r => { r with pos := r.pos + 1 })
    rise := (c.rise.map (fun r => (r.1 + 1, r.2))).filter (fun r => decide (r.1 < r.2)), past := (c.past.1, c.past.2 - 1) })

/-- n samples of a channel. -/
def chanRun (s : State) (at_ : Nat) : Nat → Chan → List Int × Nat × Chan
  | 0, c => ([], 0, c)
  | n + 1, c =>
    let (l, k, c1) := chanRun s at_ n c
    let (v, clip, c2) := chanStep s (at_ + n) c1
    (l ++ [v], k + b1 clip, c2)

end Sys2Proof.Machine
end

