-- ==== Sys2Proof/Machine/Routes.lean ====
section
/-! DEFINITION. Routes and clean cuts: the route-class commands (R180–R188), what a destination does with
its routes at an apply instant (R172–R179), and the release of output-paced jobs (R149, R173, R174). -/

namespace Sys2Proof.Machine

open Sys2Proof

/-! ### Destinations (R168–R170) -/

/-- The identifier keeps to Table 7-1. -/
def destGood (d : Nat) : Bool :=
  match dKind d with
  | 1 => decide (dPart d = 0 ∧ dIndex d = dHead d * 256 + dLayer d)
  | 2 => true
  | 3 => true
  | 4 => decide (dPart d = 0 ∧ dIndex d < 1024)
  | _ => false

/-- The issuer's authority over a destination, and the destination's existence (R11, R170). -/
def destFault (page : Nat) (s : State) (d : Nat) : Option Status :=
  match dKind d with
  | 1 => if page ≠ 0 ∧ holder s 0 (dHead d) ≠ page then some .notOwner else none
  | 4 =>
    match tget s.eth.flows (dIndex d) with
    | none => if page = 0 then none else some .notOwner
    | some f => if page ≠ 0 ∧ f.owner ≠ page then some .notOwner else none
  | k =>
    if page ≠ 0 ∧ dPart d ≠ page then some .notOwner
    else if (if k = 2 then (tget s.pool.encodes (destHandle d)).isSome
      else (tget s.pool.streams (destHandle d)).isSome) then none
    else some .noSuchHandle

/-- A dependence on a divergent item: words of the group, firmware or epoch, or the exports of the origin
(Table 16-6, R368). -/
def dependsOn (s : State) (origin : Nat) : Bool :=
  let v := s.domino.divergent
  v.getLsbD 0 || v.getLsbD 1 || v.getLsbD 2 || v.getLsbD (4 + origin)

/-- An import source from a dependent origin (R368). -/
def sourceDivergent (s : State) (h : Handle) : Bool :=
  match (srcGet s h).kind with
  | .imported o _ _ => dependsOn s o
  | _ => false

/-- Permissions of the destination's owner on a source: none where no permission is needed (R69, R151). -/
def permsOf (s : State) (owner : Nat) (src : Handle) : Option (Bool × Bool) := derived s owner src

/-- The permission Table 7-2 and R170 ask for is missing: a head's layer asks for none (DEDUCED, log entry 100). -/
def permMissing (s : State) (d : Nat) (src : Handle) : Bool :=
  match permsOf s (destOwner s d) src with
  | none => false
  | some (rec_, egress) =>
    (decide (dKind d = 3) && !rec_) || ((decide (dKind d = 2) || decide (dKind d = 4)) && !egress)

/-- Table 7-2 where the fields alone decide. -/
def fieldsFault (s : State) (d : Nat) (x : Source) (mode fade : Nat) : Option Status :=
  let k := dKind d
  if k ≠ 1 ∧ 0 < fade then some .unsupported
  else if k = 3 then (if x.kind = .entry ∧ mode = 0 then none else some .inconsistent)
  else if !isFrames x then some .inconsistent
  else if k = 1 ∧ 4 ≤ dLayer d ∧ mode ≠ 0 then some .inconsistent
  else if k = 4 then
    (match tget s.eth.flows (dIndex d) with
      | some f => if f.tx ∧ f.essence = 0 then none else some .inconsistent
      | none => some .inconsistent)
  else none

/-- The encode context or flow is bound as a head's sink, now or by a set handed off (R170, R241). -/
def isSink (s : State) (d : Nat) : Bool :=
  s.heads.any (fun e => ([some e.2.act, e.2.pend].filterMap id).any (fun st => match st.sink with
    | .encoder c => decide (dKind d = 2 ∧ c = destHandle d)
    | .ip n => decide (dKind d = 4 ∧ n = dIndex d)
    | _ => false))

/-! ### ADD_ROUTE and its kin (R180, R184–R187) -/

/-- Routes the device holds, staged ones included (R167). -/
def maxRoutes : Nat := 16384

/-- The staged change of a destination, in a mailbox's set. -/
def stagedRoute (m : Mailbox) (d : Nat) : Option RouteOp :=
  m.staged.findSome? (fun i => match i with
    | .route e op => if e = d then some op else none
    | _ => none)

/-- A staged change is dropped: an ADD_ROUTE's handle ends (R180). -/
def dropOp (op : RouteOp) (s : State) : State :=
  match op with
  | .add r _ => { s with routes := tdel s.routes r }
  | _ => s

/-- Stage a change of a destination: it replaces the change of the same destination staged before, and
takes its place (R180). -/
def stageOp (page d : Nat) (op : RouteOp) (s : State) : State :=
  let m := box s page
  match stagedRoute m d with
  | some old => setBox page { m with staged := m.staged.map (fun i => match i with
      | .route e o => if e = d then .route d op else .route e o
      | i => i) } (dropOp old s)
  | none => setBox page { m with staged := m.staged ++ [.route d op] } s

/-- The set holds 4,096 items at most (R46). -/
def stageFits (page : Nat) (s : State) : Bool := decide ((box s page).staged.length ≤ 4096)

/-- Checks of ADD_ROUTE on its three words (R184). -/
def addFault (page : Nat) (s : State) (src d : Nat) (w : Word) : Option Status :=
  let mode := bits w 1 0
  let fade := bits w 15 8
  let variant := bits w 17 16
  match handleFault page s src [1] with
  | some e => some e
  | none => match liveSource s src with
    | none => some .noSuchHandle
    | some x =>
      if !destGood d ∨ mode = 3 ∨ (mode = 2 ∧ 1 < variant) then some .range
      else if (bit w 4 ∧ fade = 0) ∨ (!bit w 4 ∧ fade ≠ 0) ∨ (mode ≠ 2 ∧ variant ≠ 0) then some .inconsistent
      else match destFault page s d with
        | some e => some e
        | none =>
          if permMissing s d src then some .notOwner
          else match fieldsFault s d x mode fade with
            | some e => some e
            | none =>
              if isSink s d then some .state
              else if sourceDivergent s src then some .divergent
              else none

/-- Stage one ADD_ROUTE whose checks have passed: the route's handle and the next state. -/
def addOne (page src d : Nat) (w : Word) (s : State) : Handle × State :=
  let o := destOwner s d
  let (h, s1) := newHandle o 3 s
  let r : Route := { source := src, dest := d, owner := o, mode := bits w 1 0, variant := bits w 17 16, fade := bits w 15 8 }
  (h, stageOp page d (.add h (bits w 15 8)) { s1 with routes := tset s1.routes h r })

def cmdAddRoute (c : Ctx) (s : State) : CmdOut :=
  match addFault c.page s (bn c 0) (bn c 1) (bw c 2) with
  | some e => refuse e
  | none =>
    let (h, s1) := addOne c.page (bn c 0) (bn c 1) (bw c 2) s
    if maxRoutes < s1.routes.length ∨ !stageFits c.page s1 then refuse .quota
    else .done .ok [word h, word (box s1 c.page).staged.length] s1

/-- A route of the issuer or, for P0, of anyone. -/
def withRoute (c : Ctx) (s : State) (k : Route → CmdOut) : CmdOut :=
  withHandle c.page s (bn c 0) 3 (tget s.routes (bn c 0)) k

/-- The result of a change that has been staged. -/
def stagedDone (c : Ctx) (s1 : State) : CmdOut :=
  if !stageFits c.page s1 then refuse .quota
  else .done .ok [word (box s1 c.page).staged.length] s1

def cmdModifyRoute (c : Ctx) (s : State) : CmdOut :=
  withRoute c s fun r =>
    let w := bw c 2
    let mode := bits w 1 0
    let variant := bits w 17 16
    if mode = 3 ∨ (mode = 2 ∧ 1 < variant) then refuse .range
    else if bw c 1 ≠ 0 ∨ bit w 4 ∨ bits w 15 8 ≠ 0 ∨ (mode ≠ 2 ∧ variant ≠ 0) then refuse .inconsistent
    -- the source may have been revoked since the route was admitted (R70)
    else match handleFault c.page s r.source [1] with
    | some e => refuse e
    | none => if permMissing s r.dest r.source then refuse .notOwner
    else match fieldsFault s r.dest (srcGet s r.source) mode 0 with
      | some e => refuse e
      | none =>
        if r.state = 3 then refuse .state
        else stagedDone c (stageOp c.page r.dest (.modify (bn c 0) mode variant) s)

def cmdDeleteRoute (c : Ctx) (s : State) : CmdOut :=
  withRoute c s fun r =>
    let w := bw c 2
    let fade := bits w 15 8
    -- Table 7-6 gives DELETE_ROUTE no ERR_INCONSISTENT
    if bits w 1 0 ≠ 0 ∨ bits w 17 16 ≠ 0 ∨ (bit w 4 ∧ fade = 0) ∨ (!bit w 4 ∧ fade ≠ 0) then refuse .range
    else if dKind r.dest ≠ 1 ∧ bit w 4 then refuse .unsupported
    else stagedDone c (stageOp c.page r.dest (.delete (bn c 0) fade) s)

/-- The entries of a salvo in order: the handles made, or the first failure with its index (R187). -/
def salvo (page : Nat) (body : List Word) (first : Nat) : Nat → State → Except (Status × Nat) (List Handle × State)
  | 0, s => .ok ([], s)
  | n + 1, s =>
    match salvo page body first n s with
    | .error e => .error e
    | .ok (hs, s1) =>
      let at_ := fun i => wd body (first + 4 * n + i)
      match addFault page s1 (at_ 0).toNat (at_ 1).toNat (at_ 2) with
      | some e => .error (e, n)
      | none =>
        let (h, s2) := addOne page (at_ 0).toNat (at_ 1).toNat (at_ 2) s1
        if maxRoutes < s2.routes.length ∨ !stageFits page s2 then .error (.quota, n)
        else .ok (hs ++ [h], s2)

/-- Reserved bits of a salvo block (R187, Table 7-7). -/
def salvoRsv (ws : List Word) : Bool :=
  decide (wd ws 0 &&& ~~~ (field 8 0) = 0 ∧ wd ws 3 = 0)
    && (List.range ((ws.length - 4) / 4)).all (fun i =>
      decide (wd ws (4 + 4 * i + 2) &&& ~~~ (field 1 0 ||| field 4 4 ||| field 17 8) = 0 ∧ wd ws (4 + 4 * i + 3) = 0))

def cmdStageSalvo (c : Ctx) (s : State) : CmdOut :=
  let n := bf c 0 8 0
  let a := bn64 c 1
  if c.len < 32 ∨ c.len ≠ 16 + 16 * n then refuse .length
  else if a % 4 ≠ 0 then refuse .range
  else match salvo c.page c.body 4 n s with
    | .error (e, i) => .fail e [0, word i]
    | .ok (hs, s1) =>
      let res := [word n, word (hs.headD 0)]
      if a = 0 then .done .ok res s1
      else hostWrite s1 a (bytesOf (hs.map word)) fun s2 => .done .ok res s2

/-! ### Reading (R188) -/

def cmdGetRouteStatus (c : Ctx) (s : State) : CmdOut :=
  withRoute c s fun r =>
    let res := [pack [(r.state, 1, 0), (r.mode, 5, 4), (currentMode r, 9, 8), (r.rung, 13, 12)],
      (if c.page ≠ 0 ∧ hPart r.source ≠ c.page then 0 else word r.source), word r.dest, r.epoch,
      word r.repeats, word r.skips]
    .done .ok res (if bb c 1 0 then
      { s with routes := tset s.routes (bn c 0) { r with repeats := 0, skips := 0 } } else s)

/-- Applied and pending epoch of a destination (R183, R188). -/
def destEpochs (s : State) (d : Nat) : Word × Word :=
  if dKind d = 1 then ((headGet s (dHead d)).appliedEpoch, (headGet s (dHead d)).pendingEpoch)
  else ((destGet s d).applied, ((destGet s d).pending.getLast?.map (fun p => p.2.2)).getD 0)

def cmdGetDestination (c : Ctx) (s : State) : CmdOut :=
  let d := bn c 0
  if !destGood d then refuse .range
  else match destFault c.page s d with
    | some e => refuse e
    | none =>
      let x := destGet s d
      let (a, p) := destEpochs s d
      .done .ok [word (x.active.getD 0), a, p, pack [(destTd s d, 4, 0), (x.fadeN - x.fadeI, 15, 8)],
        word (x.incoming.getD 0), 0] s

def specAddRoute : OpSpec :=
  { op := 0x0600, maxLen := 12, rsv := within [0xFFFFFFFF, 0xFFFFFFFF, field 1 0 ||| field 4 4 ||| field 17 8]
    run := cmdAddRoute }

def specModifyRoute : OpSpec :=
  { op := 0x0601, maxLen := 12, rsv := within [0xFFFFFFFF, 0xFFFFFFFF, field 1 0 ||| field 4 4 ||| field 17 8]
    run := cmdModifyRoute }

def specDeleteRoute : OpSpec :=
  { op := 0x0602, maxLen := 12, rsv := within [0xFFFFFFFF, 0, field 1 0 ||| field 4 4 ||| field 17 8]
    run := cmdDeleteRoute }

def specStageSalvo : OpSpec :=
  { op := 0x0603, maxLen := 4112, bulkOnly := true, rsv := salvoRsv, run := cmdStageSalvo }

def specGetRouteStatus : OpSpec :=
  { op := 0x0604, maxLen := 8, rsv := within [0xFFFFFFFF, 1], log := fun b => bit (wd b 1) 0, named := nameWord 0
    run := cmdGetRouteStatus }

def specGetDestination : OpSpec := { op := 0x0605, maxLen := 4, run := cmdGetDestination }

def execAddRoute (page : Fin 16) (d : Desc) (s : State) : Host.Outcome State Fault Refusal :=
  if d.Wf then .next (issue specAddRoute page d s) else .fault .illFormed

def execModifyRoute (page : Fin 16) (d : Desc) (s : State) : Host.Outcome State Fault Refusal :=
  if d.Wf then .next (issue specModifyRoute page d s) else .fault .illFormed

def execDeleteRoute (page : Fin 16) (d : Desc) (s : State) : Host.Outcome State Fault Refusal :=
  if d.Wf then .next (issue specDeleteRoute page d s) else .fault .illFormed

def execStageSalvo (page : Fin 16) (d : Desc) (s : State) : Host.Outcome State Fault Refusal :=
  if d.Wf then .next (issue specStageSalvo page d s) else .fault .illFormed

def execGetRouteStatus (page : Fin 16) (d : Desc) (s : State) : Host.Outcome State Fault Refusal :=
  if d.Wf then .next (issue specGetRouteStatus page d s) else .fault .illFormed

def execGetDestination (page : Fin 16) (d : Desc) (s : State) : Host.Outcome State Fault Refusal :=
  if d.Wf then .next (issue specGetDestination page d s) else .fault .illFormed

/-! ### The end of a route, and its output ring -/

def modRoute (h : Handle) (f : Route → Route) (s : State) : State := { s with routes := tmod s.routes h f }

/-- The frame held under R176 is given up. -/
def dropHeld (h : Handle) (s : State) : State :=
  match (tget s.routes h).bind (fun r => r.hold) with
  | some (i, _) => dropRef i (.route h) (modRoute h (fun r => { r with hold := none }) s)
  | none => s

/-- A route's jobs end: those that have not started are withdrawn, the outputs of the others are discarded. -/
def endJobs (h : Handle) (s : State) : State :=
  let s1 := stopJobs (fun x => decide (x.stream = some h ∧ x.state = 0)) 0 s
  setEngines { s1.engines with jobs := tall s1.engines.jobs (fun _ x =>
    if x.stream = some h then { x with discard := true } else x) } s1

/-- The output ring goes: its converted frame is no longer held for the destination, and its slots leave
as they become free (R150, R126). -/
def dropRouteRing (h : Handle) (s : State) : State :=
  let s1 := endJobs h s
  let old := (tget s1.routes h).bind (fun r => r.output)
  let s2 := modRoute h (fun r => { r with output := none, ring := r.ring.map (fun e => { e with surplus := true }) }) s1
  let s3 := match old with
    | some i => endHold i (fun o => { o with latest := false }) s2
    | none => s2
  settleRing h s3

/-- The output ring of a route that converts, now or once what has been handed off applies: three slots of the
input's footprint, charged to the partition that owns the route; slots of another footprint are surplus (R150). -/
def followRing (h : Handle) (s : State) : State :=
  match tget s.routes h with
  | none => s
  | some r =>
    let fp := footprint (nextFmt s (routeInput s r.dest true ⟨r.source, r.mode, r.variant⟩))
    if r.ring.any (fun e => !e.surplus && decide (e.pages = fp)) then s
    else addSlots h fp r.owner false 3
      (modRoute h (fun y => { y with ring := y.ring.map (fun k => { k with surplus := true }) }) s)

/-- Every output ring that the configuration needs (R150). -/
def followRings (s : State) : State :=
  (tkeys s.dests).foldl (fun s d =>
    ((nextForms s (destGet s d)).filter (fun e => decide (e.2.1 ≠ 0))).foldl (fun s e => followRing e.1 s) s) s

/-- A route ends: its handle names nothing from here on. Slots that a job still writes, or that a frame still shows,
stay charged until they are free (R71, R126, R130). -/
def endRoute (h : Handle) (s : State) : State :=
  let s1 := dropRouteRing h (dropHeld h s)
  { s1 with routes := tdel s1.routes h, orphans := s1.orphans ++ ringOf s1 h }

/-! ### Changes at an apply instant (R177–R179, R185, R186) -/

/-- A fade ends: the outgoing route goes, and the incoming one is the destination's route (R178, R179). -/
def endFade (d : Nat) (s : State) : State :=
  let x := destGet s d
  if x.fadeN = 0 then s
  else
    let s1 := match x.active with
      | some r => endRoute r s
      | none => s
    destPut d { destGet s1 d with active := x.incoming, incoming := none, fadeN := 0, fadeI := 0 } s1

/-- One change applies. A later change ends a running fade at once (R179). -/
def applyOp (d : Nat) (e : Word) (op : RouteOp) (s0 : State) : State :=
  let s := endFade d s0
  let x := destGet s d
  match op with
  | .add r n =>
    if (tget s.routes r).isNone then s
    else
      let s1 := modRoute r (fun t => { t with state := 2, epoch := e }) s
      if n = 0 then
        let s2 := match x.active with
          | some q => endRoute q s1
          | none => s1
        destPut d { destGet s2 d with active := some r } s2
      else
        let s2 := match x.active with
          | some q => modRoute q (fun t => { t with state := 3, epoch := e }) s1
          | none => s1
        destPut d { x with incoming := some r, fadeN := n, fadeI := 0 } s2
  | .modify r m v =>
    if x.active ≠ some r then s
    else
      let s1 := modRoute r (fun t => { t with mode := m, variant := v, rung := t.rungNext.getD 0, rungNext := none, epoch := e }) s
      if m = 0 then dropRouteRing r s1 else s1
  | .delete r n =>
    if x.active ≠ some r then s
    else if n = 0 then
      let s1 := endRoute r s
      destPut d { destGet s1 d with active := none } s1
    else destPut d { x with incoming := none, fadeN := n, fadeI := 0 } (modRoute r (fun t => { t with state := 3, epoch := e }) s)

/-- Routes whose source or grant has gone end as a CUT to unrouted, with ROUTE_ENDED (R172). -/
def applyEnding (d : Nat) (s : State) : State :=
  let x := destGet s d
  x.ending.foldl (fun s e =>
    match tget s.routes e.1 with
    | none => s
    | some r =>
      let s1 := endRoute e.1 s
      let y := destGet s1 d
      let y1 := { y with
        active := if y.active = some e.1 then none else y.active
        incoming := if y.incoming = some e.1 then none else y.incoming }
      postNtf r.owner 0x0601 [word e.1, word e.2, word d] (destPut d y1 s1))
    (destPut d { x with ending := [] } s)

/-- Everything that waited for this apply instant, in admission order (R50); a fade with no change moves on
by one frame and ends after frame N (R178). -/
def applyDest (d : Nat) (s : State) : State :=
  let x := destGet s d
  let s0 := if x.fadeN ≠ 0 ∧ x.fadeN ≤ x.fadeI then endFade d s else s
  let s1 := x.pending.foldl (fun s p => match p.1 with
    | some op => applyOp d p.2.2 op s
    | none => s) (destPut d { destGet s0 d with pending := [] } s0)
  let s2 := applyEnding d s1
  let y := destGet s2 d
  refollow d (if y.fadeN ≠ 0 then destPut d { y with fadeI := y.fadeI + 1 } s2 else s2)

/-- A change that has not applied is taken back (R225): the route it adds ends as if deleted; a route it modifies
keeps its rung, and loses the ring it has no use for. -/
def takeBack (op : RouteOp) (s : State) : State :=
  match op with
  | .add r _ => endRoute r s
  | .modify r _ _ =>
    let s1 := modRoute r (fun t => { t with rungNext := none }) s
    if ((tget s.routes r).map (fun t => t.mode)).getD 0 = 0 then dropRouteRing r s1 else s1
  | .delete _ _ => s

/-- Changes a destination has not applied are discarded (R225). -/
def discardPending (d : Nat) (keep : Option RouteOp × Nat × Word → Bool) (s : State) : State :=
  let x := destGet s d
  (x.pending.filter (fun p => !keep p)).foldl (fun s p => match p.1 with
    | some op => takeBack op s
    | none => s) (destPut d { x with pending := x.pending.filter keep } s)

/-! ### What a destination shows (R173–R177) -/

/-- A route in mode m has shown an object in a frame: a repeat of the one before, or frames skipped (R174, R188). -/
def countShown (h : Handle) (m i : Nat) (s : State) : State :=
  let o := objGet s i
  modRoute h (fun r =>
    let rep := match r.last with
      | some (j, u, _) => decide (j = i ∧ u = o.closedAt)
      | none => false
    let gap := (o.seq + 2 ^ 32 - r.lastSeq) % 2 ^ 32
    { r with
      repeats := if rep then sat 0xFFFFFFFF r.repeats 1 else r.repeats
      skips := if r.last.isSome ∧ 1 < gap ∧ gap < 2 ^ 31 then sat 0xFFFFFFFF r.skips (gap - 1) else r.skips
      lastSeq := o.seq, last := some (i, o.closedAt, m) }) s

/-- The object a route in mode m shows in the coming frame of its destination. A route that moves to a mode of more
latency holds the latest complete frame until a converted frame is later (R176). -/
def bindRoute (h : Handle) (m : Nat) (s : State) : Option Nat × State :=
  match tget s.routes h with
  | none => (none, s)
  | some r =>
    let latest := (srcGet s (routeInput s r.dest false ⟨r.source, r.mode, r.variant⟩)).latest
    if m = 0 then (latest, dropHeld h s)
    else
      let rises := match r.last with
        | none => true
        | some (_, _, k) => decide (k < m)
      let s1 := if rises && r.hold.isNone then
          match latest with
          | some i => addRef i (.route h) (modRoute h (fun r => { r with hold := some (i, (objGet s i).closedAt) }) s)
          | none => s
        else s
      match (tget s1.routes h).bind (fun r => r.hold) with
      | some (i, t) =>
        (match r.output with
        | some o => if t < r.outTime then (some o, dropHeld h s1) else (some i, s1)
        | none => (some i, s1))
      | none => (r.output, s1)

/-- One input of a destination's coming frame, in mode m: the object it binds, with a reference; counted at once in
REPEAT_DROP, whose frame is fixed at A (R173). -/
def takeOne (k : Holder) (r : Option (Handle × Nat)) (s : State) : Option Nat × State :=
  match r with
  | none => (none, s)
  | some (h, m) =>
    let (i, s1) := bindRoute h m s
    match i with
    | none => (none, s1)
    | some id => (some id, addRef id k (if m = 0 then countShown h m id s1 else s1))

/-- A route and the mode it runs in. -/
def modeNow (s : State) (r : Option Handle) : Option (Handle × Nat) :=
  r.bind (fun h => (tget s.routes h).map (fun x => (h, currentMode x)))

/-- A destination takes references for its coming frame, and gives up those it took for a frame it has not
begun; the routes that have a frame now, and their modes, are fixed for that frame (R158, R177). -/
def takeRefs (d : Nat) (k : Holder) (s : State) : State :=
  let x := destGet s d
  let p := modeNow s x.active
  let q := modeNow s x.incoming
  let (a, s1) := takeOne k p s
  let (b, s2) := takeOne k q s1
  let s3 := destPut d { destGet s2 d with
    shown := a.toList, shownIn := b.toList
    atA := (if a.isSome then p.toList else []) ++ (if b.isSome then q.toList else []) } s2
  (x.shown ++ x.shownIn).foldl (fun s i => dropRef i k s) s3

/-- A destination gives up the references of the coming frame. -/
def giveRefs (d : Nat) (k : Holder) (s : State) : State :=
  let x := destGet s d
  (x.shown ++ x.shownIn).foldl (fun s i => dropRef i k s) (destPut d { x with shown := [], shownIn := [], atA := [] } s)

/-- A route of the coming frame that converts, with its mode. -/
def converts (x : Dest) (r : Option Handle) : Option (Handle × Nat) :=
  x.atA.find? (fun e => decide (r = some e.1 ∧ e.2 ≠ 0))

/-- The shown frame of a conversion is final: it is counted. -/
def settleShown (d : Nat) (s : State) : State :=
  let x := destGet s d
  let one := fun (r : Option Handle) (l : List Nat) (s : State) => match converts x r, l with
    | some (h, m), i :: _ => countShown h m i s
    | _, _ => s
  one x.incoming x.shownIn (one x.active x.shown s)

/-- At the read instant of a layer, the conversions that had a frame at A show what has been converted by then
(R173, R177). -/
def rebindLayer (d : Nat) (k : Holder) (s : State) : State :=
  let x := destGet s d
  let one := fun (r : Option Handle) (l : List Nat) (s : State) => match converts x r with
    | none => (l, s)
    | some e =>
      let (i, s1) := takeOne k (some e) s
      (i.toList, l.foldl (fun s i => dropRef i k s) s1)
  let (a, s1) := one x.active x.shown s
  let (b, s2) := one x.incoming x.shownIn s1
  settleShown d (destPut d { destGet s2 d with shown := a, shownIn := b } s2)

/-! ### Output-paced jobs (R149, R173, R174) -/

/-- Closed objects of a source, the latest close first. -/
def closedObjs (s : State) (h : Handle) : List (Nat × Obj) :=
  sortBy (fun a b => decide (b.2.closeOrder ≤ a.2.closeOrder))
    (((ringOf s h).map (fun e => (e.id, objGet s e.id))).filter (fun e =>
      !e.2.writing && decide (e.2.closeOrder ≠ 0 ∧ e.2.source = h)))

/-- A read instant of a destination, from which the others lie whole frames away: a head's fetch start, counted from
its last line event, or 1,000 µs after a frame tick (Table 7-2). -/
def someRead (s : State) (d : Nat) : Frac :=
  if dKind d = 1 then
    let x := headGet s (dHead d)
    let v := x.act.mode.timing.vtotal
    fadd ⟨x.lineAt, 1⟩ (linesUs x.act ((v - 8 + (v - x.line % max 1 v)) % max 1 v))
  else ⟨((tget s.time.domains (destTd s d)).map (fun x => x.lastTick)).getD 0 + 1000, 1⟩

/-- The frame period T_out of a destination. -/
def destPeriod (s : State) (d : Nat) : Frac := periodUs (destRate s d (setsOf s d).1)

/-- The first read instant after now. -/
def nextRead (s : State) (d : Nat) : Frac :=
  let b := someRead s d
  let t := destPeriod s d
  if fgt b ⟨now s, 1⟩ then b
  else
    let gone := (now s * b.den - b.num) * t.den / max 1 (b.den * t.num)
    fadd b ⟨(gone + 1) * t.num, t.den⟩

/-- The read instant D of the frame a job is released for now: a frame's jobs are released from D − T_out − 50 µs on,
which is 50 µs before the read instant of the frame before it (R149, Table 6-3). -/
def readInstant (s : State) (d : Nat) : Frac :=
  let next := nextRead s d
  if fgt next ⟨now s + 50, 1⟩ then next else fadd next (destPeriod s d)

/-- The apply instant A of that frame has come. -/
def applyReached (s : State) (d : Nat) : Bool :=
  !fgt (readInstant s d) (fadd ⟨now s, 1⟩ (destDA d (setsOf s d).1))

/-- Content time of the frame with read instant D, as a fraction of µs over a common denominator (Table 7-3). -/
def contentTime (s : State) (r : Route) (d : Frac) : Int × Nat :=
  let st := (setsOf s r.dest).1
  let tin := periodUs (srcGet s (routeInput s r.dest false ⟨r.source, r.mode, r.variant⟩)).fmt.rate
  let back := if currentMode r = 2 then fadd (fadd (periodUs (destRate s r.dest st)) tin) ⟨50, 1⟩
    else fadd (destDA r.dest st) tin
  ((d.num * back.den : Nat) - (back.num * d.den : Nat), d.den * back.den)

/-- Frames n − 1 and n and the phase in 1/64; the older frame twice where n has not closed (R173, R174). -/
def pickInputs (l : List (Nat × Obj)) (t : Int × Nat) : Option ((Nat × Obj) × (Nat × Obj) × Nat × Bool) :=
  let later := l.filter (fun e => decide (t.1 < (e.2.closedAt * t.2 : Nat)))
  match l.find? (fun e => decide (((e.2.closedAt * t.2 : Nat) : Int) ≤ t.1)) with
  | none => none
  | some a =>
    match later.getLast? with
    | none => some (a, a, 0, true)
    | some b =>
      let num := (t.1 - (a.2.closedAt * t.2 : Nat)).toNat * 64
      some (a, b, divHalfUp num ((b.2.closedAt - a.2.closedAt) * t.2), false)

/-- Content time of what the job writes: that of its phase between the two closes, in µs. -/
def outTimeOf (t : Int × Nat) (old : Bool) (a : Obj) : Nat := if old then a.closedAt else divOpen t.1.toNat t.2

/-- Closed objects as a request sees them: one that comes in the cycle of the n last closes does not see those (R16). -/
def closedBefore (n : Nat) (s : State) (h : Handle) : List (Nat × Obj) :=
  (closedObjs s h).filter (fun e => !((recentCloses s).take n).any (fun c => decide (c.1 = h ∧ c.2.1 = e.1)))

/-- Release one job of a route's conversion (R149, R174): one for each frame; a blend when its newer input has closed,
or at A without it. -/
def releaseJob (h : Handle) (r : Route) (n : Nat) (s : State) : State :=
  let inp := routeInput s r.dest false ⟨r.source, r.mode, r.variant⟩
  let d := readInstant s r.dest
  let t := contentTime s r d
  match rungKV ((modeKV r.mode r.variant).getD (0, 0)) r.ladder r.rung, pickInputs (closedBefore n s inp) t, pickSlot s h with
  | some (k, v), some (a, b, w, old), some slot =>
    if r.jobFor = some d ∨ (k = 3 ∧ old = true ∧ applyReached s r.dest = false) then s
    else
      let f := (srcGet s inp).fmt
      let o := b.2
      let s1 := takeSlot h slot { o with latest := false, closeOrder := 0, refs := [], content := .black } s
      let s2 := modRoute h (fun r => { r with
        jobFor := some d, repeats := if old then sat 0xFFFFFFFF r.repeats 1 else r.repeats }) s1
      let c := costC (kernelK k v) (pixelsOf f)
      let x : Job := {
        part := destOwner s r.dest, stream := some h, kernel := k, variant := v, inputs := [a.1, b.1]
        target := h, outSlot := some slot, rect := ⟨0, 0, o.w, o.h⟩, phase := w
        time := outTimeOf t old a.2, seq := o.seq, pixels := pixelsOf f, costNum := c.num, costDen := c.den
        released := now s, deadline := d, itemsWaiting := itemsOf k v f }
      dispatch (newJob (destOwner s r.dest) x s2).2
  | _, _, _ => s

/-- A destination has a running frame clock (R49): a head that is not OFF; the others follow their domain. -/
def clockRuns (s : State) (d : Nat) : Bool :=
  match dKind d with
  | 1 => decide ((headGet s (dHead d)).state ≠ 0)
  | 3 => false
  | _ => true

/-- The release instant of a route's job (R149); `same` says that its request comes in the cycle of the last close, `more`
how many closes before that one fall in it. -/
def execJobRelease (route : Word) (s : State) (same : Bool := false) (more : Nat := 0) :
    Host.Outcome State Fault Refusal :=
  let h := route.toNat
  match tget s.routes h with
  | none => .next s
  | some r =>
    let x := destGet s r.dest
    if (r.state = 2 ∨ r.state = 3) ∧ (x.active = some h ∨ x.incoming = some h) ∧ currentMode r ≠ 0
        ∧ clockRuns s r.dest = true then .next (releaseJob h r (closesIn same more) s)
    else .next s

/-! ### Commands that take a source away (R49, R90, R172) -/

/-- A head in OFF has no frame clock: routes that end at its layers end at once (R49, R172). -/
def endIdle (s : State) : State :=
  (tkeys s.dests).foldl (fun s d =>
    if dKind d = 1 ∧ (headGet s (dHead d)).state = 0 ∧ !(destGet s d).ending.isEmpty then applyDest d s else s) s

def cmdDeleteStream (c : Ctx) (s : State) : CmdOut :=
  withStream c s fun x => .done .ok [] (endIdle (lossReport (portOf s x) (resizeRings (deleteSource (bn c 0) s))))

def cmdDeleteDecode (c : Ctx) (s : State) : CmdOut :=
  withDecode c s fun _ => .done .ok [] (endIdle (deleteDecode (bn c 0) s))

def cmdDeleteProcessed (c : Ctx) (s : State) : CmdOut :=
  withProc c s (bn c 0) fun x =>
    if x.prescale.isSome then refuse .state
    else .done .ok [] (endIdle (resizeRings (deleteSource (bn c 0) s)))

def cmdDeleteTimeshift (c : Ctx) (s : State) : CmdOut :=
  withShift c s fun _ => .done .ok [] (endIdle (deleteShift (bn c 0) s))

def specDeleteStream : OpSpec := { op := 0x0306, maxLen := 4, log := always, named := nameWord 0, run := cmdDeleteStream }

def specDeleteDecodeContext : OpSpec := { op := 0x0311, maxLen := 4, log := always, named := nameWord 0, run := cmdDeleteDecode }

def specDeleteProcessedSource : OpSpec :=
  { op := 0x0502, maxLen := 4, log := always, named := nameWord 0, run := cmdDeleteProcessed }

def specDeleteTimeshift : OpSpec := { op := 0x0407, maxLen := 4, log := always, named := nameWord 0, run := cmdDeleteTimeshift }

def execDeleteStream (page : Fin 16) (d : Desc) (s : State) : Host.Outcome State Fault Refusal :=
  if d.Wf then .next (issue specDeleteStream page d s) else .fault .illFormed

def execDeleteDecodeContext (page : Fin 16) (d : Desc) (s : State) : Host.Outcome State Fault Refusal :=
  if d.Wf then .next (issue specDeleteDecodeContext page d s) else .fault .illFormed

def execDeleteProcessedSource (page : Fin 16) (d : Desc) (s : State) : Host.Outcome State Fault Refusal :=
  if d.Wf then .next (issue specDeleteProcessedSource page d s) else .fault .illFormed

def execDeleteTimeshift (page : Fin 16) (d : Desc) (s : State) : Host.Outcome State Fault Refusal :=
  if d.Wf then .next (issue specDeleteTimeshift page d s) else .fault .illFormed

end Sys2Proof.Machine
end

