-- ==== Sys2Proof/Machine/Layers.lean ====
section
/-! DEFINITION. The layer-class commands (R189–R215): layer parameters, composition, matrices,
coefficient banks, and what admission charges a layer and a head. -/

namespace Sys2Proof.Machine

open Sys2Proof

/-! ### Authority and staging (R189, R213, R236) -/

/-- The head is the odd half of a Jigsaw pair (R236). -/
def oddPaired (s : State) (h : Nat) : Bool := decide (h % 2 = 1) && (headGet s h).paired

/-- A command on a head of the issuer's quota 1, or P0's; `half` says that the odd half of a pair takes it. -/
def withHead (c : Ctx) (s : State) (h : Nat) (half : Bool) (k : CmdOut) : CmdOut :=
  if c.page ≠ 0 ∧ holder s 0 h ≠ c.page then refuse .notOwner
  else if oddPaired s h && !half then refuse .state
  else k

/-- A command on a layer (R189). -/
def withLayer (c : Ctx) (s : State) (k : CmdOut) : CmdOut :=
  let d := bn c 0
  if !destGood d ∨ dKind d ≠ 1 then refuse .range else withHead c s (dHead d) false k

/-- Stage an item of a head; the result is the number of staged items (R213). -/
def stageHead (c : Ctx) (same : Staged → Bool) (item : Staged) (s : State) : CmdOut :=
  restage c same item (fun n => [word n]) s

/-! ### SET_LAYER (R190–R193, Table 8-1) -/

def layerOf (c : Ctx) : LayerCfg :=
  { enable := bb c 1 0, blend := bf c 1 2 1, opaqueBit := bb c 1 3, galpha := bf c 1 13 4
    hbank := bf c 1 15 14, vbank := bf c 1 17 16, prescale := bb c 1 18, preset := bf c 1 22 19
    crop := ⟨bf c 2 15 0, bf c 2 31 16, bf c 3 15 0, bf c 3 31 16⟩
    dst := ⟨bf c 4 15 0, bf c 4 31 16, bf c 5 15 0, bf c 5 31 16⟩ }

def rectEmpty (r : Rect) : Bool := decide (r.x1 ≤ r.x0 ∨ r.y1 ≤ r.y0)

/-- A preset code of Table 8-4; AUTO is for layers only. -/
def presetGood (n : Nat) (layer : Bool) : Bool := decide ((n = 0 ∧ layer = true) ∨ (1 ≤ n ∧ n ≤ 9) ∨ n = 15)

/-- The source a layer will have: that of the issuer's staged route, or of the routes handed off. -/
def layerSource (s : State) (page d : Nat) : Option Source :=
  match stagedRoute (box s page) d with
  | some (.add r _) => (tget s.routes r).map (fun x => srcGet s x.source)
  | some (.delete _ _) => none
  | _ => (afterOps s (destGet s d)).1.map (fun v => srcGet s v.source)

/-- A graphics layer does not scale (R191). -/
def plainLayer (k : LayerCfg) : Bool :=
  decide (k.hbank = 0 ∧ k.vbank = 0) && !k.prescale
    && (rectEmpty k.crop || decide (k.crop.x1 - k.crop.x0 = k.dst.x1 - k.dst.x0 ∧ k.crop.y1 - k.crop.y0 = k.dst.y1 - k.dst.y0))

def cmdSetLayer (c : Ctx) (s : State) : CmdOut :=
  withLayer c s <|
    let d := bn c 0
    let k := layerOf c
    let odd := decide (k.crop.x0 % 2 = 1 ∨ k.crop.x1 % 2 = 1)
    if k.blend = 3 ∨ !presetGood k.preset true ∨ rectEmpty k.dst then refuse .range
    else if odd && ((layerSource s c.page d).map (fun x => decide (x.fmt.sampling = 2))).getD false then refuse .range
    else if 4 ≤ dLayer d ∧ !plainLayer k then refuse .inconsistent
    else stageHead c (fun i => match i with
      | .layer h l _ => decide (h = dHead d ∧ l = dLayer d)
      | _ => false) (.layer (dHead d) (dLayer d) k) s

/-! ### SET_COMPOSITION and SET_MATRIX (R196, R197, R202, R213) -/

/-- ORDER names each layer exactly once. -/
def orderGood (o : BitVec 24) : Bool :=
  (List.range 8).all (fun l => (List.range 8).any (fun i => decide (o.toNat / 8 ^ i % 8 = l)))

def cmdSetComposition (c : Ctx) (s : State) : CmdOut :=
  let h := bf c 0 5 0
  withHead c s h false <|
    let k : Comp := { order := (bw c 1).extractLsb' 0 24, background := (bw c 2).extractLsb' 0 30
                      transfer := bf c 3 1 0, primaries := bf c 3 3 2, outPreset := bf c 3 7 4 }
    if k.transfer = 3 ∨ !presetGood k.outPreset false then refuse .range
    else if !orderGood k.order then refuse .inconsistent
    else stageHead c (fun i => match i with | .comp g _ => decide (g = h) | _ => false) (.comp h k) s

/-- The twelve entries of Table 8-5: three coefficients and an offset a row. -/
def matrixOf (c : Ctx) : Matrix :=
  (List.range 3).flatMap (fun j => [sbits (bw c (2 * j + 1)) 15 0, sbits (bw c (2 * j + 1)) 31 16,
    sbits (bw c (2 * j + 2)) 15 0, sbits (bw c (2 * j + 2)) 27 16])

def cmdSetMatrix (c : Ctx) (s : State) : CmdOut :=
  let h := bf c 0 5 0
  let t := bf c 0 11 8
  withHead c s h false <|
    if 8 < t then refuse .range
    else stageHead c (fun i => match i with | .matrix g u _ => decide (g = h ∧ u = t) | _ => false)
      (.matrix h t (matrixOf c)) s

/-! ### Coefficient banks (R206, R207, R214) -/

/-- Halfword n of a coefficient block from word i on. -/
def halfword (ws : List Word) (i n : Nat) : BitVec 16 := (wd ws (i + n / 2)).extractLsb' (16 * (n % 2)) 16

/-- Bits [15:12] extend the sign (R207). -/
def coefGood (v : BitVec 16) : Bool := decide (v.toInt = (v.extractLsb' 0 12).toInt)

/-- A block as a bank. -/
def bankOf (ws : List Word) : Bank :=
  { vtaps := [2, 4, 6, 0].getD (bits (wd ws 0) 13 12) 0
    hcoef := (List.range 512).map (halfword ws 1)
    vcoef := (List.range 384).map (halfword ws 257) }

/-- Coefficient and slot ranges of a bank (R207). -/
def bankRange (b : Bank) : Bool :=
  b.hcoef.all coefGood && b.vcoef.all coefGood && decide (b.vtaps ≠ 0)
    && (List.range 64).all (fun p => (List.range 6).all (fun k =>
      decide (k < b.vtaps) || decide (b.vcoef.getD (6 * p + k) 0 = 0)))

/-- Each phase adds up to 1,024. -/
def bankSums (b : Bank) : Bool :=
  (List.range 64).all (fun p =>
    decide (((List.range 8).map (fun k => (b.hcoef.getD (8 * p + k) 0).toInt)).sum = 1024)
      && decide (((List.range 6).map (fun k => (b.vcoef.getD (6 * p + k) 0).toInt)).sum = 1024))

def cmdLoadCoefficients (c : Ctx) (s : State) : CmdOut :=
  let h := bf c 0 5 0
  if c.len ≠ 1796 then refuse .length
  else withHead c s h false <|
    let b := bankOf c.body
    if !bankRange b then refuse .range
    else if !bankSums b then refuse .inconsistent
    else stageHead c (fun i => match i with | .coef g k _ => decide (g = h ∧ k = bf c 0 9 8) | _ => false)
      (.coef h (bf c 0 9 8) b) s

/-- Linear interpolation: horizontally in taps 3 and 4, vertically in two taps (Table 8-6). -/
def linearH : List (BitVec 16) := (List.range 512).map (fun i =>
  BitVec.ofNat 16 (if i % 8 = 3 then 1024 - 16 * (i / 8) else if i % 8 = 4 then 16 * (i / 8) else 0))

def linearV : List (BitVec 16) := (List.range 384).map (fun i =>
  BitVec.ofNat 16 (if i % 6 = 0 then 1024 - 16 * (i / 6) else if i % 6 = 1 then 16 * (i / 6) else 0))

/-- A default bank (Table 8-6). The manual gives no number of a windowed sinc: it is any bank that keeps R206. -/
def defaultBank (b : Nat) : Bank :=
  let v := if b = 0 then 6 else if b = 1 then 4 else 2
  let linear : Bank := { vtaps := v, hcoef := linearH, vcoef := linearV }
  let k : Bank := { vtaps := v
                    hcoef := if b = 3 then linearH else (List.range 512).map (Config.defaultHCoef b)
                    vcoef := if 2 ≤ b then linearV else (List.range 384).map (Config.defaultVCoef b) }
  if bankRange k && bankSums k then k else linear

/-- The bank a head has applied: the one loaded, or the default of Table 8-6. -/
def bankGet (st : HeadSet) (b : Nat) : Bank := (tget st.banks b).getD (defaultBank b)

/-- Two halfwords a word. -/
def pairWords (l : List (BitVec 16)) : List Word :=
  (List.range (l.length / 2)).map (fun n => l.getD (2 * n + 1) 0 ++ l.getD (2 * n) 0)

/-- A bank in the layout of Table 8-7. -/
def bankWords (h b : Nat) (k : Bank) : List Word :=
  pack [(h, 5, 0), (b, 9, 8), (k.vtaps / 2 - 1, 13, 12)] :: (pairWords k.hcoef ++ pairWords k.vcoef)

def cmdReadCoefficients (c : Ctx) (s : State) : CmdOut :=
  let h := bf c 0 5 0
  let b := bf c 0 9 8
  withHead c s h false <|
    if bn64 c 1 % 4 ≠ 0 then refuse .range
    else hostWrite s (bn64 c 1) (bytesOf (bankWords h b (bankGet (headGet s h).act b))) fun s1 => .done .ok [] s1

/-! ### Status (R215) -/

/-- Tiles of a layer in the last frame; a pair plans its halves by themselves (R237). -/
def tilesOf (s : State) (h l : Nat) (f : Head → Tbl Nat) : Nat :=
  let n := fun (g : Nat) => (tget (f (headGet s g)) l).getD 0
  n h + (if (headGet s h).paired then n (h + 1) else 0)

def cmdGetLayerStatus (c : Ctx) (s : State) : CmdOut :=
  withLayer c s <|
    let h := dHead (bn c 0)
    let l := dLayer (bn c 0)
    let x := headGet s h
    let d := bn c 0
    .done .ok [
      pack [(b1 (layerCfg x.act l).enable, 0, 0), (b1 (decide (l ∈ x.scanOpaque)), 1, 1),
        (b1 (decide (l ∈ x.mismatch)), 2, 2), (b1 (tget x.prescaleAct l).isSome, 3, 3),
        (b1 (decide ((destGet s d).fadeN ≠ 0)), 4, 4)],
      word ((tget x.prescaleAct l).getD 0),
      word (fceil (destNeed s d (fun n st v => ⟨layerLines s h l false n st v, 1⟩))),
      word (fceil (destNeed s d (fun n st v => layerFetch s h l false n st v))),
      word (tilesOf s h l (fun x => x.tilesSkipped)), word (tilesOf s h l (fun x => x.tilesFetched))] s

def cmdGetHeadBudget (c : Ctx) (s : State) : CmdOut :=
  let h := bf c 0 5 0
  withHead c s h false <|
    .done .ok [word (fceil (headLines s h)), word 98304, word (fceil (headFetch s h)), word 4752000,
      word (headGet s h).prescaleAct.length, 0] s

/-! ### The commands -/

def specSetLayer : OpSpec :=
  { op := 0x0700, maxLen := 24, dflt := [0, pack [(1023, 13, 4)]], rsv := within [0xFFFFFFFF, field 22 0], run := cmdSetLayer }

def specSetComposition : OpSpec :=
  { op := 0x0701, maxLen := 16, dflt := [0, 0x00FAC688, 0, pack [(2, 3, 2), (1, 7, 4)]], rsv := within [field 5 0, field 23 0, field 29 0, field 7 0], run := cmdSetComposition }

def specSetMatrix : OpSpec :=
  { op := 0x0702, maxLen := 28, dflt := [0, 8192, 0, 8192 * 65536, 0, 0, 8192]
    rsv := within [field 5 0 ||| field 11 8, 0xFFFFFFFF, field 27 0, 0xFFFFFFFF, field 27 0, 0xFFFFFFFF, field 27 0]
    run := cmdSetMatrix }

def specLoadCoefficients : OpSpec :=
  { op := 0x0703, maxLen := 1796, bulkOnly := true
    rsv := fun b => decide (b.length ≠ 449) || decide (wd b 0 &&& ~~~ (field 5 0 ||| field 9 8 ||| field 13 12) = 0)
    run := cmdLoadCoefficients }

def specReadCoefficients : OpSpec :=
  { op := 0x0704, maxLen := 12, rsv := within [field 5 0 ||| field 9 8], run := cmdReadCoefficients }

def specGetLayerStatus : OpSpec := { op := 0x0705, maxLen := 4, run := cmdGetLayerStatus }

def specGetHeadBudget : OpSpec := { op := 0x0706, maxLen := 4, rsv := within [field 5 0], run := cmdGetHeadBudget }

def execSetLayer (page : Fin 16) (d : Desc) (s : State) : Host.Outcome State Fault Refusal :=
  if d.Wf then .next (issue specSetLayer page d s) else .fault .illFormed

def execSetComposition (page : Fin 16) (d : Desc) (s : State) : Host.Outcome State Fault Refusal :=
  if d.Wf then .next (issue specSetComposition page d s) else .fault .illFormed

def execSetMatrix (page : Fin 16) (d : Desc) (s : State) : Host.Outcome State Fault Refusal :=
  if d.Wf then .next (issue specSetMatrix page d s) else .fault .illFormed

def execLoadCoefficients (page : Fin 16) (d : Desc) (s : State) : Host.Outcome State Fault Refusal :=
  if d.Wf then .next (issue specLoadCoefficients page d s) else .fault .illFormed

def execReadCoefficients (page : Fin 16) (d : Desc) (s : State) : Host.Outcome State Fault Refusal :=
  if d.Wf then .next (issue specReadCoefficients page d s) else .fault .illFormed

def execGetLayerStatus (page : Fin 16) (d : Desc) (s : State) : Host.Outcome State Fault Refusal :=
  if d.Wf then .next (issue specGetLayerStatus page d s) else .fault .illFormed

def execGetHeadBudget (page : Fin 16) (d : Desc) (s : State) : Host.Outcome State Fault Refusal :=
  if d.Wf then .next (issue specGetHeadBudget page d s) else .fault .illFormed

/-! ### Pre-scale planning (R210–R212) -/

/-- PRESCALE_CHANGE of a pre-scale that is added, or removed with word 5 at 0 (R212). -/
def prescaleNote (h l : Nat) (ph : Handle) (w5 : Word) (s : State) : State :=
  let f := nextFmt s ph
  let q := ((tget s.procs ph).map (fun x => procQ s (ph, x))).getD 0
  postNtf (holder s 0 h) 0x0702 [word (layerDest h l), w5, word q, pack [(f.width, 15, 0), (objHeight f, 31, 16)]] s

/-- Output size of a pre-scale on one axis. -/
def preSize (src crop dst : Nat) : Nat :=
  if crop ≤ dst then src
  else
    let even := fun n => n + n % 2
    max (max (even (cdiv (src * dst) crop)) (even (cdiv src 8))) (min 64 src)

/-- Parameters of the pre-scale of a layer. -/
def preParams (s : State) (st : HeadSet) (l : Nat) (v : RouteCfg) : ProcParams :=
  let f := nextFmt s v.source
  let k := (layerCfg st l)
  let whole : Rect := ⟨0, 0, f.width, objHeight f⟩
  let r := if rectEmpty k.crop then whole else k.crop
  { kernel := 1, variant := (6 - vtapsOf st k.vbank) / 2, ringDepth := 4
    outW := preSize f.width (r.x1 - r.x0) (k.dst.x1 - k.dst.x0)
    outH := preSize (objHeight f) (r.y1 - r.y0) (k.dst.y1 - k.dst.y0) }

/-- The set a head will have, and the route configuration a layer will have. -/
def planSet (s : State) (h : Nat) : HeadSet := ((headGet s h).pend).getD (headGet s h).act

def planRoute (s : State) (h l : Nat) : Option RouteCfg := (afterOps s (destGet s (layerDest h l))).1

/-- The horizontal downscale of a layer exceeds 8 : 1 (R193, R210). -/
def tooWide (s : State) (st : HeadSet) (l : Nat) (v : RouteCfg) : Bool :=
  let k := layerCfg st l
  let w := if rectEmpty k.crop then (nextFmt s v.source).width else k.crop.x1 - k.crop.x0
  decide (8 * (k.dst.x1 - k.dst.x0) < w)

/-- Layers that may be taken: routed video layers with PRESCALE. -/
def eligible (s : State) (h : Nat) : List (Nat × RouteCfg) :=
  (List.range 4).filterMap (fun l =>
    if (layerCfg (planSet s h) l).prescale then (planRoute s h l).map (fun v => (l, v)) else none)

/-- Plan a layer as taken: its processed source, kept where it had one on the same input, with the
parameters planned now. -/
def takeLayer (had : Tbl Handle) (h l : Nat) (v : RouteCfg) (s : State) : State :=
  let x := headGet s h
  let st := planSet s h
  let prm := preParams s st l v
  let fresh_ : State :=
    let (ph, s1) := makeProc (destOwner s (layerDest h l)) v.source prm
      (derived s (destOwner s (layerDest h l)) v.source) (some (h, l)) s
    headPut h { headGet s1 h with prescale := tset (headGet s1 h).prescale l ph } s1
  match tget had l with
  | some ph =>
    match tget s.procs ph with
    | some p =>
      if p.input = v.source then
        let s1 := headPut h { x with prescale := tset x.prescale l ph } s
        if p.pending.getD p.params = prm then s1 else handProc ph prm 0 0 s1
      else fresh_
    | none => fresh_
  | none => fresh_

/-- The pixel-lines a layer is charged on its head, or on both halves of a pair. -/
def planLines (s : State) (h : Nat) (st : HeadSet) (e : Nat × RouteCfg) : Nat :=
  layerLines s h e.1 false true st e.2 + (if isPair st then layerLines s h e.1 true true st e.2 else 0)

/-- While the pixel-lines exceed the pool, the untaken layer with the largest charge is taken (R210). -/
def planMore (had : Tbl Handle) (h : Nat) : Nat → State → State
  | 0, s => s
  | n + 1, s =>
    let x := headGet s h
    let st := planSet s h
    if fgt (headLines s h) ⟨98304, 1⟩ || (isPair st && fgt (headLines s (h + 1)) ⟨98304, 1⟩) then
      let best := ((eligible s h).filter (fun e => (tget x.prescale e.1).isNone)).foldl
        (fun (b : Option (Nat × RouteCfg)) e => match b with
          | none => some e
          | some y => if planLines s h st y < planLines s h st e then some e else some y)
        none
      match best with
      | none => s
      | some (l, v) => planMore had h n (takeLayer had h l v s)
    else s

/-- Plan pre-scaling for a head (R210). -/
def planHead (h : Nat) (s : State) : State :=
  let had := (headGet s h).prescale ++ (headGet s h).prescaleOk
  let s0 := headPut h { headGet s h with prescale := [] } s
  let s1 := (eligible s0 h).foldl (fun s e => if tooWide s (planSet s h) e.1 e.2 then takeLayer had h e.1 e.2 s else s) s0
  planMore had h 4 s1

end Sys2Proof.Machine
end

