-- ==== Sys2Proof/Machine/Compose.lean ====
section
/-! DEFINITION. Kaleidoscope's pixel path (R194–R206): the pixels of a bound object, the scalers, the layer
matrices, fades and blends, the output matrix, the sink's encoding (R239) and the CRCs (R230). Colour is
carried in sixteenths of a 10-bit code. -/

namespace Sys2Proof.Machine

open Sys2Proof

/-- A sample on the path: three components in sixteenths of a code, in the order a matrix takes them, and
alpha as a fraction. -/
structure Sample where
  c : List Int
  alpha : Frac
  deriving DecidableEq, Repr

/-- The nearest whole number; the manual does not say which way a tie goes. -/
def nearest (num : Int) (den : Nat) : Int :=
  let q := (2 * num + den) / (2 * (den : Int))
  if (2 * num + den) % (2 * (den : Int)) = 0 ∧ Config.roundUp num.natAbs den then q - 1 else q

/-- Clipped to codes 0–1,023. -/
def clip (v : Int) : Int := max 0 (min 16368 v)

/-! ### Pixels of an object (R83, R194, R195) -/

/-- Pixel (x, y) of an object on the path: chroma raised to 4:4:4, 8-bit samples shifted left by 2, and
black beyond a picture smaller than the source. -/
def sourcePixel (o : Obj) (x y : Nat) : Sample :=
  let beyond := decide (o.w ≤ x ∨ o.h ≤ y)
  let o := if beyond then { o with content := .black } else o
  let p := pixelAt o x y
  let k := if o.format = 3 ∨ (o.format = 1 ∧ o.variant = 1) then 64 else 16
  let side := fun (c : Nat × Nat × Nat × Nat → Nat) =>
    if o.format = 1 ∨ x % 2 = 0 then c p * k
    else
      let a := c (pixelAt o (x - 1) y)
      let b := if beyond || decide (x + 1 < o.w) then c (pixelAt o (x + 1) y) else Config.edgeChroma a (x - 1)
      (a + b) * k / 2
  let c0 : Int := (side (fun q => q.1) : Nat)
  let c1 : Int := (p.2.1 * k : Nat)
  let c2 : Int := (side (fun q => q.2.2.1) : Nat)
  { c := if o.colour.matrix = 0 then [c2, c1, c0] else [c1, c0, c2]
    alpha := if o.format = 1 ∧ o.variant = 1 then ⟨p.2.2.2, 255⟩
      else if o.format = 1 ∧ o.variant = 2 then ⟨p.2.2.2, 3⟩ else ⟨1, 1⟩ }

/-- The object has an alpha of its own. -/
def hasAlpha (o : Obj) : Bool := decide (o.format = 1 ∧ (o.variant = 1 ∨ o.variant = 2))

/-! ### Scalers (R205) -/

def coefH (b : Bank) (p k : Nat) : Int := (b.hcoef.getD (8 * p + k) 0).toInt

def coefV (b : Bank) (p k : Nat) : Int := (b.vcoef.getD (6 * p + k) 0).toInt

/-- Taps at a position: the source index, held to the crop, and the coefficient. -/
def taps (pos : Int) (first : Int) (n lo hi : Nat) (coef : Nat → Nat → Int) : List (Nat × Int) :=
  let base := pos / 2 ^ 20
  let phase := ((pos % 2 ^ 20) / 2 ^ 14).toNat
  (List.range n).map (fun (k : Nat) =>
    ((max (lo : Int) (min ((hi : Int) - 1) (base + first + k))).toNat, coef phase k))

/-- The scaled sample at output pixel (x, y) of the destination rectangle. -/
def scaled (hb vb : Bank) (crop dst : Rect) (o : Obj) (x y : Nat) : Sample :=
  let hs := taps (position crop.x0 (crop.x1 - crop.x0) (dst.x1 - dst.x0) (x - dst.x0)) (-3) 8 crop.x0 crop.x1 (coefH hb)
  let v := vb.vtaps
  let vs := taps (position crop.y0 (crop.y1 - crop.y0) (dst.y1 - dst.y0) (y - dst.y0)) (1 - (v / 2 : Nat)) v crop.y0 crop.y1 (coefV vb)
  let cells := vs.flatMap (fun r => hs.map (fun q => (sourcePixel o q.1 r.1, q.2 * r.2)))
  let comp := fun (j : Nat) => clip (nearest ((cells.map (fun e => (e.1.c.getD j 0) * e.2)).sum) (2 ^ 20))
  let den := ((cells.head?).map (fun e => e.1.alpha.den)).getD 1
  let a := (cells.map (fun e => (e.1.alpha.num : Int) * e.2)).sum
  { c := [comp 0, comp 1, comp 2], alpha := ⟨min (max 0 a).toNat (den * 2 ^ 20), den * 2 ^ 20⟩ }

/-! ### Matrices (R202, R203) -/

/-- A preset of Table 8-4, with the nearest coefficients and offsets as the manual's preset 3 shows them; `full` is
AUTO's full-range YCbCr (R203). AUTO and CUSTOM are resolved before. -/
def presetMatrix (n : Nat) (full : Bool) : Matrix :=
  quantised (
    if 2 ≤ n ∧ n ≤ 4 then yuvToRgb (n - 1) full
    else if n = 5 then diagonal (1023 / 876) (-(64 * 1023 / 876))
    else if 6 ≤ n ∧ n ≤ 8 then rgbToYuv (n - 5)
    else if n = 9 then diagonal (876 / 1023) 64
    else diagonal 1 0)

/-- The matrix a selection stands for: AUTO follows the bound object's tag (R203). -/
def selected (st : HeadSet) (target preset : Nat) (k : Colour) : Matrix :=
  if preset = 15 then (tget st.mats target).getD (presetMatrix 1 false)
  else if preset = 0 then
    (if k.matrix = 0 then presetMatrix (if k.full then 1 else 5) false else presetMatrix (k.matrix + 1) k.full)
  else presetMatrix preset false

/-- One row of a matrix on a sample, in sixteenths, over 8,192 × the denominator of the offset's factor. -/
def rowOf (m : Matrix) (j : Nat) (c : List Int) (off : Frac) : Int :=
  let e := fun (i : Nat) => m.getD (4 * j + i) 0
  (e 0 * c.getD 0 0 + e 1 * c.getD 1 0 + e 2 * c.getD 2 0) * off.den + e 3 * 16 * 8192 * off.num

/-- A layer's matrix: with PREMULT each offset is multiplied by the pixel's alpha (R202). -/
def layerMatrix (m : Matrix) (premult : Bool) (p : Sample) : Sample :=
  let off : Frac := if premult then p.alpha else ⟨1, 1⟩
  { p with c := (List.range 3).map (fun j => clip (nearest (rowOf m j p.c off) (8192 * off.den))) }

/-- The output matrix rounds half up to whole codes (R202). -/
def outMatrix (m : Matrix) (c : List Int) : List Nat :=
  (List.range 3).map (fun j =>
    (max 0 (min 1023 ((2 * rowOf m j c ⟨1, 1⟩ + 16 * 8192) / (2 * 16 * 8192)))).toNat)

/-! ### Fades and blends (R178, R198) -/

/-- The mix of a fade: (1 − a) × old + a × new, a = i / (N + 1), colour and alpha; an input that is not
there is transparent. -/
def mixed (old new : Option Sample) (i n : Nat) : Sample :=
  let none_ : Sample := { c := [0, 0, 0], alpha := ⟨0, 1⟩ }
  let p := old.getD none_
  let q := new.getD none_
  { c := (List.range 3).map (fun j => nearest (p.c.getD j 0 * (n + 1 - i : Nat) + q.c.getD j 0 * i) (n + 1))
    alpha := ⟨p.alpha.num * q.alpha.den * (n + 1 - i) + q.alpha.num * p.alpha.den * i, p.alpha.den * q.alpha.den * (n + 1)⟩ }

/-- Table 8-3, one component. -/
def blended (mode g : Nat) (a : Frac) (cs c : Int) : Int :=
  let n := match mode with
    | 0 => (g : Int) * a.den * cs + (1023 * a.den - g * a.num : Int) * c
    | 1 => (g : Int) * a.num * cs + (1023 * a.den - g * a.num : Int) * c
    | _ => ((g : Int) * cs + (1023 - g : Int) * c) * a.den
  clip (nearest n (1023 * a.den))

/-! ### The composite -/

/-- What a head shows of one layer in a frame: the objects of the active and the incoming route, and the
frame of a fade with its length (0 with none). -/
structure Shown where
  old : Option Nat
  new : Option Nat
  i : Nat
  n : Nat
  deriving DecidableEq, Repr

/-- The crop of a layer in an object it shows (R190, R211). The formats are those the object was written in: nothing that
happens while the object is held changes the crop or the plan of a frame that shows it (R200, R222). -/
def cropOf (l : Nat) (st : HeadSet) (o : Obj) : Rect :=
  match o.pre with
  | none => cropOn (layerCfg st l).crop o.fmt
  | some f => preCrop (cropOn (layerCfg st l).crop f) f o.fmt

/-- Sample of one input of a layer at a raster pixel, past its scaler and matrix. -/
def inputSample (s : State) (l : Nat) (st : HeadSet) (id x y : Nat) : Sample :=
  let k := layerCfg st l
  let o := objGet s id
  let r := cropOf l st o
  let p := if l < 4 then scaled (bankGet st k.hbank) (bankGet st k.vbank) r k.dst o x y
    else sourcePixel o (r.x0 + (x - k.dst.x0)) (r.y0 + (y - k.dst.y0))
  layerMatrix (selected st l k.preset o.colour) (decide (k.blend = 0)) p

def inRect (r : Rect) (x y : Nat) : Bool := decide (r.x0 ≤ x ∧ x < r.x1 ∧ r.y0 ≤ y ∧ y < r.y1)

/-- The layers from bottom to top (R196). -/
def orderOf (st : HeadSet) : List Nat := (List.range 8).map (fun i => st.comp.order.toNat / 8 ^ i % 8)

/-- Layer l is hidden from (x, y) on by an underrun in this frame (R232). -/
def turnedOff (off : List (Nat × Nat × Nat)) (l x y : Nat) : Bool :=
  off.any (fun e => decide (e.1 = l ∧ (e.2.1 < y ∨ (e.2.1 = y ∧ e.2.2 ≤ x))))

/-- An output pixel of layer l is visible on a head that shows the columns `win` of the raster: no opaque layer above
covers it (R200, R237). -/
def visible (st : HeadSet) (win : Nat × Nat) (opaq : List Nat) (l x y : Nat) : Bool :=
  decide (win.1 ≤ x ∧ x < win.2) && inRect (layerCfg st l).dst x y
    && ((orderOf st).drop ((orderOf st).idxOf l + 1)).all (fun m => !decide (m ∈ opaq) || !inRect (layerCfg st m).dst x y)

/-- Source pixels an output pixel of a layer reads. -/
def readsOf (st : HeadSet) (l : Nat) (r : Rect) (x y : Nat) : List (Nat × Nat) :=
  let k := layerCfg st l
  if l < 4 then
    let hb := bankGet st k.hbank
    let vb := bankGet st k.vbank
    let hs := taps (position r.x0 (r.x1 - r.x0) (k.dst.x1 - k.dst.x0) (x - k.dst.x0)) (-3) 8 r.x0 r.x1 (coefH hb)
    let vs := taps (position r.y0 (r.y1 - r.y0) (k.dst.y1 - k.dst.y0) (y - k.dst.y0)) (1 - (vb.vtaps / 2 : Nat)) vb.vtaps r.y0 r.y1 (coefV vb)
    vs.flatMap (fun b => hs.map (fun a => (a.1, b.1)))
  else [(r.x0 + (x - k.dst.x0), r.y0 + (y - k.dst.y0))]

/-- A tile of a layer's object is fetched: some visible output pixel reads it (R200). -/
def tileFetched (s : State) (l : Nat) (st : HeadSet) (win : Nat × Nat) (opaq : List Nat) (id tx ty : Nat) : Bool :=
  let k := layerCfg st l
  let o := objGet s id
  let r := cropOf l st o
  (List.range (k.dst.y1 - k.dst.y0)).any (fun j => (List.range (k.dst.x1 - k.dst.x0)).any (fun i =>
    visible st win opaq l (k.dst.x0 + i) (k.dst.y0 + j)
      && (readsOf st l r (k.dst.x0 + i) (k.dst.y0 + j)).any (fun p => decide (p.1 / tileWidth o.format = tx ∧ p.2 / 32 = ty))))

/-- Tiles of a layer's crop that an object's frame takes on a head: those skipped and those fetched (R200, R215,
R237). -/
def tileCounts (s : State) (l : Nat) (st : HeadSet) (odd : Bool) (opaq : List Nat) (id : Nat) : Nat × Nat :=
  let o := objGet s id
  let r := cropOf l st o
  let tw := tileWidth o.format
  let (a, b) := cropSpan st l odd r
  let all := (List.range (cdiv r.y1 32 - r.y0 / 32)).flatMap (fun j =>
    (List.range (cdiv b tw - a / tw)).map (fun i => (a / tw + i, r.y0 / 32 + j)))
  let f := (all.filter (fun t => tileFetched s l st (halfOf st odd) opaq id t.1 t.2)).length
  (all.length - f, f)

/-- A layer whose tiles under a pixel were all fetched can be shown there when an opaque layer above has
been turned off (R201). -/
def fetchedAt (s : State) (l : Nat) (st : HeadSet) (win : Nat × Nat) (opaq : List Nat) (id x y : Nat) : Bool :=
  visible st win opaq l x y
    || (readsOf st l (cropOf l st (objGet s id)) x y).all (fun p =>
      tileFetched s l st win opaq id (p.1 / tileWidth (objGet s id).format) (p.2 / 32))

/-- One layer blended over the composite at a raster pixel; one of which a tile there was not fetched does not show
(R201). The alpha of OPAQUE and of SRC is 1 in Table 8-3 alone (R195). -/
def blendLayer (s : State) (st : HeadSet) (win : Nat × Nat) (opaq : List Nat) (l : Nat) (w : Shown) (x y : Nat) (c : List Int) : List Int :=
  let k := layerCfg st l
  let get := fun (o : Option Nat) => o.map (fun id => inputSample s l st id x y)
  if !(w.old.toList ++ w.new.toList).all (fun id => fetchedAt s l st win opaq id x y) then c
  else match (if w.n = 0 then get w.old else some (mixed (get w.old) (get w.new) w.i w.n)) with
    | none => c
    | some p =>
      let a : Frac := if k.opaqueBit ∨ k.blend = 2 then ⟨1, 1⟩ else p.alpha
      (List.range 3).map (fun j => blended k.blend k.galpha a (p.c.getD j 0) (c.getD j 0))

/-- The composite of a head at a pixel of the columns it shows, past the output matrix. -/
def compose (s : State) (st : HeadSet) (win : Nat × Nat) (opaq : List Nat) (off : List (Nat × Nat × Nat))
    (shown : Nat → Option Shown) (x y : Nat) : List Nat :=
  let b := st.comp.background.toNat
  let c := (orderOf st).foldl (fun c l =>
    match shown l with
    | none => c
    | some w =>
      if (layerCfg st l).enable && inRect (layerCfg st l).dst x y && !turnedOff off l x y
      then blendLayer s st win opaq l w x y c else c)
    [(b / 2 ^ 20 % 1024 * 16 : Nat), (b / 1024 % 1024 * 16 : Nat), (b % 1024 * 16 : Nat)]
  outMatrix (selected st 8 st.comp.outPreset {}) c

/-! ### CRCs (R230) and the sink's encoding (R239) -/

/-- A rectangle clipped to a raster. -/
def clipRect (r : Rect) (w h : Nat) : Rect := ⟨r.x0, r.y0, min r.x1 w, min r.y1 h⟩

/-- CRC-32 over the output pixels of a rectangle, in raster order. -/
def crcRect (pixel : Nat → Nat → List Nat) (r : Rect) : Word :=
  crcWords ((List.range (r.y1 - r.y0)).flatMap (fun j => (List.range (r.x1 - r.x0)).map (fun i =>
    let p := pixel (r.x0 + i) (r.y0 + j)
    pack [(p.getD 0 0, 29, 20), (p.getD 1 0, 19, 10), (p.getD 2 0, 9, 0)])))

/-- A pixel of a line as a sink receives it: 4:2:2 chroma is filtered [1 2 1]/4 and stands at even pixels.
Chroma beyond the line, and the rounding of the filter, are open. -/
def sinkPixel (sampling depth : Nat) (line : Nat → List Nat) (w x : Nat) : List Nat :=
  let p := line x
  if sampling ≠ 2 then p.map (toDepth depth)
  else
    let f := fun (j : Nat) =>
      let at_ := fun (i : Nat) => (line i).getD j 0
      let l := if x = 0 then Config.edgeChroma (at_ 0) 0 else at_ (x - 1)
      let r := if x + 1 < w then at_ (x + 1) else Config.edgeChroma (at_ x) x
      toDepth depth (divOpen (l + 2 * at_ x + r) 4)
    if x % 2 = 0 then [toDepth depth (p.getD 0 0), f 1, f 2] else [toDepth depth (p.getD 0 0)]

end Sys2Proof.Machine
end

