-- ==== Sys2Proof/Machine/LinkPorts.lean ====
section
/-! DEFINITION. Byonda Link ports: blocks and messages (R284, R285, R289), port states and bring-up
(R290–R294), low-power states (R295, R296), PRBS test (R297), and the link-class commands (R300–R303). -/

namespace Sys2Proof.Machine

open Sys2Proof

/-! ### Blocks and messages (R285, R289) -/

/-- PROTOCOL at most once a second for each port (R299). -/
def protocol (p : Nat) (s : State) : State :=
  if (portGet s p).protoSecond = some (second s) then s
  else raise (64 + p) 6 (portMod p (fun x => { x with protoSecond := some (second s) }) s)

/-- A block of the wrong kind or in the wrong place is discarded and counted. -/
def protoError (p : Nat) (s : State) : State :=
  protocol p (portMod p (fun x => { x with protoErrs := sat 0xFFFFFFFF x.protoErrs 1 }) s)

/-- A block for an unconfigured sub-stream or on wrong lanes is dropped (Table 12-7). -/
def dropBlock (p : Nat) (s : State) : State :=
  portMod p (fun x => { x with dropped := sat 0xFFFFFFFF x.dropped 1 }) s

/-- Take a control block on a receive port: a bad header, a bad CRC or an unknown TYPE discards it and
counts it (R284, R285, R362); a port that is powered down takes nothing. -/
def withCtl (p : Nat) (b : CtlBlock) (s : State) (k : Nat → State) : State :=
  let x := portGet s p
  if x.mode = 0 ∨ !isRx p then s
  else if b.header = 0 ∨ b.header = 3 then portMod p (fun x => { x with headerErrs := sat 0xFFFFFFFF x.headerErrs 1 }) s
  else if b.header ≠ 2 ∨ !ctlCrcGood b then
    protocol p (portMod p (fun x => { x with crcErrs := sat 0xFFFFFFFF x.crcErrs 1 }) s)
  else if !knownType (decide (x.mode = 2)) (pb b 0) then
    if x.mode = 2 then protoError p s
    else protocol p (portMod p (fun x => { x with crcErrs := sat 0xFFFFFFFF x.crcErrs 1 }) s)
  else k (pb b 0)

/-- The CRC-8 of a message (R289). -/
def msgCrc (m : BackMsg) : Byte := crc8 (m.type :: BitVec.ofNat 8 m.payload.length :: m.payload)

/-- A message with a good CRC and a legal length. -/
def msgGood (m : BackMsg) : Bool := decide (m.payload.length ≤ 12 ∧ msgCrc m = m.crc)

/-- A back-channel message that a receiving end sends. -/
def sendBack (p type : Nat) (payload : List Byte) (s : State) : State :=
  let m : BackMsg := { type := BitVec.ofNat 8 type, payload := payload }
  send (.back p { m with crc := msgCrc m }) s

/-- Byte i of a message's payload. -/
def mb (m : BackMsg) (i : Nat) : Byte := m.payload.getD i 0

/-- STATUS (Table 12-2), sent on a receive port in every state while it is powered. Whether CK is there while the port
stands in ERROR, the line says. -/
def sendStatus (p : Nat) (s0 : State) : State :=
  let x := portGet s0 p
  if x.mode = 0 ∨ !isRx p then s0
  else
    let s := if x.state = 8 then { s0 with free := s0.free + 1 } else s0
    let ck := decide (1 ≤ x.state ∧ x.state ≤ 6) || (decide (x.state = 8) && decide (Config.freeNat s0.free % 2 = 1))
    let los := decide (x.loss = some 0)
    let lol := decide (x.loss = some 1)
    let lanes := if 2 ≤ x.state ∧ x.state ≤ 6 then x.lanes.toNat else x.locked.toNat
    let desk := decide (4 ≤ x.state ∧ x.state ≤ 6)
    sendBack p 1 [BitVec.ofNat 8 (b1 ck + 2 * lanes + 32 * b1 desk + 64 * b1 los + 128 * b1 lol), BitVec.ofNat 8 x.state] s

/-! ### Capability records (R292, R293) -/

/-- The device's own record for a port (Table 12-5). -/
def ownRecord (x : Port) (p : Nat) : List Word :=
  let role := if x.mode = 2 then 3 else if isRx p then 2 else 1
  let ws : List Word := [
    pack [(1, 7, 0), (role, 15, 8), (0x474C, 31, 16)],
    pack [(15, 3, 0), (15, 7, 4), (1, 8, 8), (1, 9, 9), (0, 10, 10), (1, 11, 11), (1, 12, 12), (1, 13, 13), (1, 14, 14)],
    pack [(4, 3, 0), (7, 6, 4), (7, 10, 8)],
    word 995328,
    pack [(7680, 13, 0), (4320, 29, 16)],
    pack [(0x0FFE, 15, 0), (1, 16, 16)],
    pack [(16, 4, 0), (7, 10, 8)],
    pack [(150, 15, 0)],
    0]
  ws ++ [crcWords ws]

/-- The check of R292 a partner record fails, from 1. -/
def recordFault (x : Port) (p : Nat) (r : List Word) : Option Nat :=
  let n := (lanesOf x).length
  let role := if x.mode = 2 then 3 else if isRx p then 1 else 2
  if wd r 9 ≠ crcWords (r.take 9) ∨ bits (wd r 0) 7 0 ≠ 1 then some 1
  else if bits (wd r 0) 15 8 ≠ role then some 2
  else if !bit (wd r 1) x.rate ∨ (lanesOf x).any (fun l => !bit (wd r 1) (4 + l)) then some 3
  else if bits (wd r 2) 3 0 = 0 ∨ n < bits (wd r 2) 3 0 then some 4
  else if bits (wd r 4) 13 0 < 64 ∨ 7680 < bits (wd r 4) 13 0 ∨ bits (wd r 4) 29 16 < 64 ∨ 4320 < bits (wd r 4) 29 16 then some 5
  else if bit (wd r 1) 10 ∧ bits (wd r 0) 15 8 = 1 then some 6
  else none

/-- Pixel rate of a head in pix/s, as a fraction, and for a pair of one of its halves (R219, R220, R235). -/
def headRate (st : HeadSet) : Frac :=
  ⟨st.mode.timing.htotal * st.mode.timing.vtotal * rate1001 st.mode.rate, 1001 * (if isPair st then 2 else 1)⟩

/-- Active width of a head's raster: half the pair's (R235). -/
def headWidth (st : HeadSet) : Nat := st.mode.timing.hactive / (if isPair st then 2 else 1)

/-- A partner record excludes a head's raster at a sampling and depth (R293). -/
def recordExcludes (r : List Word) (st : HeadSet) (sampling depth : Nat) : Bool :=
  !bit (wd r 2) (4 + sampling) || !bit (wd r 2) (8 + depth) || !bit (wd r 5) st.mode.rate
    || decide (bits (wd r 4) 13 0 < headWidth st ∨ bits (wd r 4) 29 16 < st.mode.timing.vactive)
    || fgt (headRate st) ⟨(wd r 3).toNat * 1000, 1⟩

/-- Sinks bound to a port by the sets in force: head, set, sub-stream, lanes code, sampling, depth. -/
def sinksOn (s : State) (p : Nat) : List (Nat × HeadSet × Nat × Nat × Nat × Nat) :=
  s.heads.filterMap (fun e => match e.2.act.sink with
    | .link q sub lanes samp depth => if q = p then some (e.1, e.2.act, sub, lanes, samp, depth) else none
    | _ => none)

/-! ### Port states (R290, R291, R294) -/

/-- SET_DOMINO names the pair in a ring (R300). -/
def inRing (s : State) (p : Nat) : Bool :=
  (List.range 4).any (fun r => s.domino.rings.getLsbD r && decide (s.domino.count ≠ 0 ∧ s.domino.rxPorts.getD r 0 = p % 16))

/-- Heads feed a port no longer: they feed it again from their next line 0 (R294). -/
def dropFeeds (p : Nat) (s : State) : State :=
  { s with heads := tall s.heads (fun _ x => match x.feeding with
    | .link q _ _ _ _ => if q = p then { x with feeding := .none } else x
    | _ => x) }

/-- A transmit port drives CK in a state: in all while it is powered, but not in LOW2; of ERROR Table 12-3 says nothing, and
CK stays as it is (DESIGN CHOICE, log entry 148). -/
def ckNow (x : Port) (p st : Nat) : Bool :=
  !isRx p && decide (x.mode ≠ 0 ∧ st ≠ 7) && (decide (st ≠ 8) || x.ck)

/-- A port takes a state; a record lapses in DETECT and ERROR (R292), and a ring port that leaves ACTIVE
raises RING_DOWN. -/
def placePort (p st : Nat) (s0 : State) : State :=
  let x := portGet s0 p
  let s := if x.state = 5 ∧ st ≠ 5 then dropFeeds p s0 else s0
  let lapse := decide (st = 0 ∨ st = 8)
  let s1 := portPut p { x with
    state := st, since := now s
    locked := if st = 0 ∨ st = 1 ∨ st = 8 then 0 else x.locked
    alignSeen := 0, frags := [], ownSent := false, lpRequest := 0
    phase := if st = 2 then [] else x.phase, phaseUsed := if st = 2 then 0 else x.phaseUsed
    record := if lapse then none else x.record
    skipCaps := if lapse then false else x.skipCaps
    lowExit := if st = 0 ∨ st = 5 ∨ st = 8 then none else x.lowExit
    loss := if st = 0 ∨ st = 8 then x.loss else none
    ck := ckNow x p st } s
  let s2 := if ckNow x p st ≠ x.ck then send (.ck p (ckNow x p st)) s1 else s1
  if x.state = 5 ∧ st ≠ 5 ∧ inRing s p then raise 240 3 s2 else s2

/-- What a transmit port sends on entering a state of bring-up (Table 12-3): TRAIN with the lane and the RATE on each
lane, then IDLE; each stands for the run of such blocks that the state sends. -/
def bringUpBlocks (p st : Nat) (s : State) : State :=
  let x := portGet s p
  if isRx p ∨ x.mode = 0 ∨ x.test then s
  else if st = 1 then (lanesOf x).foldl (fun s l =>
    sendLane p l ([0x2D, 0, BitVec.ofNat 8 l, BitVec.ofNat 8 x.rate] ++ List.replicate 10 0x5A) s) s
  else if st = 2 ∨ st = 3 then sendCtl p [0x1E] s
  else s

/-- Change a port's state: LINK_STATE to the port's owner (R291), and STATUS (R289). -/
def setPort (p st cause : Nat) (s : State) : State :=
  let s1 := placePort p st s
  if (portGet s p).state = st then s1
  else bringUpBlocks p st (sendStatus p (postNtf (holder s 1 p) 0x0B01 [word p, word st, word cause] s1))

/-- Enter ERROR, recording the cause; the notification is posted by the caller where it must wait (R88). -/
def countFailure (p cause : Nat) (s : State) : State :=
  portMod p (fun x => { x with
    attempts := sat 65535 x.attempts 1, failures := sat 65535 x.failures 1
    lastFailState := x.state, lastCause := cause }) s

def portError (p cause : Nat) (s : State) : State := setPort p 8 cause (countFailure p cause s)

/-- Sinks bound to an ACTIVE transmit port are held against its record (R293): those of a head that has just latched, or
of all. -/
def holdSinks (p : Nat) (which : Nat → Bool) (s : State) : State :=
  match (portGet s p).record with
  | some r =>
    if !isRx p && decide ((portGet s p).state = 5)
      && (sinksOn s p).any (fun e => which e.1 && recordExcludes r e.2.1 e.2.2.2.2.1 e.2.2.2.2.2)
    then raise (64 + p) 5 (portMod p (fun y => { y with mismatch := true }) s) else s
  | none => s

/-- The port becomes ACTIVE (R290); LINK_UP is raised. Its bound sinks are held against the record (R293). -/
def portActive (p : Nat) (s : State) : State :=
  let s1 := raise (64 + p) 2 (setPort p 5 12 s)
  holdSinks p (fun _ => true) (portMod p (fun y => { y with skipCaps := false, idleSince := now s }) s1)

/-- The end of DESKEW: CAPS with the port's own record sent, or ACTIVE where CAPS is passed by (R290, R294, R295). -/
def afterDeskew (p : Nat) (s : State) : State :=
  let x := portGet s p
  -- the skew between the lanes is measured (R282, R303)
  let s := if isRx p then portMod p (fun y => { y with skewNs := Config.freeNat s.free }) { s with free := s.free + 1 } else s
  if x.skipCaps ∧ x.record.isSome then portActive p s
  else
    let r := bytesOf (ownRecord x p)
    (List.range 4).foldl (fun s i =>
      let part := (r.drop (10 * i)).take 10
      if isRx p then sendBack p 2 (BitVec.ofNat 8 i :: part) s
      else sendCtl p ([0x4B, 0, BitVec.ofNat 8 i, 0] ++ part) s) (setPort p 4 12 s)

/-- Both records are in and accepted (R290). -/
def capsDone (p : Nat) (s : State) : State :=
  let x := portGet s p
  if x.state = 4 ∧ x.record.isSome ∧ (isRx p ∨ x.ownSent) then portActive p s else s

/-- A fragment of the partner's record (R292). -/
def capsFragment (p i : Nat) (bs : List Byte) (s : State) : State :=
  let x := portGet s p
  if x.mode = 0 ∨ x.test then s
  else if 4 < x.state then protoError p s
  else if x.state ≠ 4 ∨ 3 < i ∨ bs.length ≠ 10 then s
  else
    let f := tset x.frags i bs
    let s1 := portPut p { x with frags := f } s
    if f.length < 4 then s1
    else
      let r := wordsOf (f.flatMap (fun e => e.2))
      match recordFault x p r with
      | none => capsDone p (portMod p (fun x => { x with record := some r, frags := [] }) s1)
      | some n =>
        portError p 4 (postNtf (evOwner s (64 + p)) 0x0B02 [word p, word n, wd r 0, wd r 1] (raise (64 + p) 4 s1))

/-- A port is powered and not under test: bring-up runs. -/
def bringsUp (x : Port) : Bool := decide (x.mode ≠ 0) && !x.test

/-! ### Bring-up events -/

/-- CK within tolerance, in DETECT or while a receive port is in LOW2 (R290, R295). -/
def execLinkCkDetected (port : Fin 32) (s : State) : Host.Outcome State Fault Refusal :=
  let p := port.val
  let x := portGet s p
  if !bringsUp x ∨ !isRx p then .next s
  else if x.state = 0 then .next (setPort p 1 12 s)
  else if x.state = 7 then .next (portMod p (fun y => { y with skipCaps := true, lowExit := some (now s) }) (setPort p 1 12 s))
  else .next s

/-- TRAIN on the lanes: block lock on every powered lane takes a receive port to LOCK (R290). -/
def execTrainBlock (port : Fin 32) (b : CtlBlock) (locked : BitVec 4) (s : State) : Host.Outcome State Fault Refusal :=
  .next (withCtl port.val b s fun t =>
    let x := portGet s port.val
    if t ≠ 0x2D ∨ !bringsUp x ∨ x.state ≠ 1 then s
    else
      let s1 := sendStatus port.val (portPut port.val { x with locked := locked &&& x.lanes } s)
      if locked &&& x.lanes = x.lanes then setPort port.val 2 12 s1 else s1)

/-- Lock held for 4,096 blocks (R290). -/
def execLinkLockHeld (port : Fin 32) (s : State) : Host.Outcome State Fault Refusal :=
  let x := portGet s port.val
  if bringsUp x ∧ x.state = 2 then .next (setPort port.val 3 12 s) else .next s

/-- ALIGN (R285, R290, R295): in DESKEW two in a row that agree end it; in LOW1 it is the exit. -/
def execAlignBlock (port : Fin 32) (b : CtlBlock) (agree : Bool) (s : State) : Host.Outcome State Fault Refusal :=
  let p := port.val
  .next (withCtl p b s fun t =>
    let x := portGet s p
    if t ≠ 0x33 ∨ !bringsUp x then s
    else if x.state = 6 then setPort p 5 12 s
    else if x.state ≠ 3 then s
    else if !agree then portPut p { x with alignSeen := 0 } s
    else if x.alignSeen = 0 then portPut p { x with alignSeen := 1 } s
    else afterDeskew p s)

/-- ALIGN with the next count on a lane (R285). -/
def sendAlign (p lane : Nat) (s : State) : State :=
  let x := portGet s p
  let n := ((tget x.alignCount lane).getD 0 + 1) % 2 ^ 32
  sendLane p lane ([0x33, 0, BitVec.ofNat 8 lane] ++ leBytes n 4)
    (portPut p { x with alignCount := tset x.alignCount lane n } s)

/-- The device sends ALIGN on a powered lane of a transmit port (R285). -/
def execAlignInterval (port : Fin 32) (lane : Fin 4) (s : State) : Host.Outcome State Fault Refusal :=
  let p := port.val
  let x := portGet s p
  if isRx p ∨ !bringsUp x ∨ x.state < 2 ∨ 5 < x.state ∨ !x.lanes.getLsbD lane.val then .next s
  else .next (sendAlign p lane.val s)

def execCapsBlock (port : Fin 32) (b : CtlBlock) (s : State) : Host.Outcome State Fault Refusal :=
  .next (withCtl port.val b s fun t =>
    if t ≠ 0x4B then s
    else capsFragment port.val (pb b 2) (((payloadBytes b).drop 4).take 10) s)

/-- A valid message arrives on a transmit port's back channel (R289). -/
def withMsg (p : Nat) (m : BackMsg) (s : State) (k : State → State) : State :=
  let x := portGet s p
  if x.mode = 0 ∨ isRx p ∨ !msgGood m then s
  else k (portPut p { x with backValid := true, lastBack := now s } s)

def execCapsMessage (port : Fin 32) (m : BackMsg) (s : State) : Host.Outcome State Fault Refusal :=
  .next (withMsg port.val m s fun s1 =>
    if m.type ≠ 2 ∨ m.payload.length ≠ 11 then s1
    else capsFragment port.val (mb m 0).toNat (m.payload.drop 1) s1)

/-- STATUS on a transmit port (R290, R294): it moves bring-up on, or tells of loss. -/
def execStatusMessage (port : Fin 32) (m : BackMsg) (s : State) : Host.Outcome State Fault Refusal :=
  let p := port.val
  .next (withMsg p m s fun s1 =>
    let x := portGet s1 p
    let b := mb m 0
    if m.type ≠ 1 ∨ m.payload.length ≠ 2 ∨ !bringsUp x then s1
    else if (b.getLsbD 6 ∨ b.getLsbD 7) ∧ 2 ≤ x.state ∧ x.state ≤ 5 then
      portMod p (fun y => { y with skipCaps := y.record.isSome }) (setPort p 1 9 (raise (64 + p) 9 s1))
    else match x.state with
      | 0 => if b.getLsbD 0 then setPort p 1 12 s1 else s1
      | 1 =>
        let l : BitVec 4 := b.extractLsb' 1 4 &&& x.lanes
        let s2 := portPut p { x with locked := l } s1
        if l = x.lanes then setPort p 2 12 s2 else s2
      | 3 => if b.getLsbD 5 then afterDeskew p s1 else s1
      | 4 => if mb m 1 = 5 then capsDone p (portPut p { x with ownSent := true } s1) else s1
      | _ => s1)

/-- STATUS every 100 µs (R289). -/
def execStatusPeriod (port : Fin 32) (s : State) : Host.Outcome State Fault Refusal :=
  .next (sendStatus port.val s)

/-- No valid back-channel message for 1 ms on a transmit port (R289). -/
def execBackLost (port : Fin 32) (s : State) : Host.Outcome State Fault Refusal :=
  let x := portGet s port.val
  if isRx port.val ∨ x.mode = 0 ∨ now s < x.lastBack + 1000 then .next s
  else .next (raise (64 + port.val) 7 (portPut port.val { x with backValid := false, lastBack := now s } s))

/-- Time in µs a bring-up state may take (Table 12-3). -/
def stateLimit (st : Nat) : Option Nat :=
  match st with
  | 1 => some 2000
  | 2 => some 1000
  | 3 => some 1000
  | 4 => some 10000
  | _ => none

/-- The longest exit from LOW2: 150 µs, or the partner's own figure (R295). -/
def exitLimit (x : Port) : Nat := max 150 ((x.record.map (fun r => bits (wd r 7) 15 0)).getD 0)

/-- A bring-up state, or an exit from LOW2, has taken too long (R291, R295). -/
def portLate (s : State) (x : Port) : Bool :=
  (match stateLimit x.state with
    | some n => decide (x.since + n ≤ now s)
    | none => false)
  || (match x.lowExit with
    | some t => decide (t + exitLimit x ≤ now s)
    | none => false)

def execLinkStateTimeout (port : Fin 32) (s : State) : Host.Outcome State Fault Refusal :=
  let x := portGet s port.val
  if bringsUp x ∧ portLate s x = true then .next (portError port.val 11 (raise (64 + port.val) 11 s)) else .next s

/-- After 1 ms in ERROR (R291). -/
def execLinkErrorHold (port : Fin 32) (s : State) : Host.Outcome State Fault Refusal :=
  let p := port.val
  let x := portGet s p
  if x.mode = 0 ∨ x.state ≠ 8 ∨ now s < x.since + 1000 then .next s
  else if x.retry = 15 ∨ x.attempts < x.retry then .next (setPort p 0 12 s)
  else .next (raise (64 + p) 3 s)

/-- After 10 s in ACTIVE the attempt count returns to 0 (R291). -/
def execLinkActiveHold (port : Fin 32) (s : State) : Host.Outcome State Fault Refusal :=
  let x := portGet s port.val
  if x.state = 5 ∧ x.mode ≠ 0 ∧ x.since + 10000000 ≤ now s then .next (portPut port.val { x with attempts := 0 } s)
  else .next s

/-! ### Low-power states (R295, R296) -/

/-- A transmit port asks for LOW1 or LOW2 with an LP block. -/
def requestLow (p target : Nat) (s : State) : State :=
  let x := portGet s p
  let allowed := if target = 1 then x.allowLow1 else x.allowLow2
  if isRx p ∨ x.state ≠ 5 ∨ x.mode ≠ 1 ∨ !allowed ∨ x.lpRequest ≠ 0 then s
  else sendCtl p [0xA5, 0, BitVec.ofNat 8 target] (portPut p { x with lpRequest := target } s)

/-- A transmit port leaves LOW1 with ALIGN, and LOW2 with a restart of CK (R295). -/
def wakePort (p : Nat) (s : State) : State :=
  let x := portGet s p
  if isRx p then s
  else if x.state = 6 then setPort p 5 12 ((lanesOf x).foldl (fun s l => sendAlign p l s) s)
  else if x.state = 7 then portMod p (fun y => { y with skipCaps := true, lowExit := some (now s) }) (setPort p 1 12 s)
  else s

/-- An LP block on a receive port: inside a frame it is an error; else it is answered. -/
def execLpBlock (port : Fin 32) (b : CtlBlock) (s : State) : Host.Outcome State Fault Refusal :=
  let p := port.val
  .next (withCtl p b s fun t =>
    let x := portGet s p
    let n := pb b 2
    if t ≠ 0xA5 ∨ x.state ≠ 5 then s
    else if x.subs.any (fun e => e.2.inFrame) then protoError p s
    else
      let both := match x.record with
        | some r => (decide (n = 1) && bit (wd r 1) 8) || (decide (n = 2) && bit (wd r 1) 9)
        | none => false
      let allowed := (decide (n = 1) && x.allowLow1) || (decide (n = 2) && x.allowLow2)
      if both && allowed then
        setPort p (5 + n) 12 (sendBack p 3 [BitVec.ofNat 8 n] (portPut p { x with
          low1Entries := sat 0xFFFFFFFF x.low1Entries (b1 (decide (n = 1)))
          low2Entries := sat 0xFFFFFFFF x.low2Entries (b1 (decide (n = 2))) } s))
      else sendBack p 4 [BitVec.ofNat 8 n] s)

/-- A head that runs and is bound to the port. -/
def runningOn (s : State) (p : Nat) : Bool :=
  (sinksOn s p).any (fun e => decide ((headGet s e.1).state = 2 ∨ (headGet s e.1).state = 3))

/-- The heads bound to a port are all in SELF_REFRESH (R296). -/
def allRefresh (s : State) (p : Nat) : Bool :=
  let l := (sinksOn s p).filter (fun e => decide ((headGet s e.1).state ≠ 0))
  !l.isEmpty && l.all (fun e => decide ((headGet s e.1).state = 3))

/-- A low-power state that has been acknowledged is still wanted; where a head has come to need the port since the
request, the port leaves it again (R295, R296). -/
def stillWanted (s : State) (p n : Nat) : Bool := !runningOn s p || (decide (n = 1) && allRefresh s p)

def execLpAck (port : Fin 32) (m : BackMsg) (s : State) : Host.Outcome State Fault Refusal :=
  let p := port.val
  .next (withMsg p m s fun s1 =>
    let x := portGet s1 p
    let n := (mb m 0).toNat
    if m.type ≠ 3 ∨ m.payload.length ≠ 1 ∨ x.state ≠ 5 ∨ x.lpRequest = 0 ∨ x.lpRequest ≠ n then s1
    else
      let s2 := setPort p (5 + n) 12 (portPut p { x with
        low1Entries := sat 0xFFFFFFFF x.low1Entries (b1 (decide (n = 1)))
        low2Entries := sat 0xFFFFFFFF x.low2Entries (b1 (decide (n = 2))) } s1)
      if stillWanted s2 p n then s2 else wakePort p s2)

def execLpNak (port : Fin 32) (m : BackMsg) (s : State) : Host.Outcome State Fault Refusal :=
  .next (withMsg port.val m s fun s1 =>
    if m.type ≠ 4 then s1 else portMod port.val (fun x => { x with lpRequest := 0 }) s1)

/-- No running head has been bound for LOW2_IDLE ms (R296). -/
def execLow2IdleExpiry (port : Fin 32) (s : State) : Host.Outcome State Fault Refusal :=
  let x := portGet s port.val
  if x.low2Idle = 0 ∨ runningOn s port.val = true ∨ now s < x.idleSince + x.low2Idle * 1000 then .next s
  else .next (requestLow port.val 2 s)

/-! ### PRBS test (R297) -/

/-- The recurrence of a pattern: the degree and the other tap of its polynomial. -/
def prbsTaps (pattern : Nat) : Nat × Nat := if pattern = 0 then (7, 6) else if pattern = 1 then (15, 14) else (31, 28)

/-- The next n bits of a generator with taps a and b, and its register after them. -/
def prbsBits (a b : Nat) : Nat → Nat → List Bool × Nat
  | 0, r => ([], r)
  | n + 1, r =>
    let x := tb r (a - 1) != tb r (b - 1)
    let (l, q) := prbsBits a b n ((2 * r + b1 x) % 2 ^ a)
    (x :: l, q)

/-- Bit i since the last SET_LINK_TEST is inverted on a lane: the first with SINGLE, the first BURST_LEN with BURST, one in
every 10^RATE_EXP with RATE. -/
def injected (x : Port) (p l i : Nat) : Bool :=
  match x.inject with
  | 1 => decide (i = 0)
  | 2 => decide (i < x.burstLen)
  | 3 => decide (i % 10 ^ x.rateExp = Config.prbsOffset p l % 10 ^ x.rateExp)
  | _ => false

/-- Bits that a lane carries in a microsecond. -/
def laneBits (x : Port) : Nat := 3200 * 2 ^ x.rate

/-- A microsecond of a transmit lane under test. -/
def prbsSend (p l : Nat) (s : State) : State :=
  let x := portGet s p
  let (a, b) := prbsTaps x.pattern
  let r := (tget x.prbsReg l).getD (1 + Config.prbsSeed p l % (2 ^ a - 1))
  let (bits, r1) := prbsBits a b (laneBits x) r
  send (.prbs p l ((List.range bits.length).map (fun i => bits.getD i false != injected x p l (x.prbsSent + i))))
    (portPut p { x with prbsReg := tset x.prbsReg l r1 } s)

/-- A microsecond of a receive lane whose checker is in sync: errored bits and bits checked are counted, and an error is
raised. -/
def prbsCheck (p l : Nat) (s : State) : State :=
  let x := portGet s p
  let n := Config.prbsErrors p l (now s) % (laneBits x + 1)
  raiseIf (decide (n ≠ 0)) (64 + p) 8 (portPut p { x with
    prbsErrs := tset x.prbsErrs l (sat 0xFFFFFFFF ((tget x.prbsErrs l).getD 0) n), bitsChecked := x.bitsChecked + laneBits x } s)

/-- A microsecond of every port under test. -/
def prbsTick (s : State) : State :=
  (s.ports.filter (fun e => e.2.test)).foldl (fun s e =>
    let l := fun (m : BitVec 4) => (List.range 4).filter (fun k => m.getLsbD k)
    if isRx e.1 then (l e.2.prbsSync).foldl (fun s k => prbsCheck e.1 k s) s
    else portMod e.1 (fun x => { x with prbsSent := x.prbsSent + laneBits x })
      ((l e.2.testLanes).foldl (fun s k => prbsSend e.1 k s) s)) s

def execPrbsSync (port : Fin 32) (lane : Fin 4) (s : State) : Host.Outcome State Fault Refusal :=
  let x := portGet s port.val
  if x.test ∧ isRx port.val = true ∧ x.testLanes.getLsbD lane.val = true then
    .next (portPut port.val { x with prbsSync := x.prbsSync ||| BitVec.ofNat 4 (2 ^ lane.val) } s)
  else .next s

/-- The checker drops sync, when more than 128 errors have fallen within 1,024 bits; `errors` and `blocks` (of 1,024 bits)
are what it has counted since the last microsecond that has passed. -/
def execPrbsSyncLost (port : Fin 32) (lane : Fin 4) (errors blocks : BitVec 32) (s : State) :
    Host.Outcome State Fault Refusal :=
  let p := port.val
  let x := portGet s p
  if x.test ∧ isRx p = true ∧ x.prbsSync.getLsbD lane.val = true ∧ 128 < errors.toNat then
    .next (raise (64 + p) 8 (portPut p { x with
      prbsErrs := tset x.prbsErrs lane.val (sat 0xFFFFFFFF ((tget x.prbsErrs lane.val).getD 0) errors.toNat)
      bitsChecked := x.bitsChecked + blocks.toNat * 1024
      resyncs := sat 65535 x.resyncs 1
      prbsSync := x.prbsSync &&& ~~~ BitVec.ofNat 4 (2 ^ lane.val) } s))
  else .next s

/-! ### Commands (R297, R300, R302, R303) -/

/-- A port of the issuer's quota 2, or P0's. -/
def withPort (c : Ctx) (s : State) (k : Nat → CmdOut) : CmdOut :=
  let p := bf c 0 4 0
  if c.page ≠ 0 ∧ holder s 1 p ≠ c.page then refuse .notOwner else k p

/-- A stream, sink or audio input is bound to the port (R297, R302). -/
def portBound (s : State) (p : Nat) : Bool :=
  s.sources.any (fun e => !e.2.deleted && (match e.2.kind with
    | .link q _ _ => decide (q = p)
    | _ => false))
  || s.heads.any (fun e => ([some e.2.act, e.2.pend].filterMap id).any (fun st => match st.sink with
    | .link q _ _ _ _ => decide (q = p)
    | _ => false))

/-- The other port of a Domino pair (R300). -/
def pairOf (p : Nat) : Nat := if p < 16 then p + 16 else p - 16

/-- Give a port its fields; a change of MODE, RATE or LANES restarts it (R302). -/
def configure (p mode rate : Nat) (lanes : BitVec 4) (w0 w1 : Word) (s : State) : State :=
  let x := portGet s p
  let y := { x with
    mode := mode, rate := rate, lanes := lanes, retry := bits w0 19 16, low2Idle := bits w1 15 0
    allowLow1 := bit w1 16, allowLow2 := bit w1 17 }
  if x.mode = mode ∧ x.rate = rate ∧ x.lanes = lanes then portPut p y s
  else setPort p 0 13 (portPut p { y with
    test := false, backValid := false, lastBack := now s, idleSince := now s, subs := [], loss := none } s)

/-- A port goes to MODE OFF and keeps its other fields. -/
def portOff (p : Nat) (s : State) : State := setPort p 0 13 (portMod p (fun x => { x with mode := 0, test := false, backValid := false, subs := [] }) s)

def cmdSetLinkPort (c : Ctx) (s : State) : CmdOut :=
  let p := bf c 0 4 0
  let q := pairOf p
  let mode := bf c 0 6 5
  let rate := bf c 0 9 8
  let lanes : BitVec 4 := (bw c 0).extractLsb' 12 4
  let x := portGet s p
  let both := decide (mode = 2 ∨ x.mode = 2)
  if c.page ≠ 0 ∧ (holder s 1 p ≠ c.page ∨ (both = true ∧ holder s 1 q ≠ c.page)) then refuse .notOwner
  else if mode = 3 ∨ (mode ≠ 0 ∧ lanes = 0) then refuse .range
  else if x.mode = 2 ∧ mode ≠ 2 ∧ inRing s p then refuse .state
  else if mode = 2 ∧ (portBound s p ∨ portBound s q) then refuse .state
  else if (x.mode ≠ mode ∨ x.rate ≠ rate ∨ x.lanes ≠ lanes) ∧ portBound s p then refuse .state
  else
    let s1 := configure p mode rate lanes (bw c 0) (bw c 1) s
    let s2 := if mode = 2 then configure q mode rate lanes (bw c 0) (bw c 1) s1
      else if x.mode = 2 then portOff q s1 else s1
    -- the events of a port that enters or leaves Domino mode change owner (R374)
    .done .ok [] (if decide (mode = 2) = decide (x.mode = 2) then s2 else changeOwner (64 + q) (changeOwner (64 + p) s2))

def cmdRetrain (c : Ctx) (s : State) : CmdOut :=
  withPort c s fun p =>
    let x := portGet s p
    if x.mode = 0 ∨ x.test then refuse .state
    else .done .ok [] (setPort p 0 13 (portPut p { x with attempts := 0 } s))

def cmdGetLinkStatus (c : Ctx) (s : State) : CmdOut :=
  withPort c s fun p =>
    let x := portGet s p
    let page := bf c 0 9 8
    let n := fun (l : Nat) => word ((tget x.prbsErrs l).getD 0)
    if page = 3 then refuse .range
    else
      let res := if page = 0 then [
          pack [(x.state, 3, 0), (x.locked.toNat, 7, 4), (b1 x.record.isSome, 8, 8), (b1 x.backValid, 9, 9),
            (b1 x.test, 10, 10), (b1 (decide (x.mode ≠ 0)), 11, 11)],
          pack [(x.attempts, 15, 0), (x.failures, 31, 16)], pack [(x.los, 15, 0), (x.lol, 31, 16)],
          pack [(x.lastFailState, 3, 0), (x.lastCause, 15, 8)], word x.skewNs, word x.low2Missed]
        else if page = 1 then [word x.headerErrs, word x.crcErrs, word x.protoErrs, word x.dropped,
          word x.low1Entries, word x.low2Entries]
        else [n 0, n 1, n 2, n 3, pack [(x.prbsSync.toNat, 3, 0), (x.resyncs, 31, 16)], word (sat 0xFFFFFFFF (x.bitsChecked / 2 ^ 20) 0)]
      let y := if page = 0 then { x with failures := 0, los := 0, lol := 0, low2Missed := 0 }
        else if page = 1 then { x with headerErrs := 0, crcErrs := 0, protoErrs := 0, dropped := 0, low1Entries := 0, low2Entries := 0 }
        else { x with prbsErrs := [], resyncs := 0, bitsChecked := 0 }
      .done .ok res (if bb c 1 0 then portPut p y s else s)

def cmdSetLinkTest (c : Ctx) (s : State) : CmdOut :=
  withPort c s fun p =>
    let x := portGet s p
    let lanes : BitVec 4 := (bw c 0).extractLsb' 8 4
    let inj := bf c 0 13 12
    let burst := bf c 1 7 0
    let exp := bf c 1 11 8
    if bf c 0 7 6 = 3 ∨ lanes &&& ~~~ x.lanes ≠ 0 ∨ (isRx p ∧ inj ≠ 0) ∨ (inj = 2 ∧ burst = 0) ∨ (inj ≠ 2 ∧ burst ≠ 0)
      ∨ (inj = 3 ∧ (exp < 3 ∨ 12 < exp)) ∨ (inj ≠ 3 ∧ exp ≠ 0) then refuse .range
    else if x.mode = 0 ∨ portBound s p then refuse .state
    else if bb c 0 5 then
      let s1 := setPort p 1 13 (portPut p { x with
        test := true, pattern := bf c 0 7 6, testLanes := lanes, inject := inj
        burstLen := burst, rateExp := exp, prbsSync := 0, prbsSent := 0
        prbsReg := if x.test ∧ x.pattern = bf c 0 7 6 then x.prbsReg else [] } s)
      .done .ok [] s1
    else if x.test then
      .done .ok [] (setPort p 0 13 (portPut p { x with test := false, inject := 0, testLanes := 0, prbsSync := 0, prbsReg := [] } s))
    else .done .ok [] s

def cmdGetLinkCaps (c : Ctx) (s : State) : CmdOut :=
  withPort c s fun p =>
    let x := portGet s p
    let pick := fun (r : List Word) => if bb c 0 8 then (r.drop 6).take 4 else r.take 6
    if bb c 0 9 then .done .ok (pick (ownRecord x p)) s
    else match x.record with
      | some r => .done .ok (pick r) s
      | none => refuse .state

def specSetLinkPort : OpSpec :=
  { op := 0x0B00, maxLen := 8, rsv := within [field 6 0 ||| field 9 8 ||| field 19 12, field 17 0], log := always
    named := fun _ _ => 0, run := cmdSetLinkPort }

def specRetrain : OpSpec := { op := 0x0B01, maxLen := 4, rsv := within [field 4 0], log := always, run := cmdRetrain }

def specGetLinkStatus : OpSpec :=
  { op := 0x0B02, maxLen := 8, rsv := within [field 4 0 ||| field 9 8, 1], log := fun b => bit (wd b 1) 0, run := cmdGetLinkStatus }

def specSetLinkTest : OpSpec :=
  { op := 0x0B03, maxLen := 8, rsv := within [field 13 0, field 11 0], log := always, run := cmdSetLinkTest }

def specGetLinkCaps : OpSpec := { op := 0x0B04, maxLen := 4, rsv := within [field 4 0 ||| field 9 8], run := cmdGetLinkCaps }

def execSetLinkPort (page : Fin 16) (d : Desc) (s : State) : Host.Outcome State Fault Refusal :=
  if d.Wf then .next (issue specSetLinkPort page d s) else .fault .illFormed

def execRetrain (page : Fin 16) (d : Desc) (s : State) : Host.Outcome State Fault Refusal :=
  if d.Wf then .next (issue specRetrain page d s) else .fault .illFormed

def execGetLinkStatus (page : Fin 16) (d : Desc) (s : State) : Host.Outcome State Fault Refusal :=
  if d.Wf then .next (issue specGetLinkStatus page d s) else .fault .illFormed

def execSetLinkTest (page : Fin 16) (d : Desc) (s : State) : Host.Outcome State Fault Refusal :=
  if d.Wf then .next (issue specSetLinkTest page d s) else .fault .illFormed

def execGetLinkCaps (page : Fin 16) (d : Desc) (s : State) : Host.Outcome State Fault Refusal :=
  if d.Wf then .next (issue specGetLinkCaps page d s) else .fault .illFormed

end Sys2Proof.Machine
end

