-- ==== Sys2Proof/Machine/Egress.lean ====
section
/-! DEFINITION. What Ethernet ports send: addresses and next hops (R304, R309), the active port of a pair
(R314), and the frames and ancillary packets of transmit flows (R311, R312). -/

namespace Sys2Proof.Machine

open Sys2Proof

def setEth (e : Ethernet) (s : State) : State := { s with eth := e }

/-- A port, or with its number a sub-port in breakout. -/
def ethKey (port sub : Nat) : Nat := port + 8 * sub

def ethGet (s : State) (k : Nat) : EthPort := (tget s.eth.ports k).getD {}

def ethMod (k : Nat) (f : EthPort → EthPort) (s : State) : State :=
  setEth { s.eth with ports := tset s.eth.ports k (f (ethGet s k)) } s

/-- A port runs, and with a sub-port above 0 it runs in breakout; its mode is held with the port itself. -/
def ethRuns (s : State) (k : Nat) : Bool :=
  decide ((ethGet s (k % 8)).mode ≠ 0) && (decide (k < 8) || (ethGet s (k % 8)).breakout)

/-- The PCS link of a port or sub-port is up. -/
def ethUp (s : State) (k : Nat) : Bool := (ethGet s k).linkUp && ethRuns s k

def pairGet (s : State) (k : Nat) : Yoyo := (tget s.eth.pairs k).getD {}

def pairPut (k : Nat) (y : Yoyo) (s : State) : State := setEth { s.eth with pairs := tset s.eth.pairs k y } s

/-- The port that a pair runs on in a state of Table 13-3. -/
def activeIn (k st : Nat) : Option Nat := if st = 3 then none else if st = 2 then some (2 * k + 1) else some (2 * k)

/-- The port that an entry or flow naming PORT runs on (R314). -/
def runsOn (s : State) (port : Nat) : Option Nat :=
  if port < 8 then some port else activeIn (port - 8) (pairGet s (port - 8)).state

/-- The port is the standby of an armed pair: it sends nothing (R317). -/
def isStandby (s : State) (p : Nat) : Bool :=
  let st := (pairGet s (p / 2)).state
  decide ((st = 1 ∧ p % 2 = 1) ∨ (st = 2 ∧ p % 2 = 0))

/-! ### Addresses and next hops (R304) -/

/-- A multicast address: 224.0.0.0/4, or ff00::/8. -/
def isMulticast (ipv6 : Bool) (a : BitVec 128) : Bool :=
  if ipv6 then decide (a.extractLsb' 120 8 = 255) else decide (a.extractLsb' 28 4 = 14)

/-- The own address of a port or sub-port. -/
def ownAddress (s : State) (port sub : Nat) (ipv6 : Bool) : BitVec 128 :=
  let x := ethGet s (ethKey port sub)
  if ipv6 then x.ipv6 else x.ipv4.zeroExtend 128

/-- The next hop of a unicast destination: itself on the own network, else the gateway; a multicast destination
has none to resolve. The network of an IPv6 address is its first 64 bits. -/
def nextHop (s : State) (port : Nat) (a : Addr) : Option (BitVec 128) :=
  if isMulticast a.ipv6 a.dst then none
  else
    let x := ethGet s (ethKey port a.subport)
    if a.ipv6 then
      some (if a.dst.extractLsb' 64 64 = x.ipv6.extractLsb' 64 64 ∨ x.gw6 = 0 then a.dst else x.gw6)
    else
      let net := fun (w : BitVec 32) => w.toNat / 2 ^ (32 - min 32 x.prefixLen)
      some (if net (a.dst.extractLsb' 0 32) = net x.ipv4 ∨ x.gw4 = 0 then a.dst else x.gw4.zeroExtend 128)

def findHop (s : State) (port : Nat) (a : BitVec 128) : Option NextHop :=
  s.eth.hops.find? (fun h => decide (h.port = port ∧ h.address = a))

/-- The next hop of a destination has been resolved. -/
def resolved (s : State) (port : Nat) (a : Addr) : Bool :=
  match nextHop s port a with
  | none => true
  | some h => ((findHop s (ethKey port a.subport) h).bind (fun x => x.mac)).isSome

/-- Every egress destination: relay targets and transmit flows. -/
def egressTo (s : State) : List Addr :=
  s.eth.entries.flatMap (fun e => e.2.relays.map Prod.snd)
    ++ s.eth.flows.filterMap (fun f => if f.2.tx then some f.2.addr else none)

/-- The next hops of a set of destinations. -/
def hopsOf (s : State) (l : List Addr) : List (Nat × BitVec 128) :=
  (l.flatMap (fun a => (portsOf a.port).filterMap (fun p => (nextHop s p a).map (fun h => (ethKey p a.subport, h))))).dedup

/-- A next hop is probed; on a standby port it is not (R317). -/
def sendProbe (port : Nat) (a : BitVec 128) (s : State) : State :=
  if isStandby s (port % 8) then s else send (.probe port a) s

/-- Keep one resolution for each next hop in use; a new one is probed. -/
def rehop (s : State) : State :=
  let l := hopsOf s (egressTo s)
  let new := l.filter (fun e => (findHop s e.1 e.2).isNone)
  new.foldl (fun s e => sendProbe e.1 e.2 s)
    (setEth { s.eth with hops := l.map (fun e => (findHop s e.1 e.2).getD { port := e.1, address := e.2 }) } s)

/-- Send one packet to a destination, from the port's own address and with the tag of the address block (R309): none
while its port is down or its next hop unresolved. -/
def sendTo (a : Addr) (p : Rtp) (s : State) : Option State :=
  match runsOn s a.port with
  | none => none
  | some port =>
    if ethUp s (ethKey port a.subport) && resolved s port a then
      some (send (.packet (ethKey port a.subport) (ownAddress s port a.subport a.ipv6) a.dst a.vlan a.udp p) s)
    else none

/-- A transmit flow reaches its destination. -/
def flowSends (s : State) (n : Nat) : Bool :=
  match tget s.eth.flows n with
  | some f => ((runsOn s f.addr.port).map (fun p => ethUp s (ethKey p f.addr.subport) && resolved s p f.addr)).getD false
  | none => false

/-! ### Frames on transmit flows (R311) -/

def flowMod (n : Nat) (f : Flow → Flow) (s : State) : State :=
  setEth { s.eth with flows := tmod s.eth.flows n f } s

/-- The 90 kHz timestamp of a transmit flow now: PTP time while the domains follow PTP, else it runs on from where it
stood, 0 at creation (R259, R311). -/
def rtpNow (s : State) (f : Flow) : Word :=
  if followsPtp s then word ((ptpNow s).1 * 90000 + (ptpNow s).2.1 * 9 / 100000)
  else f.rtp + word (divOpen ((now s - f.since) * 9) 100)

/-- A frame starts on a transmit flow: its timestamp. -/
def stampFrame (n : Nat) (s : State) : State :=
  match tget s.eth.flows n with
  | none => s
  | some f =>
    let ts := rtpNow s f
    flowMod n (fun f => if followsPtp s then { f with frameTs := ts, rtp := ts, since := now s } else { f with frameTs := ts }) s

/-- The runs of one line, in pixels from a column on: what fits in 1,200 bytes beside the 8 bytes that name the run, in
whole groups of four pixels. -/
def lineRuns (samp depth : Nat) (per y : Nat) (l : List Nat) : List (Nat × Nat × List Nat) :=
  let n := max 4 (1192 * 8 / bitsPerPixel samp depth / 4 * 4)
  (List.range (cdiv l.length (per * n))).map (fun i => (y, i * n, (l.drop (i * (per * n))).take (per * n)))

/-- The packets of a frame, the last of them with the marker bit. -/
def sendRuns (n : Nat) (ts : Word) : List (Nat × Nat × List Nat) → State → State
  | [], s => s
  | (y, x, l) :: t, s =>
    let s1 := match tget s.eth.flows n with
      | none => s
      | some f =>
        let p : Rtp := { pt := f.pt, seq := f.seq, ts := ts, marker := t.isEmpty, ess := .video false y x l }
        flowMod n (fun f => { f with seq := f.seq + 1 }) ((sendTo f.addr p s).getD s)
    sendRuns n ts t s1

/-- A transmit -20 flow sends a frame: its lines in general packing mode, each packet one run of a line (R311). -/
def sendVideo (n : Nat) (lines : List (List Nat)) (s : State) : State :=
  match tget s.eth.flows n with
  | none => s
  | some f =>
    let per := if f.fmt.sampling = 2 then 2 else 3
    sendRuns n f.frameTs (lines.mapIdx (lineRuns f.fmt.sampling f.fmt.depth per)).flatten s

/-- A transmit flow sends an object, or black in its own format (R86, R171). -/
def sendObject (n : Nat) (o : Option Obj) (s : State) : State :=
  match tget s.eth.flows n with
  | none => s
  | some f =>
    let black : Obj := { format := storeOf f.fmt, variant := variantOf f.fmt, colour := f.fmt.colour }
    sendVideo n ((List.range f.fmt.height).map (objectLine f.fmt.sampling f.fmt.depth f.fmt.width s.free (o.getD black))) { s with free := s.free + 1 }

/-! ### Input of encode contexts (R342) -/

/-- The 4:2:0 picture of a source of w × h pixels, which gives components by column and line: Y', then Cb, then Cr.
Chroma of 4:4:4 is filtered [1 2 1]/4 at even columns, and that of two lines averaged; 8 bits round half up. -/
def picture420 (h265 half : Bool) (w h : Nat) (yuv : Nat → Nat → List Nat) : List Nat :=
  let out := fun (v : Nat) => if h265 then v else toDepth 0 v
  let at_ := fun (j x y : Nat) => (yuv x y).getD j 0
  let row := fun (j x y : Nat) =>
    if half then at_ j x y
    else
      let l := if x = 0 then Config.edgeChroma (at_ j 0 y) 0 else at_ j (x - 1) y
      let r := if x + 1 < w then at_ j (x + 1) y else Config.edgeChroma (at_ j x y) x
      divOpen (l + 2 * at_ j x y + r) 4
  let plane := fun (j : Nat) => (List.range (h / 2)).flatMap (fun y => (List.range (w / 2)).map (fun x =>
    out (divOpen (row j (2 * x) (2 * y) + row j (2 * x) (2 * y + 1)) 2)))
  (List.range h).flatMap (fun y => (List.range w).map (fun x => out (at_ 0 x y))) ++ plane 1 ++ plane 2

/-- RGB to YCbCr with the equations of preset 7, or 8 under BT.2020 (R342, Table 8-4). -/
def encodeYuv (rgb : Bool) (primaries : Nat) (c : List Nat) : List Nat :=
  if rgb then outMatrix (presetMatrix (if primaries = 3 then 8 else 7) false) (c.map (fun v => 16 * (v : Int))) else c

/-- An object as an encode context takes it. -/
def objectPicture (x : EncodeCtx) (o : Obj) : List Nat :=
  let k := if o.format = 3 ∨ (o.format = 1 ∧ o.variant = 1) then 4 else 1
  picture420 x.h265 (decide (heldSampling o = 2)) x.w x.h (fun i j =>
    let p := pixelAt o i j
    if heldSampling o = 0 then encodeYuv true o.colour.primaries [k * p.2.2.1, k * p.2.1, k * p.1]
    else [k * p.2.1, k * p.1, k * p.2.2.1])

/-- The colour tag of a picture as it is encoded: RGB has been converted with preset 7, or 8 under BT.2020 (R342). -/
def encodeTag (c : Colour) : Colour :=
  if c.matrix = 0 then { c with matrix := if c.primaries = 3 then 3 else 2, full := false } else c

/-- Black, as a context without input encodes it (R86, R171). -/
def blackPicture (x : EncodeCtx) : List Nat := objectPicture x { format := 2 }

def encodeMod (h : Handle) (f : EncodeCtx → EncodeCtx) (s : State) : State :=
  { s with pool := { s.pool with encodes := tmod s.pool.encodes h f } }

/-! ### Ancillary flows (R312) -/

/-- Bytes of RTP payload of one ancillary packet: an 8-byte payload header, 4 bytes of packet header, and
ten-bit words of DID, SDID, count, data and checksum, filled to 32 bits. -/
def ancBytes (a : Anc) : Nat := 12 + 4 * cdiv (10 * (4 + a.words.length)) 32

/-- The object's packets may be sent by a flow: its source captures them, and a granted one has ALLOW_EGRESS. -/
def ancAllowed (s : State) (f : Flow) (src : Handle) : Bool :=
  (srcGet s src).fmt.ancEn && ((derived s f.owner src).map Prod.snd).getD true

/-- A layer binds objects at the apply line: packets that arrived with an object not queued before are queued. -/
def ancBind (h l : Nat) (ids : List Nat) (s : State) : State :=
  s.eth.flows.foldl (fun s e =>
    if e.2.tx ∧ e.2.essence = 2 ∧ e.2.fromLayer = layerDest h l then
      ids.foldl (fun s id =>
        match tget s.eth.flows e.1 with
        | none => s
        | some f =>
          let o := objHandle s id
          let src := (objGet s id).source
          if o ∈ f.sent ∨ hType src ≠ 1 ∨ !ancAllowed s f src then s
          else
            let l := ((srcGet s src).ancQueue.filter (fun a => decide (a.object = hIndex o))).map (fun a => (a.packet, 0))
            flowMod e.1 (fun f => { f with
              layerQueue := f.layerQueue ++ l, sent := o :: f.sent.filter (fun x => (objOfHandle s x).isSome) }) s) s
    else s) s

/-- What fits in a frame's bytes, in order, and what waits. -/
def ancTake : Nat → List (Anc × Nat) → List Anc × List (Anc × Nat)
  | _, [] => ([], [])
  | room, (a, n) :: t =>
    if ancBytes a ≤ room then
      let r := ancTake (room - ancBytes a) t
      (a :: r.1, r.2)
    else ([], (a, n) :: t)

/-- Packets that have waited for more than four frames are dropped. -/
def ancWait (l : List (Anc × Nat)) : List (Anc × Nat) := (l.map (fun e => (e.1, e.2 + 1))).filter (fun e => decide (e.2 ≤ 4))

/-- Send packets, the last of the frame with the marker. -/
def ancSend (n : Nat) (ts : Word) : List Anc → State → State
  | [], s => s
  | a :: t, s =>
    let s1 := match tget s.eth.flows n with
      | none => s
      | some f =>
        let p : Rtp := { pt := f.pt, seq := f.seq, ts := ts, marker := t.isEmpty, ess := .anc [a] }
        flowMod n (fun f => { f with seq := f.seq + 1 }) ((sendTo f.addr p s).getD s)
    ancSend n ts t s1

/-- A head sends a frame on a transmit -20 flow: its -40 flows send that frame's packets, host packets first. -/
def ancFrame (pair : Nat) (s : State) : State :=
  match tget s.eth.flows pair with
  | none => s
  | some v =>
    let ts := v.frameTs
    let limit := 250000 * 1001 / max 1 (rate1001 v.fmt.rate)
    s.eth.flows.foldl (fun s e =>
      if e.2.tx ∧ e.2.essence = 2 ∧ e.2.pair = pair then
        let a := ancTake limit e.2.hostQueue
        let b := if a.2.isEmpty then ancTake (limit - (a.1.map ancBytes).sum) e.2.layerQueue else ([], e.2.layerQueue)
        let ha := ancWait a.2
        let hb := ancWait b.2
        ancSend e.1 ts (a.1 ++ b.1) (flowMod e.1 (fun f => { f with
          hostQueue := ha, layerQueue := hb
          ancDropped := sat 0xFFFFFFFF f.ancDropped (a.2.length + b.2.length - ha.length - hb.length) }) s)
      else s) s

end Sys2Proof.Machine
end

