-- ==== Sys2Proof/Machine/Heads.lean ====
section
/-! DEFINITION. Display heads: the mode table (R218–R220), the head-class commands (R243–R246), the apply
line with its latch and latch check (R221–R225), self-refresh (R228, R229), the line events (R230–R234),
Jigsaw pairs (R235–R237), sinks (R238–R241) and HBM sleep (R226, R227). -/

namespace Sys2Proof.Machine

open Sys2Proof

/-! ### The mode table (R219, R220) -/

/-- A timing from its active sizes, totals, front porches and syncs. -/
def timingOf (hact htot hfront hsync vact vtot vfront vsync : Nat) (hpol vpol : Bool) : Timing :=
  { hactive := hact, htotal := htot, hfront := hfront, hsync := hsync, hback := htot - hact - hfront - hsync
    vactive := vact, vtotal := vtot, vfront := vfront, vsync := vsync, vback := vtot - vact - vfront - vsync
    hpol := hpol, vpol := vpol }

/-- The timing of a standard mode; none for a RATE not listed (Table 9-1). -/
def modeTiming (format rate : Nat) : Option Timing :=
  match format with
  | 1 =>
    let t := if rate = 6 then 1980 else if rate = 7 ∨ rate = 8 then 1650 else 0
    if t = 0 then none else some (timingOf 1280 t (t - 1540) 40 720 750 5 5 true true)
  | 2 =>
    let t := [0, 2750, 2750, 2640, 2200, 2200, 2640, 2200, 2200, 2640, 2200, 2200].getD rate 0
    if t = 0 then none else some (timingOf 1920 t (t - 2112) 44 1080 1125 4 5 true true)
  | 3 => if rate = 8 then some (timingOf 1920 2080 48 32 1200 1235 3 6 true true) else none
  | 4 => if rate = 8 then some (timingOf 2560 2720 48 32 1440 1481 3 5 true true) else none
  | 5 =>
    let t := [0, 5500, 5500, 5280, 4400, 4400, 5280, 4400, 4400].getD rate 0
    if t = 0 then none else some (timingOf 3840 t (t - 4224) 88 2160 2250 8 10 true true)
  | 6 => if rate = 8 then some (timingOf 5120 5200 8 32 2880 2962 3 8 true true) else none
  | 7 => if rate = 7 ∨ rate = 8 then some (timingOf 7680 8800 352 176 2160 2250 8 10 true true) else none
  | 8 =>
    let t := [0, 11000, 11000, 10800, 9000, 9000].getD rate 0
    if t = 0 then none else some (timingOf 7680 t (t - 8448) 176 4320 4400 16 20 true true)
  | _ => none

/-- The first failure of a custom timing (R220). -/
def customFault (t : Timing) (rate : Nat) : Option Status :=
  if t.hactive < 64 ∨ 3840 < t.hactive ∨ t.vactive < 64 ∨ 2160 < t.vactive then some .range
  else if t.hfront < 2 ∨ t.hsync < 2 ∨ t.hback < 2 then some .range
  else if t.vfront < 1 ∨ t.vsync < 1 then some .range
  else if t.hactive % 2 = 1 ∨ t.htotal % 2 = 1 ∨ t.hfront % 2 = 1 ∨ t.hsync % 2 = 1 ∨ t.hback % 2 = 1 then some .range
  else if t.hactive + t.hfront + t.hsync + t.hback ≠ t.htotal
    ∨ t.vactive + t.vfront + t.vsync + t.vback ≠ t.vtotal then some .inconsistent
  else if t.vtotal < t.vactive + 10 then some .inconsistent
  else if 594000000 * 1001 < t.htotal * t.vtotal * rate1001 rate then some .inconsistent
  else none

/-- APPLY_LINE ranges from max(0, VACTIVE − 1,024) to VTOTAL − 8 (R222). -/
def applyLineGood (t : Timing) (n : Nat) : Bool := decide (t.vactive - 1024 ≤ n ∧ n ≤ t.vtotal - 8)

/-! ### Commands (R243–R246) -/

def cmdSetHeadMode (c : Ctx) (s : State) : CmdOut :=
  let h := bf c 0 5 0
  withHead c s h false <|
    let fmt := bf c 0 15 8
    let rate := bf c 0 19 16
    let cust : Timing := {
      hactive := bf c 3 15 0, htotal := bf c 3 31 16, hfront := bf c 4 15 0, hsync := bf c 4 31 16
      vactive := bf c 5 15 0, vtotal := bf c 5 31 16, vfront := bf c 6 15 0, vsync := bf c 6 31 16
      hback := bf c 7 15 0, vback := bf c 7 31 16, hpol := bb c 8 0, vpol := bb c 8 1 }
    let words := (List.range 6).any (fun i => decide (bw c (3 + i) ≠ 0))
    let timing : Except Status Timing :=
      if 8 < fmt ∨ rate1001 rate = 0 then .error .range
      else if fmt = 0 then (match customFault cust rate with
        | some e => .error e
        | none => .ok cust)
      else match modeTiming fmt rate with
        | none => .error .range
        | some t => if words then .error .inconsistent else .ok t
    if s.sys.maintTiming then refuse .state
    else match timing with
      | .error e => refuse e
      | .ok t =>
        let a := if bf c 1 15 0 = 65535 then t.vactive else bf c 1 15 0
        if !applyLineGood t a ∨ bf c 2 7 0 = 1 then refuse .range
        else if 6 ≤ fmt ∧ h % 2 = 1 then refuse .inconsistent
        else stageHead c (fun i => match i with | .mode g _ => decide (g = h) | _ => false)
          (.mode h {
            enable := bb c 0 6, sr := bb c 0 7, format := fmt, rate := rate, td := bf c 0 23 20
            applyLine := a, lineMatch := bf c 1 31 16
            srFrames := if bf c 2 7 0 = 0 then 4 else bf c 2 7 0, timing := t }) s

/-- The routes of a destination, now or handed off. -/
def isRouted (s : State) (d : Nat) : Bool := !(nowViews s d ++ nextViews s d).isEmpty

def flowDest (n : Nat) : Nat := 4 * 2 ^ 28 + n

def ctxDest (h : Handle) : Nat := 2 * 2 ^ 28 + hPart h * 2 ^ 24 + hIndex h

/-- The sink of BIND_SINK, or why it is refused (R240, R241, R244). -/
def sinkOf (c : Ctx) (s : State) : Except Status Sink :=
  let w := bw c 1
  match bf c 0 9 8 with
  | 0 => if w ≠ 0 ∨ bw c 2 ≠ 0 then .error .inconsistent else .ok .none
  | 1 =>
    let p := bits w 4 0
    if p < 16 ∨ bits w 9 8 = 3 ∨ bits w 11 10 = 3 ∨ bits w 13 12 = 3 then .error .range
    else if bw c 2 ≠ 0 then .error .inconsistent
    else if c.page ≠ 0 ∧ holder s 1 p ≠ c.page then .error .notOwner
    else if (portGet s p).mode = 2 then .error .state
    else .ok (.link p (bits w 6 5) (bits w 9 8) (bits w 11 10) (bits w 13 12))
  | 2 =>
    if 1024 ≤ bn c 2 then .error .range
    else if w ≠ 0 then .error .inconsistent
    else match tget s.eth.flows (bn c 2) with
      | none => .error (if c.page = 0 then .inconsistent else .notOwner)
      | some f =>
        if c.page ≠ 0 ∧ f.owner ≠ c.page then .error .notOwner
        else if !f.tx ∨ f.essence ≠ 0 then .error .inconsistent
        else if isRouted s (flowDest (bn c 2)) then .error .state
        else .ok (.ip (bn c 2))
  | _ =>
    if w ≠ 0 then .error .inconsistent
    else match handleFault c.page s (bn c 2) [9] with
      | some e => .error e
      | none =>
        if (tget s.pool.encodes (bn c 2)).isNone then .error .noSuchHandle
        else if isRouted s (ctxDest (bn c 2)) then .error .state
        else .ok (.encoder (bn c 2))

def cmdBindSink (c : Ctx) (s : State) : CmdOut :=
  let h := bf c 0 5 0
  withHead c s h true <|
    match sinkOf c s with
    | .error e => refuse e
    | .ok k => stageHead c (fun i => match i with | .sink g _ => decide (g = h) | _ => false) (.sink h k) s

def cmdSetCrcRects (c : Ctx) (s : State) : CmdOut :=
  let h := bf c 0 5 0
  withHead c s h true <|
    stageHead c (fun i => match i with | .crc g _ => decide (g = h) | _ => false)
      (.crc h ((List.range 4).map (fun k =>
        ⟨bf c (1 + 2 * k) 15 0, bf c (1 + 2 * k) 31 16, bf c (2 + 2 * k) 15 0, bf c (2 + 2 * k) 31 16⟩))) s

/-- The set whose timing a head runs now: that of the frame in scan, else the active one (R222, R223). -/
def runSet (x : Head) : HeadSet := if x.scanning then x.scanSet else x.act

/-- Where a head's restarted line 0 falls: on the first tick of its domain at or after the earliest instant (R223). -/
def zeroAt (s : State) (x : Head) : Frac :=
  let k : Frac := ⟨((tget s.time.domains x.act.mode.td).getD {}).lastTick, 1⟩
  let t := periodUs ((tget s.time.domains x.act.mode.td).getD {}).rate
  if !fgt x.zeroFrom k then k
  else fadd k ⟨cdiv ((x.zeroFrom.num - k.num * x.zeroFrom.den) * t.den) (max 1 (x.zeroFrom.den * t.num)) * t.num, t.den⟩

/-- The current line of a head that has timing; a stopped generator stands at VACTIVE of the new timing until it
restarts (R223). -/
def lineNow (s : State) (x : Head) : Nat :=
  let st := runSet x
  let v := max 1 st.mode.timing.vtotal
  let t := linesUs st 1
  if x.state = 0 then x.line
  else if x.restart && !x.scanning then
    let a := st.mode.timing.vactive
    let b := zeroAt s x
    let blank := linesUs st (v - a)
    if fgt b (fadd ⟨now s, 1⟩ blank) then a
    else
      -- lines from the restart at VACTIVE to now
      let gone : Frac := ⟨(now s * b.den * blank.den + blank.num * b.den) - b.num * blank.den, b.den * blank.den⟩
      (a + gone.num * t.den / max 1 (gone.den * t.num)) % v
  else (x.line + (now s - x.lineAt) * t.den / max 1 t.num) % v

/-- The head whose set and layers a head composes, and the columns before its own half (R235). -/
def composer (s : State) (h : Nat) : Nat × Nat :=
  if oddPaired s h then (h - 1, (headGet s h).scanSet.mode.timing.hactive / 2) else (h, 0)

/-- The time in µs until line n of a head starts next. -/
def untilLine (s : State) (x : Head) (n : Nat) : Frac :=
  let st := runSet x
  let v := max 1 st.mode.timing.vtotal
  let frame := linesUs st v
  -- an instant at which line n starts
  let t : Frac := if x.restart && !x.scanning then
      let b := zeroAt s x
      let before := linesUs st (v - n)
      if fgt before b then fadd b (linesUs st n) else ⟨b.num * before.den - before.num * b.den, b.den * before.den⟩
    else fadd ⟨x.lineAt, 1⟩ (linesUs st ((n + v - x.line % v) % v))
  if !fgt ⟨now s, 1⟩ t then ⟨t.num - now s * t.den, t.den⟩
  else
    let gone := now s * t.den - t.num
    let k := gone * frame.den / max 1 (t.den * frame.num)
    ⟨(k + 1) * frame.num * t.den - gone * frame.den, frame.den * t.den⟩

/-- Latency tolerance in ns, 0xFF_FFFF for 16.78 ms or more (R226): no limit outside RUNNING and
SELF_REFRESH; never beyond the next fetch-start line; while layers fetch, from the fetch start to the end of the
active scan, how far they are ahead is open. A layer that fetches no tile of its frame holds all its lines. -/
def tolerance (s : State) (h : Nat) : Nat :=
  let x := headGet s h
  if x.state < 2 then 0xFFFFFF
  else
    let st := runSet x
    let t := untilLine s x (st.mode.timing.vtotal - 8)
    let toFetch := divOpen (t.num * 1000) t.den
    let fetching := decide (x.state = 2) && (headGet s (composer s h).1).scanShown.any (fun e =>
      !x.off.any (fun o => decide (o.1 = e.1)) && decide (tget x.tilesFetched e.1 ≠ some 0)
        && (e.2.1 ++ e.2.2.1).any (fun i => decide ((objGet s i).tier ≠ 0)))
    min 0xFFFFFF (if fetching then min toFetch (Config.fetchAhead h (now s)) else toFetch)

/-- Code of a sink in the diagnostics. -/
def sinkCode : Sink → Nat
  | .none => 0
  | .link _ _ _ _ _ => 1
  | .ip _ => 2
  | .encoder _ => 3

/-- Timing a head itself runs: for a pair half the horizontal values (R235). -/
def ownTiming (x : Head) : Timing :=
  let t := x.act.mode.timing
  if x.paired then { t with hactive := t.hactive / 2, htotal := t.htotal / 2, hfront := t.hfront / 2
                            hsync := t.hsync / 2, hback := t.hback / 2 }
  else t

/-- ENABLED, CLIPPED and UNDERRUN (Table 9-5). -/
def crcFlags (x : Head) : Word :=
  pack [(bitmap ((List.range 4).filter (fun k => !rectEmpty (x.act.crc.getD k {}))), 3, 0),
    (bitmap ((List.range 4).filter (fun k => x.clipped.getD k false)), 7, 4), (b1 x.crcUnderrun, 8, 8)]

/-- A word of a head's diagnostics block (Table 9-5). -/
def headDiag (s : State) (h off : Nat) : Word :=
  let x := headGet s h
  let m := x.act.mode
  let t := ownTiming x
  let two := fun (a b : Nat) => pack [(a, 15, 0), (b, 31, 16)]
  match off with
  | 0x000 => pack [(x.state, 1, 0), (b1 x.pend.isSome, 2, 2), (b1 x.paired, 3, 3), (m.td, 8, 4),
      (sinkCode x.act.sink, 10, 9), (m.format, 23, 16), (m.rate, 27, 24)]
  | 0x004 => x.appliedEpoch
  | 0x008 => x.pendingEpoch
  | 0x00C => x.rejectedEpoch
  | 0x010 => two (lineNow s x) m.applyLine
  | 0x014 => word x.frameCount
  | 0x018 => pack [(tolerance s h, 23, 0), (x.resyncs, 31, 24)]
  | 0x01C => two x.timingRejects x.layerRejects
  | 0x040 => two t.hactive t.htotal
  | 0x044 => two t.hfront t.hsync
  | 0x048 => pack [(t.hback, 15, 0), (b1 t.hpol, 16, 16), (b1 t.vpol, 17, 17)]
  | 0x04C => two t.vactive t.vtotal
  | 0x050 => two t.vfront t.vsync
  | 0x054 => word t.vback
  | 0x058 => word (ffloor ⟨t.htotal * t.vtotal * rate1001 m.rate, 1001⟩)
  | 0x05C => word m.lineMatch
  | 0x070 => word x.crcFrame
  | 0x074 => crcFlags x
  | _ =>
    if 0x020 ≤ off ∧ off < 0x040 then word (x.underruns.getD ((off - 0x020) / 4) 0)
    else if 0x060 ≤ off ∧ off < 0x070 then x.crcVals.getD ((off - 0x060) / 4) 0
    else 0

def cmdGetHeadStatus (c : Ctx) (s : State) : CmdOut :=
  let h := bf c 0 5 0
  let page := bf c 0 9 8
  withHead c s h true <|
    let x := headGet s h
    let u := fun (l : Nat) => min 65535 (x.underruns.getD l 0)
    let two := fun (l : Nat) => pack [(u l, 15, 0), (u (l + 1), 31, 16)]
    if page = 3 then refuse .range
    else if page = 0 then .done .ok [headDiag s h 0, x.appliedEpoch, x.pendingEpoch, x.rejectedEpoch, word x.frameCount, headDiag s h 0x1C] s
    else if page = 1 then .done .ok (x.crcVals ++ [word x.crcFrame, crcFlags x]) s
    else .done .ok [two 0, two 2, two 4, two 6, word (tolerance s h), headDiag s h 0x10]
      (if bb c 1 0 then headPut h { x with underruns := List.replicate 8 0 } s else s)

def specSetHeadMode : OpSpec :=
  { op := 0x0800, maxLen := 36, dflt := [0, 0xFFFFFFFF, 4]
    rsv := within [field 23 0, 0xFFFFFFFF, field 7 0, 0xFFFFFFFF, 0xFFFFFFFF, 0xFFFFFFFF, 0xFFFFFFFF, 0xFFFFFFFF, field 1 0]
    run := cmdSetHeadMode }

def specBindSink : OpSpec :=
  { op := 0x0801, maxLen := 12, rsv := within [field 5 0 ||| field 9 8, field 6 0 ||| field 13 8], run := cmdBindSink }

def specSetCrcRects : OpSpec := { op := 0x0802, maxLen := 36, rsv := within [field 5 0], run := cmdSetCrcRects }

def specGetHeadStatus : OpSpec :=
  { op := 0x0803, maxLen := 8, rsv := within [field 5 0 ||| field 9 8, 1]
    log := fun b => decide (bits (wd b 0) 9 8 = 2) && bit (wd b 1) 0, run := cmdGetHeadStatus }

def execSetHeadMode (page : Fin 16) (d : Desc) (s : State) : Host.Outcome State Fault Refusal :=
  if d.Wf then .next (issue specSetHeadMode page d s) else .fault .illFormed

def execBindSink (page : Fin 16) (d : Desc) (s : State) : Host.Outcome State Fault Refusal :=
  if d.Wf then .next (issue specBindSink page d s) else .fault .illFormed

def execSetCrcRects (page : Fin 16) (d : Desc) (s : State) : Host.Outcome State Fault Refusal :=
  if d.Wf then .next (issue specSetCrcRects page d s) else .fault .illFormed

def execGetHeadStatus (page : Fin 16) (d : Desc) (s : State) : Host.Outcome State Fault Refusal :=
  if d.Wf then .next (issue specGetHeadStatus page d s) else .fault .illFormed

/-! ### Checks at COMMIT (R193, R235, R237, R239–R241, R243) -/

/-- The set a head has or will have. -/
def headSet (s : State) (h : Nat) : HeadSet := ((headGet s h).pend).getD (headGet s h).act

/-- The set a head will run: an odd half takes that of its pair with its own sink and rectangles, and goes OFF where the
pair ends (R235, R236). -/
def effSet (s : State) (h : Nat) : HeadSet :=
  let own := headSet s h
  if h % 2 = 1 then
    let even := headSet s (h - 1)
    if isPair even then { even with sink := own.sink, crc := own.crc }
    else if (headGet s (h - 1)).paired then { own with mode := { own.mode with enable := false, format := 0 } }
    else own
  else own

/-- R193 for one layer, against the raster and the source it will have. -/
def layerFault (s : State) (h l : Nat) (st : HeadSet) : Bool :=
  let k := layerCfg st l
  let t := st.mode.timing
  let dw := k.dst.x1 - k.dst.x0
  let dh := k.dst.y1 - k.dst.y0
  decide (t.hactive < k.dst.x1 ∨ t.vactive < k.dst.y1)
    || (match planRoute s h l with
      | none => false
      | some v =>
        let f := nextFmt s v.source
        let r := if rectEmpty k.crop then ⟨0, 0, f.width, objHeight f⟩ else k.crop
        let cw := r.x1 - r.x0
        let ch := r.y1 - r.y0
        decide (f.width < r.x1 ∨ objHeight f < r.y1)
          || (!rectEmpty k.dst &&
            (if l < 4 then decide (16 * cw < dw ∨ 16 * ch < dh) || (decide (8 * dw < cw) && !k.prescale)
            else decide (cw ≠ dw ∨ ch ≠ dh))))

/-- A head of a pair, or the odd half of one (R235): the conditions of the pair. -/
def pairFault (page : Nat) (s : State) (h : Nat) (st : HeadSet) : Option Status :=
  let odd := h / 2 * 2 + 1
  let even := h / 2 * 2
  let pst := if h % 2 = 0 then st else headSet s even
  if !isPair pst then none
  else if holder s 0 odd ≠ holder s 0 even ∨ (page ≠ 0 ∧ holder s 0 odd ≠ page) then some .state
  else if (List.range 8).any (fun l => !(nextViews s (layerDest odd l)).isEmpty) then some .state
  else match (headSet s even).sink, (headSet s odd).sink with
    | .link _ _ _ a b, .link _ _ _ c d => if a = c ∧ b = d then none else some .inconsistent
    | _, _ => some .inconsistent

/-- Lane rate in units of 100 Mb/s (R281). -/
def laneRate (code : Nat) : Nat := 32 * 2 ^ code

/-- The sampling a sink takes its raster in: 0 RGB, else YCbCr. An encode context's is open. -/
def sinkSampling (s : State) (k : Sink) : Option Nat :=
  match k with
  | .link _ _ _ samp _ => some samp
  | .ip n => (tget s.eth.flows n).map (fun f => f.fmt.sampling)
  | _ => none

/-- The output encoding disagrees with the sink (R239). -/
def encodingFault (s : State) (st : HeadSet) : Bool :=
  match sinkSampling s st.sink with
  | none => false
  | some samp =>
    let p := st.comp.outPreset
    (decide (6 ≤ p ∧ p ≤ 8) && decide (samp = 0)) || ((decide (1 ≤ p ∧ p ≤ 5) || decide (p = 9)) && decide (samp ≠ 0))

/-- Other heads' link sinks on a port: domain, sub-stream and width. -/
def otherSinks (s : State) (h p : Nat) : List (Nat × Nat × Nat) :=
  (List.range 64).filterMap (fun g =>
    if g = h then none
    else match (effSet s g).sink with
      | .link q sub lanes _ _ => if q = p then some ((effSet s g).mode.td, sub, 2 ^ lanes) else none
      | _ => none)

/-- The last checks of R243: link, IP and encoder sinks. -/
def sinkFault (s : State) (h : Nat) (st : HeadSet) : Option Status :=
  match st.sink with
  | .none => none
  | .link p sub lanes samp depth =>
    let others := otherSinks s h p
    let x := portGet s p
    let w := 2 ^ lanes
    if x.mode = 2 then some .state
    else if others.any (fun o => decide (o.1 ≠ st.mode.td)) then some .inconsistent
    else if others.any (fun o => decide (o.2.1 = sub)) then some .inconsistent
    else if !lanesFit x.lanes (others.map (fun o => o.2)) sub w then some .inconsistent
    else if fgt (fmul (headRate st) ⟨bitsPerPixel samp depth, 1⟩) ⟨96 * w * laneRate x.rate * 100000000 * 128, 100 * 130⟩
      then some .inconsistent
    else match x.record with
      | some r => if x.state = 5 ∧ recordExcludes r st samp depth = true then some .unsupported else none
      | none => none
  | .ip n =>
    match tget s.eth.flows n with
    | none => some .inconsistent
    | some f =>
      if f.fmt.width ≠ st.mode.timing.hactive ∨ f.fmt.height ≠ st.mode.timing.vactive ∨ f.fmt.rate ≠ st.mode.rate
        then some .inconsistent
      else if isRouted s (flowDest n) then some .state else none
  | .encoder e =>
    match tget s.pool.encodes e with
    | none => some .inconsistent
    | some k =>
      if k.w ≠ st.mode.timing.hactive ∨ k.h ≠ st.mode.timing.vactive ∨ k.rate ≠ st.mode.rate then some .inconsistent
      else if isRouted s (ctxDest e) then some .state else none

/-- CUSTOM selected without a load: the output matrix, then the layers (R203). -/
def customMissing (st : HeadSet) : Bool :=
  (decide (st.comp.outPreset = 15) && (tget st.mats 8).isNone)
    || (List.range 8).any (fun l => decide ((layerCfg st l).preset = 15) && (tget st.mats l).isNone)

/-- The checks of R243 for one head, in their order, on the configuration the commit would make. -/
def headFault (page : Nat) (s : State) (h : Nat) : Option Status :=
  let st := effSet s h
  -- the layers of a pair are those of its even half
  let own := decide (h % 2 = 0) || !isPair st
  if (domainGet s st.mode.td).rate ≠ st.mode.rate then some .inconsistent
  else if own && (List.range 8).any (fun l => layerFault s h l st) then some .inconsistent
  else match pairFault page s h st with
    | some e => some e
    | none =>
      let srGood := match st.sink with
        | .link p _ _ _ _ => ((portGet s p).record.map (fun r => bit (wd r 1) 10)).getD false
        | _ => false
      if st.mode.sr ∧ !srGood then some .unsupported
      else if customMissing st then some .state
      else if encodingFault s st then some .inconsistent
      else sinkFault s h st

/-! ### The latch (R221–R225) -/

/-- One staged change of a head in its set (R221). -/
def mergeSet (st : HeadSet) (i : Staged) : HeadSet :=
  match i with
  | .layer _ l k => { st with layers := tset st.layers l k }
  | .comp _ k => { st with comp := k }
  | .matrix _ t m => { st with mats := tset st.mats t m }
  | .coef _ b k => { st with banks := tset st.banks b k }
  | .mode _ m => { st with mode := m }
  | .sink _ k => { st with sink := k }
  | .crc _ r => { st with crc := r }
  | _ => st

/-- The heads a destination head stands for: a pair's two halves under its even head (R235). -/
def halves (s : State) (h : Nat) : List Nat :=
  if h % 2 = 0 ∧ (isPair (headSet s h) ∨ (headGet s h).paired) then [h, h + 1] else [h]

/-- Table 9-2: kind, number and layer of the first check that fails. -/
def latchCheck (s : State) (h : Nat) : Option (Nat × Nat × Nat) :=
  let st := effSet s h
  let odd := isPair st && decide (h % 2 = 1)
  let t := st.mode.timing
  let bad := (List.range 8).find? (fun l =>
    let k := layerCfg st l
    k.enable && decide (t.hactive < k.dst.x1 ∨ t.vactive < k.dst.y1))
  let lines := fsum ((List.range 8).flatMap (fun l =>
    let g := if odd then h - 1 else h
    (nextViews s (layerDest g l)).map (fun v => ⟨layerLines s g l odd true st v.2, 1⟩)))
  if t.hactive + t.hfront + t.hsync + t.hback ≠ t.htotal ∨ t.vactive + t.vfront + t.vsync + t.vback ≠ t.vtotal then some (1, 1, 255)
  else if t.hactive % 2 = 1 ∨ t.htotal % 2 = 1 ∨ t.hfront % 2 = 1 ∨ t.hsync % 2 = 1 ∨ t.hback % 2 = 1
    ∨ t.vtotal < t.vactive + 10 then some (1, 2, 255)
  else if fgt (headRate st) ⟨594000000, 1⟩ then some (1, 3, 255)
  else if !applyLineGood t st.mode.applyLine ∨ (t.vtotal ≤ st.mode.lineMatch ∧ st.mode.lineMatch ≠ 65535) then some (1, 4, 255)
  else match bad with
    | some l => some (2, 5, l)
    | none =>
      if !orderGood st.comp.order then some (2, 6, 255)
      else if fgt lines ⟨98304, 1⟩ then some (2, 7, 255)
      else none

/-- Take references and the frame of a layer back (R243). -/
def releaseHead (h : Nat) (s : State) : State :=
  let s1 := (List.range 8).foldl (fun s l => giveRefs (layerDest h l) (.layer h l) s) s
  (headGet s1 h).scanShown.foldl (fun s e =>
    (e.2.1 ++ e.2.2.1).foldl (fun s i => dropRef i (.layer h e.1) s) s)
    (headPut h { headGet s1 h with scanShown := [], scanning := false, feeding := .none } s1)

/-- SELF_REFRESH is posted at entry (1) and exit (0). -/
def srNote (h v : Nat) (s : State) : State :=
  postNtf (holder s 0 h) 0x0803 [word h, word v, word (headGet s h).frameCount] s

/-- A head goes OFF (R216, R243); one that leaves SELF_REFRESH says so, a pair once (R229). -/
def headOff (h : Nat) (s : State) : State :=
  let s1 := releaseHead h (if (headGet s h).state = 3 ∧ oddPaired s h = false then srNote h 0 s else s)
  headPut h { headGet s1 h with
    state := 0, quiet := 0, uneasy := false, steady := false, srEntry := false, opaqueNow := [], off := []
    restart := false, scanMarker := false, scanOpaque := [], underran := false, served := [] } s1

/-- Ports that a head feeds or will feed see who runs (R296). -/
def touchPort (k : Sink) (s : State) : State :=
  match k with
  | .link p _ _ _ _ =>
    if runningOn s p then wakePort p s else portMod p (fun x => { x with idleSince := now s }) s
  | _ => s

/-- A binding or a raster that a head has just latched is held against the record of its port (R293). -/
def holdLatched (h : Nat) (old : HeadSet) (s : State) : State :=
  let st := (headGet s h).act
  match st.sink with
  | .link p _ _ _ _ => if st.sink = old.sink ∧ st.mode = old.mode then s else holdSinks p (fun g => decide (g = h)) s
  | _ => s

/-- Processed sources that the plan no longer holds are deleted, with PRESCALE_CHANGE (R210–R212). -/
def dropPrescale (h : Nat) (old new : Tbl Handle) (s : State) : State :=
  old.foldl (fun s e =>
    if tget new e.1 = some e.2 then s
    else resizeRings (deleteSource e.2 (prescaleNote h e.1 e.2 0 s))) s

/-- A layer switches to its pre-scale source at the first apply instant after that source's first close, and
back when it is no longer taken (R211). -/
def switchPrescale (h : Nat) (s : State) : State :=
  let x := headGet s h
  headPut h { x with prescaleAct := x.prescaleOk.filter (fun e =>
    decide (tget x.prescaleAct e.1 = some e.2) || ((srcGet s e.2).latest).isSome) } s

/-- A layer fades out a route whose source a pre-scale source reads: it keeps that until the fade ends (R178). -/
def fadesOut (s : State) (h : Nat) (e : Nat × Handle) : Bool :=
  let x := destGet s (layerDest h e.1)
  decide (x.fadeN ≠ 0 ∧ ((x.active.bind (fun r => tget s.routes r)).map (fun r => r.source)) = (tget s.procs e.2).map (fun p => p.input))

/-- The pre-scale sources of a latched plan take over; those of neither the plan nor a fade go (R211, R212). -/
def turnPrescale (h : Nat) (plan : Tbl Handle) (s : State) : State :=
  let x := headGet s h
  let old := (x.prescaleOk ++ x.prescaleOut).filter (fun e => !plan.any (fun k => decide (k = e)))
  let s1 := headPut h { x with prescaleOk := plan, prescaleOut := old.filter (fadesOut s h) } s
  dropPrescale h (old.filter (fun e => !fadesOut s h e)) [] (switchPrescale h s1)

/-- A stopped timing generator restarts at VACTIVE of a timing: line 0 falls VTOTAL − VACTIVE lines later at the
earliest (R223). -/
def restartFrom (s : State) (st : HeadSet) : Frac :=
  fadd ⟨now s, 1⟩ (linesUs st (st.mode.timing.vtotal - st.mode.timing.vactive))

/-- A flow that a head no longer feeds (R238). -/
def unbindFlow (old new : Sink) (s : State) : State :=
  match old with
  | .ip n => if old = new then s else flowMod n (fun f => { f with unbound := true }) s
  | _ => s

/-- The set becomes a head's active one (R221, R223). A frame in scan completes first. -/
def latchOne (h : Nat) (st : HeadSet) (e : Word) (s : State) : State :=
  let x := headGet s h
  let retime := decide (x.act.mode.timing ≠ st.mode.timing ∨ x.act.mode.rate ≠ st.mode.rate
    ∨ x.act.mode.td ≠ st.mode.td ∨ x.act.mode.format ≠ st.mode.format)
  let running := decide (x.state = 2 ∨ x.state = 3)
  headPut h { x with
    act := st, pend := none, pendingEpoch := 0, appliedEpoch := e, paired := isPair st
    state := if st.mode.enable then (if x.state = 3 then 3 else 2) else x.state
    restart := x.restart || retime || !running
    zeroFrom := if x.restart || retime || !running then restartFrom s st else x.zeroFrom
    resyncs := if retime && running then sat 255 x.resyncs 1 else x.resyncs
    clipped := st.crc.map (fun r => !rectEmpty r && decide (headWidth st < r.x1 ∨ st.mode.timing.vactive < r.y1)) } s

/-- Every mailbox's epochs that a head's set carried count as applied or resolved (R52, R225). -/
def resolveHead (h : Nat) (eps : List (Nat × Word)) (s : State) : State :=
  eps.foldl (fun s e => applied e.1 (.head h) e.2 s) s

/-- The last epoch a head's pending set carries. -/
def lastEpoch (x : Head) : Word := (x.pendEpochs.getLast?.map Prod.snd).getD x.appliedEpoch

/-- Latch a head, or a pair (R221, R235). -/
def latch (h : Nat) (s : State) : State :=
  let x := headGet s h
  let src := headSet s h
  let hs := halves s h
  let s1 := hs.foldl (fun t g => unbindFlow (headGet s g).act.sink (effSet s g).sink (latchOne g (effSet s g) (lastEpoch x) t)) s
  let s2 := if hs.length = 2 ∧ !isPair src then headOff (h + 1) s1 else s1
  let s3 := hs.foldl (fun t g => headPut g { headGet t g with pendEpochs := [] } t) s2
  let s4 := (List.range 8).foldl (fun s l => applyDest (layerDest h l) s) s3
  let s5 := turnPrescale h (headGet s4 h).prescale s4
  let s6 := if src.mode.enable then s5 else hs.foldl (fun s g => headOff g s) s5
  let s7 := hs.foldl (fun t g => holdLatched g (headGet s g).act (touchPort (headGet s g).act.sink (touchPort (effSet s g).sink t))) s6
  hs.foldl (fun t g => resolveHead g (headGet s g).pendEpochs t) (resizeRings s7)

/-- A set is refused (R225). -/
def rejectSet (h kind number layer : Nat) (s : State) : State :=
  let x := headGet s h
  let e := lastEpoch x
  let hs := halves s h
  let s1 := hs.foldl (fun s g =>
    let y := headGet s g
    headPut g { y with
      pend := none, pendingEpoch := 0, rejectedEpoch := e
      timingRejects := if kind = 1 then sat 65535 y.timingRejects 1 else y.timingRejects
      layerRejects := if kind = 2 then sat 65535 y.layerRejects 1 else y.layerRejects } s) s
  let s2 := hs.foldl (fun t g => headPut g { headGet t g with pendEpochs := [] } t) s1
  let s3 := dropPrescale h x.prescale x.prescaleOk (headPut h { headGet s2 h with prescale := x.prescaleOk } s2)
  let s4 := (List.range 8).foldl (fun s l => discardPending (layerDest h l) (fun _ => false) s) s3
  -- the rings and rungs of the active set come back (R150, R157, R185)
  let s5 := rebalance (holder s4 0 h) (followRings s4)
  let s6 := postNtf (holder s5 0 h) 0x0801 [word h, e, pack [(kind, 7, 0), (number, 15, 8)], word layer] s5
  hs.foldl (fun t g => resolveHead g (headGet s g).pendEpochs t) (resizeRings s6)

/-- Sample APPLY_PENDING: true when a set has latched (R221, R224). -/
def sampleSet (h : Nat) (s : State) : State × Bool :=
  if (halves s h).all (fun g => (headGet s g).pend.isNone) then (s, false)
  else match (halves s h).findSome? (latchCheck s) with
    | some (k, n, l) => (rejectSet h k n l s, false)
    | none => (latch h s, true)

/-! ### The coming frame (R177, R199, R204, R228, R229) -/

/-- Layers that take references: enabled ones of a head that runs (R192, R216). -/
def showsLayer (x : Head) (l : Nat) : Bool := decide (x.state = 2 ∨ x.state = 3) && (layerCfg x.act l).enable

/-- References of the coming frame. -/
def bindLayers (h : Nat) (s : State) : State :=
  (List.range 8).foldl (fun s l =>
    let d := layerDest h l
    if showsLayer (headGet s h) l then takeRefs d (.layer h l) s else giveRefs d (.layer h l) s) s

/-- The objects a layer has bound: slot and close. -/
def boundOf (s : State) (d : Nat) : List (Nat × Nat) :=
  let x := destGet s d
  (x.shown ++ x.shownIn).map (fun i => (i, (objGet s i).closedAt))

/-- A layer is opaque for the coming frame (R199). -/
def isOpaque (s : State) (h l : Nat) : Bool :=
  let k := layerCfg (headGet s h).act l
  let d := destGet s (layerDest h l)
  match d.shown with
  | i :: _ => k.enable && decide (d.fadeN = 0 ∧ k.galpha = 1023)
      && (k.opaqueBit || decide (k.blend = 2) || !hasAlpha (objGet s i))
  | [] => false

/-- LAYER_COLOUR on a change between agreement and mismatch (R204). -/
def compareColour (h l : Nat) (s : State) : State :=
  let x := headGet s h
  let d := destGet s (layerDest h l)
  match (d.shown ++ d.shownIn).head? with
  | none => s
  | some i =>
    let k := (objGet s i).colour
    let bad := decide (k.transfer ≠ x.act.comp.transfer ∨ k.primaries ≠ x.act.comp.primaries)
    if bad = decide (l ∈ x.mismatch) then s
    else
      postNtf (holder s 0 h) 0x0701 [word (layerDest h l), colourWord k,
          pack [(x.act.comp.transfer, 1, 0), (x.act.comp.primaries, 3, 2)], word (b1 bad)]
        (headPut h { x with mismatch := if bad then l :: x.mismatch else x.mismatch.filter (fun m => decide (m ≠ l)) } s)

/-- The port of a head in SELF_REFRESH asks for LOW1 when all its heads are, and each has sent its last frame (R295, R296). -/
def restPort (h : Nat) (s : State) : State :=
  match (headGet s h).act.sink with
  | .link p _ _ _ _ =>
    if (headGet s h).state = 3 ∧ allRefresh s p = true ∧ (sinksOn s p).all (fun e => !(headGet s e.1).scanning) = true
    then requestLow p 1 s else s
  | _ => s

/-- A head changes between RUNNING and SELF_REFRESH, a pair as one; its port may go to LOW1 or must leave it. -/
def setRefresh (h st : Nat) (s : State) : State :=
  let s1 := (halves s h).foldl (fun s g => headPut g { headGet s g with state := st, quiet := 0 } s) s
  let s2 := srNote h (b1 (decide (st = 3))) s1
  (halves s2 h).foldl (fun s g => if st = 3 then restPort g s
    else match (headGet s g).act.sink with
      | .link p _ _ _ _ => wakePort p s
      | _ => s) s2

/-- Self-refresh at an apply line (R228, R229): the frame scanned last has passed quietly or not, and the
coming one binds as before or not. -/
def refreshStep (h : Nat) (latched : Bool) (s : State) : State :=
  let x := headGet s h
  let ls := (List.range 8).filter (showsLayer x)
  let b := ls.map (fun l => (l, boundOf s (layerDest h l)))
  let fading := ls.any (fun l => decide ((destGet s (layerDest h l)).fadeN ≠ 0))
  let steady := !latched && !fading && decide (b = x.bound)
  let under := (halves s h).any (fun g => (headGet s g).uneasy)
  let quiet := if x.steady ∧ !under then x.quiet + 1 else 0
  let go := x.act.mode.sr && steady
  let s0 := (halves s h).foldl (fun s g => headPut g { headGet s g with uneasy := false } s) s
  let s1 := headPut h { headGet s0 h with
    bound := b, steady := steady, quiet := quiet
    srEntry := go && decide (x.state = 2 ∧ x.act.mode.srFrames ≤ quiet + 1) } s0
  if x.state = 3 then (if steady then s1 else setRefresh h 2 s1)
  else if go && decide (x.act.mode.srFrames ≤ quiet) then setRefresh h 3 s1
  else s1

/-! ### HBM sleep (R227) -/

/-- The lowest tolerance any head reports, in ns. -/
def lowestTolerance (s : State) : Nat := ((List.range 64).map (tolerance s)).foldl min 0xFFFFFF

/-- HBM may rest while nothing else uses it: no frame is being written, no job or transfer runs. -/
def hbmIdle (s : State) : Bool :=
  s.sources.all (fun e => e.2.writing.isEmpty) && s.engines.jobs.all (fun e => decide (e.2.state = 2)) && s.uploads.isEmpty

/-- HBM enters self-refresh or power-down while every tolerance exceeds the threshold (R227). -/
def hbmRest (s : State) : State :=
  let t := lowestTolerance s
  let n := if !hbmIdle s then 0 else if 3000 < t then 2 else if 1050 < t then 1 else 0
  { s with health := { s.health with hbmSleep := n } }

/-- HBM starts its exit when the lowest tolerance has fallen to the threshold of its state, or something else needs it
(R227). -/
def hbmWake (s : State) : State :=
  let limit := if s.health.hbmSleep = 2 then 3000 else 1050
  if s.health.hbmSleep = 0 then s
  else if hbmIdle s && decide (limit < lowestTolerance s) then s
  else { s with health := { s.health with hbmSleep := 0 } }

def execHbmSleepExit (s : State) : Host.Outcome State Fault Refusal := .next (hbmWake s)

/-! ### Line events (R218, R221, R231–R234, R238) -/

/-- A head is at a line. -/
def atLine (h n : Nat) (s : State) : State := headPut h { headGet s h with line := n, lineAt := now s, served := [] } s

/-- The coming frame of a head, after its latch; the pre-scale source of a fade that has ended goes (R178, R211). -/
def planFrame (h : Nat) (latched : Bool) (s : State) : State :=
  let s1 := bindLayers h (turnPrescale h (headGet s h).prescaleOk s)
  let s2 := headPut h { headGet s1 h with opaqueNow := (List.range 8).filter (isOpaque s1 h) } s1
  let s3 := (List.range 8).foldl (fun s l => if showsLayer (headGet s h) l then compareColour h l s else s) s2
  -- the packets that arrived with what a layer has bound (R312)
  let s4 := (List.range 8).foldl (fun s l => ancBind h l ((boundOf s (layerDest h l)).map Prod.fst) s) s3
  hbmRest (refreshStep h latched s4)

/-- The apply line of a head or pair: the latch, or without one the changes of the routes alone, then the coming
frame (R177, R221). While a stopped generator restarts there is none: the references of its latch serve the first new
frame (R223). -/
def applyLine (h : Nat) (s : State) : State :=
  let x := headGet s h
  if x.state = 1 ∨ (x.restart && !x.scanning) = true then s
  else
    let (s1, latched) := sampleSet h s
    let s2 := if latched then s1 else (List.range 8).foldl (fun s l => applyDest (layerDest h l) s) s1
    if (headGet s2 h).state = 0 then s2 else planFrame h latched s2

/-- Output pixel (x, y) of the frame a head has scanned, in its own half's coordinates (R200, R237). -/
def headPixel (s : State) (h : Nat) (x y : Nat) : List Nat :=
  let (g, off) := composer s h
  let k := headGet s g
  compose s k.scanSet (halfOf k.scanSet (oddPaired s h)) k.scanOpaque (headGet s h).off (fun l => (tget k.scanShown l).map (fun e =>
    { old := e.1.head?, new := e.2.1.head?, i := e.2.2 % 256, n := e.2.2 / 256 })) (x + off) y

/-- The encoding a sink receives its raster in: sampling and depth. An encode context takes it at 4:4:4 with 10
bits. -/
def sinkEncoding (s : State) (k : Sink) : Nat × Nat :=
  match k with
  | .link _ _ _ samp depth => (samp, depth)
  | .ip n => ((tget s.eth.flows n).map (fun f => (f.fmt.sampling, f.fmt.depth))).getD (1, 1)
  | _ => (1, 1)

/-- The samples of pixel x of a line in the order a sink is sent them (R286): R, G, B or Cb, Y, Cr; in 4:2:2 Cb, Y, Cr,
Y of each pair. -/
def sentSamples (samp depth : Nat) (line : Nat → List Nat) (w x : Nat) : List Nat :=
  let p := sinkPixel samp depth line w x
  let q := if x % 2 = 0 then p else sinkPixel samp depth line w (x - 1)
  match samp with
  | 0 => p
  | 1 => [p.getD 1 0, p.getD 0 0, p.getD 2 0]
  | _ => [q.getD (1 + x % 2) 0, p.getD 0 0]

/-- The active lines of a scanned frame as its sink receives them (R239, R286). -/
def scanLines (s : State) (h : Nat) : List (List Nat) :=
  let x := headGet s h
  let w := headWidth x.scanSet
  let (samp, depth) := sinkEncoding s x.feeding
  (List.range x.scanSet.mode.timing.vactive).map (fun y =>
    (List.range w).flatMap (sentSamples samp depth (fun j => headPixel s h j y) w))

/-- The colour a raster is declared with, of which CUSTOM says nothing. -/
def rasterColour (st : HeadSet) : Option Nat :=
  let p := st.comp.outPreset
  let m := if 6 ≤ p ∧ p ≤ 8 then p - 5 else 0
  if p = 15 then none
  else some (m + 8 * st.comp.transfer + 32 * st.comp.primaries + 128 * b1 (decide (p < 6)))

/-- A scanned frame on a transmit sub-stream (R286). -/
def frameBlocks (s : State) (h sub samp depth : Nat) : List (BitVec 2 × BitVec 128) :=
  let x := headGet s h
  let colour := rasterColour x.scanSet
  framed sub x.frameCount (4 * b1 x.scanMarker + 8 * b1 colour.isSome) (colour.getD 0) samp depth (headWidth x.scanSet)
    (scanLines s h)

/-- The CRCs of a scanned frame (R230, R231). -/
def copyCrcs (h : Nat) (s : State) : State :=
  let x := headGet s h
  let w := headWidth x.scanSet
  headPut h { x with
    crcVals := x.scanSet.crc.map (fun r => crcRect (headPixel s h) (clipRect r w x.scanSet.mode.timing.vactive))
    crcFrame := x.frameCount, crcUnderrun := x.underran } s

/-- A scanned frame has left to its sink, when that can send it (R286, R294). -/
def sendRaster (h : Nat) (s : State) : State :=
  let x := headGet s h
  match x.feeding with
  | .none => s
  | .link p sub lanes samp depth =>
    if (portGet s p).state = 5 ∧ (portGet s p).mode = 1 then sendSeq p sub (subLanes sub (2 ^ lanes)) (frameBlocks s h sub samp depth) s else s
  | .ip n => if flowSends s n then sendVideo n (scanLines s h) s else s
  | .encoder e =>
    -- a CUSTOM output matrix does not say whether its output is RGB
    let p := x.scanSet.comp.outPreset
    let rgb := if p = 15 then decide (Config.freeNat s.free % 2 = 1) else !decide (6 ≤ p ∧ p ≤ 8)
    let tag : Colour := { transfer := x.scanSet.comp.transfer, primaries := x.scanSet.comp.primaries
                          matrix := if x.scanSet.comp.primaries = 3 then 3 else 2 }
    encodeMod e (fun y => { y with brought := some (picture420 y.h265 false y.w y.h (fun i j =>
      encodeYuv rgb x.scanSet.comp.primaries (headPixel s h i j)), tag) }) { s with free := s.free + 1 }

/-- The end of a scanned frame: its CRCs, then FRAME_DONE (R231, R234). -/
def frameDone (h : Nat) (s : State) : State :=
  if (headGet s h).scanning then sendRaster h (raise h 2 (copyCrcs h s)) else s

/-- The references of the frame that has been scanned end with its last active line (R222). -/
def frameOver (h : Nat) (s : State) : State :=
  let x := headGet s h
  let s1 := x.scanShown.foldl (fun s e => (e.2.1 ++ e.2.2.1).foldl (fun s i => dropRef i (.layer h e.1) s) s)
    (headPut h { x with scanning := false, scanShown := [] } s)
  -- a generator that a latch has stopped restarts no earlier than now (R223)
  if x.restart ∧ x.scanning then headPut h { headGet s1 h with zeroFrom := restartFrom s x.act } s1 else s1

/-- A head and the other half of its pair, the even one first (R235). -/
def lineHeads (s : State) (h : Nat) : List Nat :=
  let b := if oddPaired s h then h - 1 else h
  if (headGet s b).paired then [b, b + 1] else [b]

/-- A head stands on the line it was last seen at. -/
def onLine (s : State) (x : Head) : Bool :=
  let t := linesUs (runSet x) 1
  decide (now s = x.lineAt ∨ (now s - x.lineAt) * t.den < t.num)

/-- An event of the present line has been served with another one of it. -/
def wasServed (s : State) (h code : Nat) : Bool := onLine s (headGet s h) && decide (code ∈ (headGet s h).served)

/-- The event that comes for it is then the same one. -/
def unserve (h code : Nat) (s : State) : State :=
  headPut h { headGet s h with served := (headGet s h).served.filter (fun k => decide (k ≠ code)) } s

/-- Events at the start of a line, for a head and the other half of its pair, in the order of R234: FRAME_DONE, the
latch, BLANK_START, LINE_MATCH. Every event that falls on the line is served, whichever of them has come. -/
def lineEvents (h code n : Nat) (s : State) : State :=
  let hs := lineHeads s h
  let b := hs.headD h
  let x := headGet s b
  let blank := code = 0 ∨ n = (runSet x).mode.timing.vactive
  let apply := code = 1 ∨ n = x.act.mode.applyLine
  let meets := code = 2 ∨ n = x.act.mode.lineMatch
  let codes := (if blank then [0] else []) ++ (if apply then [1] else []) ++ (if meets then [2] else [])
  let s1 := hs.foldl (fun s g => atLine g n s) s
  let s2 := if blank then
      hs.foldl (fun s g => restPort g s) (hs.foldl (fun s g => frameOver g s) (hs.foldl (fun s g => frameDone g s) s1))
    else s1
  let s3 := if apply then applyLine b s2 else s2
  let s4 := if blank then hs.foldl (fun s g => raise g 0 s) (hbmRest s3) else s3
  let s5 := if meets then hs.foldl (fun s g => raise g 1 s) s4 else s4
  hs.foldl (fun s g => headPut g { headGet s g with
    served := codes.filter (fun k => decide (k ≠ code ∨ g ≠ h)) } s) s5

/-- Serve an event of a line unless it has been served with another one of that line. -/
def lineEvent (h code n : Nat) (s : State) : State :=
  if (headGet s h).state = 0 then s
  else if wasServed s h code then unserve h code s
  else lineEvents h code n s

/-- The apply line (R221); `same` says that a frame has closed at Toybox in the same cycle (R16), `more` how many closes
before that one did. -/
def execHeadApplyLine (head : Fin 64) (s : State) (same : Bool := false) (more : Nat := 0) :
    Host.Outcome State Fault Refusal :=
  .next (awake (serveRequest (closesIn same more) (lineEvent head.val 1 (headGet s head.val).act.mode.applyLine)) s)

/-- Line VACTIVE: the end of the active scan. An apply line on it may meet closes in its cycle (R16). -/
def execBlankStart (head : Fin 64) (s : State) (rivals : Nat := 0) : Host.Outcome State Fault Refusal :=
  .next (awake (serveRequest rivals (lineEvent head.val 0 (runSet (headGet s head.val)).mode.timing.vactive)) s)

/-- LINE_MATCH; an apply line on it may meet closes in its cycle (R16). -/
def execLineMatch (head : Fin 64) (s : State) (rivals : Nat := 0) : Host.Outcome State Fault Refusal :=
  let x := headGet s head.val
  if x.act.mode.lineMatch = 65535 then .next s
  else .next (awake (serveRequest rivals (lineEvent head.val 2 x.act.mode.lineMatch)) s)

/-- Tiles of a layer's frame that are skipped and fetched, over both inputs of a fade (R215). -/
def frameTiles (s : State) (odd : Bool) (opaq : List Nat) (st : HeadSet) (e : Nat × List Nat × List Nat × Nat) : Nat × Nat :=
  (e.2.1 ++ e.2.2.1).foldl (fun a i =>
    let k := tileCounts s e.1 st odd opaq i
    (a.1 + k.1, a.2 + k.2)) (0, 0)

/-- The fetch-start line: conversions show what has been converted, and the layers of the coming frame begin
fetching under the plan made at the apply line (R173, R199, R200, R218, R222). -/
def execHeadFetchStart (head : Fin 64) (s : State) : Host.Outcome State Fault Refusal :=
  let h := head.val
  let x := headGet s h
  if x.state = 0 || held s then .next s
  else
    let s1 := atLine h (x.act.mode.timing.vtotal - 8) s
    let even := headGet s (if oddPaired s h then h - 1 else h)
    let s1 := headPut h { headGet s1 h with
      scanSet := x.act, scanOpaque := even.opaqueNow, scanMarker := even.srEntry } s1
    if x.state ≠ 2 ∨ oddPaired s h then .next s1
    else
      let ls := (List.range 8).filter (showsLayer x)
      let s2 := ls.foldl (fun s l => rebindLayer (layerDest h l) (.layer h l) s) s1
      let shown := ls.filterMap (fun l =>
        let d := destGet s2 (layerDest h l)
        if d.shown.isEmpty ∧ d.shownIn.isEmpty then none else some (l, d.shown, d.shownIn, d.fadeI + 256 * d.fadeN))
      let counts := fun (odd : Bool) => shown.map (fun e => (e.1, frameTiles s2 odd x.opaqueNow x.act e))
      let count := fun (odd : Bool) (y : Head) => { y with
        tilesSkipped := (counts odd).map (fun e => (e.1, e.2.1)), tilesFetched := (counts odd).map (fun e => (e.1, e.2.2)) }
      let s3 := ls.foldl (fun s l =>
        destPut (layerDest h l) { destGet s (layerDest h l) with shown := [], shownIn := [] } s) s2
      let s4 := headPut h (count false { headGet s3 h with scanShown := shown }) s3
      .next (if x.paired then headPut (h + 1) (count true (headGet s4 (h + 1))) s4 else s4)

/-- Line 0 of one head: a frame starts; the sink bound now receives it where its port is ACTIVE (R238, R294, R296). A
generator that restarts has its line 0 no earlier than R223 places it. -/
def lineZero (h : Nat) (s : State) : State :=
  let x := headGet s h
  if x.state = 0 ∨ (x.restart && (x.scanning || fgt x.zeroFrom ⟨now s, 1⟩)) = true then s
  else
    let s1 := atLine h 0 s
    let scan := decide (x.state = 1 ∨ x.state = 2)
    let feed : Sink := match x.act.sink with
      | .link p sub lanes samp depth => if (portGet s p).state = 5 ∧ (portGet s p).mode = 1 then .link p sub lanes samp depth else .none
      | k => k
    let s2 := match x.act.sink with
      | .link p _ _ _ _ =>
        if scan ∧ (portGet s p).lowExit.isSome then portMod p (fun y => { y with low2Missed := sat 0xFFFFFFFF y.low2Missed 1 }) s1
        else s1
      | .ip n => if scan then ancFrame n (stampFrame n s1) else s1
      | _ => s1
    headPut h { headGet s2 h with
      frameCount := (x.frameCount + 1) % 2 ^ 32, off := [], underran := false, restart := false, scanning := scan
      scanSet := if x.state = 1 then x.act else x.scanSet
      feeding := if scan then feed else .none } s2

/-- Line 0 of a head and the other half of its pair (R235); it and the domain's frame tick are one event (R218). -/
def execHeadLineZero (head : Fin 64) (s : State) : Host.Outcome State Fault Refusal :=
  let h := head.val
  if (headGet s h).state = 0 || held s then .next s
  else if wasServed s h 3 then .next (unserve h 3 s)
  else
    .next ((lineHeads s h).foldl (fun s g =>
      let s1 := lineZero g s
      headPut g { headGet s1 g with served := if g = h then [4] else [3, 4] } s1) s)

/-- The frame tick of a domain marks line 0 of every head on it (R218). -/
def tickHeads (td : Nat) (s : State) : State :=
  (List.range 64).foldl (fun s h =>
    let x := headGet s h
    if x.state = 0 ∨ x.act.mode.td ≠ td then s
    else if wasServed s h 4 then unserve h 4 s
    else
      let s1 := lineZero h s
      headPut h { headGet s1 h with served := [3] } s1) s

/-- A layer's fetch has not delivered a line the compositor needs (R232, R233); on a pair the other half's
layer goes off from the next line (R237). Each half has its own UNDERRUN and its own flag. -/
def execLayerUnderrun (head : Fin 64) (layer : Fin 8) (line pixel : BitVec 16) (s : State) :
    Host.Outcome State Fault Refusal :=
  let h := head.val
  let l := layer.val
  let x := headGet s h
  let (g, left) := composer s h
  if x.state < 2 ∨ !x.scanning ∨ x.scanSet.mode.timing.vactive ≤ line.toNat ∨ (tget (headGet s g).scanShown l).isNone
    ∨ turnedOff x.off l (pixel.toNat + left) line.toNat then .next s
  else
    let s1 := headPut h { x with
      off := (l, line.toNat, pixel.toNat + left) :: x.off
      underruns := lset x.underruns l (sat 0xFFFFFFFF (x.underruns.getD l 0) 1)
      underran := true, uneasy := true, underrunSecond := some (second s) } s
    let s2 := if x.paired then
        let q := h / 2 * 2 + (1 - h % 2)
        let y := headGet s1 q
        if y.off.any (fun o => decide (o.1 = l)) then s1
        else headPut q { y with off := (l, line.toNat + 1, 0) :: y.off } s1
      else s1
    let s3 := if x.underran then s2 else raise h 3 s2
    .next (if x.underrunSecond = some (second s) then s3
      else postNtf (holder s3 0 h) 0x0802 [word h, word (2 ^ l), word line.toNat, word x.frameCount] s3)

end Sys2Proof.Machine
end

