-- ==== Sys2Proof/Machine/Audio.lean ====
section
/-! DEFINITION. The audio-class commands (R248–R263) and the events of the audio router (R251, R255,
R258–R262), with the stall of an ingress stream, which ends a link's audio (R89). -/

namespace Sys2Proof.Machine

open Sys2Proof

/-! ### Channels of the router (R247, R248) -/

/-- The lowest run of n channel numbers below 2,048 that the taken runs leave free. -/
def freeRun (taken : List (Nat × Nat)) (n : Nat) : Option Nat :=
  (sortBy (fun a b => decide (a ≤ b)) (0 :: taken.map (fun e => e.1 + e.2))).find? (fun f =>
    decide (f + n ≤ 2048) && taken.all (fun e => decide (e.1 + e.2 ≤ f ∨ f + n ≤ e.1)))

def inTaken (s : State) : List (Nat × Nat) := s.audio.inputs.map (fun e => (e.2.first, e.2.channels))

def outTaken (s : State) : List (Nat × Nat) := s.audio.outputs.map (fun e => (e.2.first, e.2.channels))

/-! ### CREATE_AUDIO_INPUT, DELETE_AUDIO_INPUT (R248, R259, R262) -/

/-- Samples of one channel in a packet, at most. -/
def packetSamples (fs : Nat) (p125 : Bool) : Nat :=
  if p125 then [6, 6, 12].getD fs 0 else [45, 48, 96].getD fs 0

/-- Field ranges of the body (Table 10-1, Table 10-6, R259). -/
def inputRange (kind channels fs flow : Nat) (p125 l16 : Bool) : Bool :=
  decide (1 ≤ kind ∧ kind ≤ 4 ∧ fs ≠ 3 ∧ 1 ≤ channels ∧ channels ≤ [16, 64, 64, 1].getD (kind - 1) 0)
    && (if kind = 2 ∨ kind = 3 then
          decide (flow < 1024 ∧ channels * packetSamples fs p125 * (if l16 then 2 else 3) ≤ 1440)
        else true)

/-- Fields that must agree (Table 10-6). -/
def inputAgrees (kind fs flow : Nat) (p125 : Bool) (src : Handle) : Bool :=
  (decide (kind ≠ 4) || decide (fs = 0)) && (decide (kind = 2 ∨ kind = 3) || (!p125 && decide (flow = 0xFFFF)))
    && (decide (kind ≠ 3) || decide (src = 0))

/-- What the source must be for the kind; `unsupported` for a stream that carries another codec (R260). -/
def inputSource (s : State) (kind : Nat) (h : Handle) (x : Source) : Option Status :=
  match kind, x.kind with
  | 1, .link _ _ _ => none
  | 2, .st2110 _ _ _ => none
  | 4, .entry =>
    (match tget s.eth.entries h with
    | some e =>
      if !e.audioEn then some .inconsistent
      else if e.audioPt = 0 ∨ e.audioPt = 8 then none else some .unsupported
    | none => some .inconsistent)
  | _, _ => some .inconsistent

def newInput (c : Ctx) (owner first : Nat) : AudioIn :=
  { owner := owner, kind := bf c 1 2 0, channels := bf c 1 10 4, fs := bf c 1 12 11, ptime125 := bb c 1 13
    l16 := bb c 1 14, flow := if bf c 2 15 0 = 0xFFFF then none else some (bf c 2 15 0), first := first }

/-- Attach the input; channels that name its source hear it from now on (R262). -/
def attachInput (c : Ctx) (owner : Nat) (h : Handle) (s : State) : CmdOut :=
  match freeRun (inTaken s) (bf c 1 10 4) with
  | none => refuse .quota
  | some f =>
    let s1 := setAudio { s.audio with inputs := tset s.audio.inputs h (newInput c owner f) } s
    .done .ok [word h, word f] (refresh (fun _ k => decide (k.sel = 1 ∧ k.src = h)) 0 s1)

def cmdCreateAudioInput (c : Ctx) (s : State) : CmdOut :=
  let kind := bf c 1 2 0
  let flow := bf c 2 15 0
  let checks : Option Status → CmdOut → CmdOut := fun e k =>
    if !inputRange kind (bf c 1 10 4) (bf c 1 12 11) flow (bb c 1 13) (bb c 1 14) then refuse .range
    else if !inputAgrees kind (bf c 1 12 11) flow (bb c 1 13) (bn c 0) then refuse .inconsistent
    else match e with
      | some e => refuse e
      | none =>
        if (kind = 2 ∨ kind = 3) ∧ !rxFlow s flow 1 then refuse .inconsistent
        else if (inTaken s).foldl (fun n e => n + e.2) (bf c 1 10 4) > 2048 then refuse .quota
        else if (inGet s (bn c 0)).isSome ∨ s.audio.inputs.any (fun e => e.2.flow.isSome && decide (e.2.flow = some flow))
          then refuse .busy
        else k
  let flowOk := decide (kind ≠ 2 ∧ kind ≠ 3) || decide (1023 < flow) || ownsFlow s c.page flow
  if kind = 3 then
    (if !flowOk then refuse .notOwner
    else checks none <|
      let (h, s1) := newHandle c.page 1 s
      attachInput c c.page h (srcPut h { owner := c.page, kind := .audio flow, state := .running } s1))
  else withOwnSource c.page s (bn c 0) fun x =>
    if !flowOk then refuse .notOwner
    else checks (inputSource s kind (bn c 0) x) (attachInput c x.owner (bn c 0) s)

def cmdDeleteAudioInput (c : Ctx) (s : State) : CmdOut :=
  withOwnSource c.page s (bn c 0) fun _ =>
    match inGet s (bn c 0) with
    | none => refuse .noSuchHandle
    | some x => .done .ok [] (if x.kind = 3 then resizeRings (deleteSource (bn c 0) s) else dropInput (bn c 0) s)

/-! ### Outputs (R249, R262) -/

/-- The identifier of an output keeps to its form: a transmit port, or a flow entry. -/
def outputGood (id : Nat) : Bool :=
  (decide (id / 2 ^ 28 = 1 ∧ id % 2 ^ 28 < 128 ∧ 16 ≤ id % 32)) || decide (id / 2 ^ 28 = 2 ∧ id % 2 ^ 28 < 1024)

/-- The partition that owns an output: the holder of its port, or of its flow. -/
def outputOwner (s : State) (id : Nat) : Nat :=
  if id / 2 ^ 28 = 1 then holder s 1 (id % 32) else ((tget s.eth.flows (id % 65536)).map (fun f => f.owner)).getD 0

/-- The timestamp a flow output starts from (R259). -/
def firstRtp (s : State) : Word :=
  if followsPtp s then word ((ptpNow s).1 * 48000 + (ptpNow s).2.1 * 48 / 1000000) else 0

def cmdCreateAudioOutput (c : Ctx) (s : State) : CmdOut :=
  let id := bn c 0
  let n := bf c 1 6 0
  if outputGood id ∧ (if id / 2 ^ 28 = 1 then holder s 1 (id % 32) ≠ c.page else !ownsFlow s c.page (id % 65536))
    then refuse .notOwner
  else if !outputGood id ∨ n = 0 ∨ 64 < n then refuse .range
  else if id / 2 ^ 28 = 1 ∧ (16 < n ∨ bb c 1 8) then refuse .range
  else if id / 2 ^ 28 = 2 ∧ !((tget s.eth.flows (id % 65536)).map (fun f => f.tx && decide (f.essence = 1))).getD false
    then refuse .range
  else if 2048 < (outTaken s).foldl (fun k e => k + e.2) n then refuse .quota
  else if (outGet s id).isSome then refuse .busy
  else match freeRun (outTaken s) n with
    | none => refuse .quota
    | some f =>
      let o : AudioOut := {
        owner := outputOwner s id, channels := n, ptime125 := bb c 1 8, first := f
        chans := (List.range n).map (fun i => (i, {})), rtp := if id / 2 ^ 28 = 2 then firstRtp s else 0 }
      .done .ok [word f] (outPut id o s)

/-- An output of the issuer, or any for P0. -/
def withOutput (c : Ctx) (s : State) (k : AudioOut → CmdOut) : CmdOut :=
  let id := bn c 0
  if !outputGood id then refuse .range
  else if c.page ≠ 0 ∧ outputOwner s id ≠ c.page then refuse .notOwner
  else match outGet s id with
    | none => refuse .noSuchHandle
    | some o => k o

/-- An output goes; changes it has not applied count as resolved (R52). -/
def deleteOutput (id : Nat) (s : State) : State :=
  match outGet s id with
  | none => s
  | some o => o.pending.foldl (fun s p => applied p.2.2.1 (.audio id) p.2.2.2 s)
      (setAudio { s.audio with outputs := tdel s.audio.outputs id } s)

def cmdDeleteAudioOutput (c : Ctx) (s : State) : CmdOut :=
  withOutput c s fun _ => .done .ok [] (deleteOutput (bn c 0) s)

/-! ### SET_OUTPUT_CHANNELS (R250–R257) -/

/-- The configuration of the i-th channel that a body names (Table 10-7). -/
def channelCfg (c : Ctx) (i : Nat) : ChanCfg :=
  { byP0 := decide (c.page = 0), sel := bf c 1 14 13, src := bn c 2, inCh := bf c 3 5 0 + i, mute := bb c 1 15, align := bb c 1 16
    gain := sbits (bw c 4) 11 0, ramp := if bf c 4 28 16 = 0 then 480 else bf c 4 28 16
    delay := if bb c 1 16 then sbits (bw c 5) 16 0 else bf c 5 16 0, delayMax := bf c 6 16 0 }

/-- Ranges and agreement of a body, for an output of n channels. -/
def channelsFault (c : Ctx) (n : Nat) : Option Status :=
  let k := channelCfg c 0
  if bf c 1 12 6 = 0 ∨ n < bf c 1 5 0 + bf c 1 12 6 ∨ k.sel = 3 then some .range
  else if k.gain < -960 ∨ 240 < k.gain ∨ k.ramp < 48 ∨ 4800 < k.ramp ∨ 96000 < k.delayMax then some .range
  else if k.align ∧ (k.delay < -48000 ∨ 48000 < k.delay) then some .range
  else if !k.align ∧ (k.delayMax : Int) < k.delay then some .range
  else if k.sel = 2 ∧ !(destGood k.src && decide (dKind k.src = 1)) then some .range
  else if k.align ∧ k.sel ≠ 2 then some .inconsistent
  else if k.sel = 0 ∧ k.src ≠ 0 then some .inconsistent
  else none

/-- What a selection names must be the issuer's to use (R250): the status, where it is not. -/
def selectionFault (page owner : Nat) (s : State) (k : ChanCfg) : Option Status :=
  match k.sel with
  | 1 =>
    match handleFault page s k.src [1] with
    | some e => some e
    | none =>
      match liveSource s k.src, derived s owner k.src with
      | none, _ => some .noSuchHandle
      | some _, some (_, false) => some .notOwner
      | some _, _ => none
  | 2 => if page ≠ 0 ∧ holder s 0 (dHead k.src) ≠ page then some .notOwner else none
  | _ => none

def cmdSetOutputChannels (c : Ctx) (s : State) : CmdOut :=
  withOutput c s fun o =>
    let k := channelCfg c 0
    let pre := if k.sel = 1 then selectionFault c.page o.owner s k else none
    match pre with
    | some e => refuse e
    | none => match channelsFault c o.channels with
      | some e => refuse e
      | none => match selectionFault c.page o.owner s k with
        | some e => refuse e
        | none =>
          if k.sel = 1 ∧ (inGet s k.src).isNone then refuse .inconsistent
          else stage c [.audio (bn c 0) (bf c 1 5 0) ((List.range (bf c 1 12 6)).map (channelCfg c))] [] s

/-! ### GET_AUDIO_STATUS, SET_AUDIO_CLOCK (R262, R263) -/

/-- PTP lock state of a flow output's timestamps: unlocked where the domains do not follow PTP (R259, R263). -/
def rtpLock (s : State) : Nat := if followsPtp s then (ptpNow s).2.2 else 1

/-- CLEAR of a grantee zeroes the counters too (DEDUCED, log entry 100). -/
def cmdGetAudioStatus (c : Ctx) (s : State) : CmdOut :=
  let h := bn c 0
  if hType h = 1 then
    withSource c.page s h fun _ => match inGet s h with
      | none => refuse .range
      | some x => .done .ok [pack [(b1 x.gap, 1, 0), (x.fs, 3, 2)], word x.lostPkts, word (gapCount s x), word x.badPkt]
          (if bb c 1 0 then inMod h (fun x => { x with
            lostPkts := 0, gapSamples := 0, badPkt := 0, gapSince := max x.gapSince (now s) }) s else s)
  else withOutput c s fun o =>
    .done .ok [word (if h / 2 ^ 28 = 2 then rtpLock s else 0), word o.clips, word o.rampCuts, word o.clamps, word (audioPages o)]
      (if bb c 1 0 then outPut h { o with clips := 0, rampCuts := 0, clamps := 0 } s else s)

/-- Every output ramps down over 1 ms; the clock moves then (R262). -/
def cmdSetAudioClock (c : Ctx) (s : State) : CmdOut :=
  let s1 := hushAll true s
  .done .ok [] (setAudio { s1.audio with moving := some (bf c 0 3 0, now s) } s1)

def specCreateAudioInput : OpSpec :=
  { op := 0x0900, maxLen := 12, dflt := [0, pack [(1, 12, 11)], 0xFFFF], rsv := within [0xFFFFFFFF, field 2 0 ||| field 14 4, field 15 0]
    log := always, named := nameMade, run := cmdCreateAudioInput }

def specDeleteAudioInput : OpSpec := { op := 0x0901, maxLen := 4, log := always, named := nameWord 0, run := cmdDeleteAudioInput }

def specCreateAudioOutput : OpSpec :=
  { op := 0x0902, maxLen := 8, rsv := within [0xFFFFFFFF, field 6 0 ||| field 8 8], log := always, run := cmdCreateAudioOutput }

def specDeleteAudioOutput : OpSpec := { op := 0x0903, maxLen := 4, log := always, run := cmdDeleteAudioOutput }

def specSetOutputChannels : OpSpec :=
  { op := 0x0904, maxLen := 28, dflt := [0, pack [(1, 12, 6)], 0, 0, pack [(480, 28, 16)], 0, 9600]
    rsv := within [0xFFFFFFFF, field 16 0, 0xFFFFFFFF, field 5 0, field 11 0 ||| field 28 16, field 16 0, field 16 0]
    run := cmdSetOutputChannels }

def specGetAudioStatus : OpSpec :=
  { op := 0x0905, maxLen := 8, rsv := within [0xFFFFFFFF, 1], log := fun b => bit (wd b 1) 0
    named := fun b _ => if hType (wd b 0).toNat = 1 then (wd b 0).toNat else 0, run := cmdGetAudioStatus }

def specSetAudioClock : OpSpec :=
  { op := 0x0906, p0 := true, maxLen := 4, rsv := within [field 3 0], log := always, run := cmdSetAudioClock }

def execCreateAudioInput (page : Fin 16) (d : Desc) (s : State) : Host.Outcome State Fault Refusal :=
  if d.Wf then .next (issue specCreateAudioInput page d s) else .fault .illFormed

def execDeleteAudioInput (page : Fin 16) (d : Desc) (s : State) : Host.Outcome State Fault Refusal :=
  if d.Wf then .next (issue specDeleteAudioInput page d s) else .fault .illFormed

def execCreateAudioOutput (page : Fin 16) (d : Desc) (s : State) : Host.Outcome State Fault Refusal :=
  if d.Wf then .next (issue specCreateAudioOutput page d s) else .fault .illFormed

def execDeleteAudioOutput (page : Fin 16) (d : Desc) (s : State) : Host.Outcome State Fault Refusal :=
  if d.Wf then .next (issue specDeleteAudioOutput page d s) else .fault .illFormed

def execSetOutputChannels (page : Fin 16) (d : Desc) (s : State) : Host.Outcome State Fault Refusal :=
  if d.Wf then .next (issue specSetOutputChannels page d s) else .fault .illFormed

def execGetAudioStatus (page : Fin 16) (d : Desc) (s : State) : Host.Outcome State Fault Refusal :=
  if d.Wf then .next (issue specGetAudioStatus page d s) else .fault .illFormed

def execSetAudioClock (page : Fin 16) (d : Desc) (s : State) : Host.Outcome State Fault Refusal :=
  if d.Wf then .next (issue specSetAudioClock page d s) else .fault .illFormed

/-! ### Events of inputs (R251, R258, R260) -/

/-- A packet that a G.711 input discards (R260). -/
def badG711 (p : AudPacket) : Bool := decide ((p.pt ≠ 0 ∧ p.pt ≠ 8) ∨ p.bytes % 8 ≠ 0 ∨ p.bytes = 0)

/-- A packet is discarded by a G.711 input and counted (R260). -/
def badPacket (h : Handle) (s : State) : State :=
  raise 225 0 (inMod h (fun x => { x with badPkt := sat 0xFFFFFFFF x.badPkt 1 }) s)

/-- G.711 expands to 16 bits and then to 24 (R251). -/
def widen (x : AudioIn) (p : AudPacket) : List Int :=
  if x.kind = 4 then p.samples.map (fun v => 256 * (Config.g711Expand (decide (p.pt = 0)) (BitVec.ofInt 8 v)).toInt)
  else if x.l16 ∧ x.kind ≠ 1 then p.samples.map (fun v => 256 * v) else p.samples

/-- A packet arrives at an input (R258): it is buffered; after a gap playout resumes once the buffer has
reached its target. -/
def audioArrive (h : Handle) (p : AudPacket) (s : State) : State :=
  match inGet s h with
  | none => s
  | some x =>
    if x.kind = 4 ∧ badG711 p then badPacket h s
    else
      let l := widen x p
      let first := x.resumeFrom.getD (now s)
      let s1 := inMod h (fun x => { x with
        buffered := forgetPlayed (now s) x.buffered ++ [(now s + bufferTarget x, l)]
        resumeFrom := if x.gap then some first else none, gapDue := none }) s
      if x.gap ∧ first + bufferTarget x ≤ now s then resume h s1 else s1

def execAudioPacket (source : Word) (p : AudPacket) (s : State) : Host.Outcome State Fault Refusal :=
  .next (audioArrive source.toNat p s)

def execAudioPlayoutMissing (source : Word) (s : State) : Host.Outcome State Fault Refusal :=
  match inGet s source.toNat with
  | none => .next s
  | some x =>
    if x.gap then .next s
    else if missedBefore (now s) x then .next (enterGap source.toNat (now s) s)
    else .next (missOne source.toNat s)

/-- The buffer has reached its target (R258). -/
def execAudioBufferTarget (source : Word) (s : State) : Host.Outcome State Fault Refusal :=
  match inGet s source.toNat with
  | none => .next s
  | some x => match x.gap, x.resumeFrom with
    | true, some t => .next (if t + bufferTarget x ≤ now s then resume source.toNat s else s)
    | _, _ => .next s

def execSrcUnlock (source : Word) (s : State) : Host.Outcome State Fault Refusal :=
  match inGet s source.toNat with
  | none => .next s
  | some x => .next (if x.locked then raise 223 2 (inMod source.toNat (fun x => { x with locked := false }) s) else s)

def execSrcRelock (source : Word) (s : State) : Host.Outcome State Fault Refusal :=
  .next (inMod source.toNat (fun x => { x with locked := true }) s)

/-! ### Events of outputs (R254, R255, R259, R262) -/

/-- The ramp-down has ended: the clock moves and every output ramps up over RAMP (R262). -/
def execAudioClockMove (s : State) : Host.Outcome State Fault Refusal :=
  match s.audio.moving with
  | none => .next s
  | some (td, t) =>
    if now s < t + 1000 then .next s
    else
      let s1 := hushAll false s
      .next (raise 226 0 (setAudio { s1.audio with moving := none, clockTd := td } s1))

/-- A ramp has run its length: the outgoing signal is dropped. -/
def execAudioRampEnd (output : Word) (channel : Fin 64) (s : State) : Host.Outcome State Fault Refusal :=
  match outGet s output.toNat with
  | none => .next s
  | some o => .next (outPut output.toNat { o with chans := tmod o.chans channel.val (fun c =>
      { c with ramp := match c.ramp with
        | some r => if r.length ≤ r.pos then none else some r
        | none => none }) } s)

/-- Samples one after another of each channel in turn. -/
def interleave (l : List (List Int)) (n : Nat) : List Int := (List.range n).flatMap (fun i => l.map (fun c => c.getD i 0))

/-- The samples of a packet leave an output: as an ST 2110-30 packet of its flow, or on its link (R249, R259). -/
def sendAudio (id channels : Nat) (ts : Word) (l : List Int) (s : State) : State :=
  if id / 2 ^ 28 = 2 then
    match tget s.eth.flows (id % 65536) with
    | none => s
    | some f =>
      let p : Rtp := { pt := f.pt, seq := f.seq, ts := ts, ess := .audio l }
      flowMod (id % 65536) (fun f => { f with seq := f.seq + 1 }) ((sendTo f.addr p s).getD s)
  else
    let p := id % 32
    let sub := id / 32 % 4
    let w := (((sinksOn s p).find? (fun e => decide (e.2.2.1 = sub))).map (fun e => 2 ^ e.2.2.2.1)).getD 1
    let d := dataBlocks 24 (l.map (fun v => twos v 24))
    let byte := BitVec.ofNat 8
    -- an AUD packet of 1 ms at 48 kHz (R288)
    let x := portGet s p
    if x.state = 5 ∧ x.mode = 1 ∧ (subLanes sub w).all (fun l => x.lanes.getLsbD l) = true then
      sendSeq p sub (subLanes sub w) (ctlBlock ([0x96, byte sub, byte channels, 1, 48] ++ leBytes d.length 2) :: d) s
    else s

/-- Samples of output channel k on the output's timing domain: through a second converter where that is not the audio
clock's (R251). -/
def outputSamples (s : State) (id k : Nat) (l : List Int) : List Int :=
  match outTd s id with
  | some td => if td = s.audio.clockTd then l else (List.range l.length).map (fun i => (Config.reclock k l i).toInt)
  | none => l

/-- A packet time of an output (R249, R254, R259): 1 ms or 125 µs of every channel. -/
def execAudioOutputPacket (output : Word) (s : State) : Host.Outcome State Fault Refusal :=
  let id := output.toNat
  match outGet s id with
  | none => .next s
  | some o =>
    let n := if o.ptime125 then 6 else 48
    let runs := o.chans.map (fun e => (e.1, chanRun s (48 * now s / 1000) n e.2))
    let clips : Nat := (runs.map (fun r => r.2.2.1)).sum
    let note := decide (0 < clips ∧ o.clipSecond ≠ some (second s))
    -- timestamps count samples, and follow PTP time while the domains do (R259)
    let ts := if id / 2 ^ 28 = 2 ∧ followsPtp s then firstRtp s else o.rtp
    let s1 := outPut id { o with
      chans := runs.map (fun r => (r.1, r.2.2.2)), rtp := ts + word n, clips := sat 0xFFFFFFFF o.clips clips
      clipSecond := if note then some (second s) else o.clipSecond } s
    let s2 := if note then raise 224 0 s1 else s1
    .next (sendAudio id o.channels ts (interleave (runs.map (fun r => outputSamples s id (o.first + r.1) r.2.1)) n) s2)

/-! ### A stalled stream (R89, R258) -/

/-- STALL_FRAMES frame periods without a frame start. -/
def execStreamStallTimeout (source : Word) (s : State) : Host.Outcome State Fault Refusal :=
  match liveSource s source.toNat with
  | none => .next s
  | some x => if stallDue s x then .next (linkGap source.toNat (stallStream source.toNat s)) else .next s

end Sys2Proof.Machine
end

