-- ==== Sys2Proof/Machine/Timing.lean ====
section
/-! DEFINITION. Reference selection and timing domains: the timing-class commands (R264–R280) and the events
of candidates, selector and slews. The frame tick of a domain stands in Ticks.lean. -/

namespace Sys2Proof.Machine

open Sys2Proof

def candMod (p : Candidate → Bool) (f : Candidate → Candidate) (s : State) : State :=
  setTime { s.time with list := tall s.time.list (fun _ c => if p c then f c else c) } s

/-- PTP_STATE on a change of the lock state that is carried (R277). -/
def ptpStep (s s' : State) : State := if (ptpNow s').2.2 = (ptpNow s).2.2 then s' else raise 222 1 s'

/-! ### SET_CANDIDATE, SET_SELECTION (R264–R268) -/

/-- Fields that do not apply to KIND are 0 (Table 11-6). -/
def candAgrees (c : Ctx) : Bool :=
  let kind := bf c 0 6 4
  (decide (kind ≠ 0) || !bb c 0 3)
    && (decide (kind = 1 ∨ kind = 2 ∨ kind = 3) || decide (bf c 1 3 0 = 0))
    && (decide (kind = 1) || (decide (bf c 1 7 4 = 0) && !bb c 1 8))
    && (decide (kind = 3) || decide (bf c 1 23 16 = 0))
    && (decide (kind = 4) || decide (bn c 2 = 0))

/-- Another entry names the same REFIN, or the same port and PTP domain (R264). -/
def candClash (s : State) (i kind port dom : Nat) : Bool :=
  s.time.list.any (fun e => decide (e.1 ≠ i)
    && ((decide (kind = 1 ∨ kind = 2) && decide (e.2.kind = 1 ∨ e.2.kind = 2) && decide (e.2.port = port))
      || (decide (kind = 3 ∧ e.2.kind = 3 ∧ e.2.port = port ∧ e.2.ptpDomain = dom))))

/-- The pulses of a qualified KIND 1 entry are lost: the outputs on its REFIN keep pulsing from the timebase (R276). -/
def flyOutputs (c : Candidate) (s : State) : State :=
  let on := fun (p : Pulse) => decide (p.source = 17 + c.port)
  if c.kind = 1 ∧ c.qualified ∧ s.time.pulses.any (fun p => on p.2) then
    raise 222 0 (setTime { s.time with pulses := tall s.time.pulses (fun _ p =>
      if on p then { p with flywheel := true, due := none } else p) } s)
  else s

/-- Outputs on the REFIN of a KIND 1 entry take its rate (R276). -/
def renewRate (kind port rate : Nat) (s : State) : State :=
  if kind = 1 then setTime { s.time with pulses := tall s.time.pulses (fun _ p =>
    if p.source = 17 + port ∧ p.rate ≠ rate then { p with rate := rate, follow := none, due := none } else p) } s
  else s

def cmdSetCandidate (c : Ctx) (s : State) : CmdOut :=
  let i := bf c 0 2 0
  let kind := bf c 0 6 4
  let port := bf c 1 3 0
  let dom := bf c 1 23 16
  let body : CmdOut :=
    if 5 < kind ∨ ((kind = 1 ∨ kind = 2) ∧ 3 < port) ∨ (kind = 3 ∧ (7 < port ∨ 127 < dom))
      ∨ (kind = 1 ∧ rate1001 (bf c 1 7 4) = 0) then refuse .range
    else if !candAgrees c ∨ candClash s i kind port dom then refuse .inconsistent
    else
      let chosen := decide (s.time.selected = some i)
      let x : Candidate := {
        enable := bb c 0 3, kind := kind, port := port, rate := bf c 1 7 4, falling := bb c 1 8, ptpDomain := dom
        source := bn c 2, cleanSince := now s, pendQual := decide (kind = 5) && bb c 0 3 }
      -- new contents are not qualified: outputs that follow the pulses of the old ones flywheel (R276)
      let s0 := renewRate kind port (bf c 1 7 4) (flyOutputs (candGet s i) s)
      let s1 := if kind = 0 then setTime { s0.time with list := tdel s0.time.list i } s0 else candPut i x s0
      let s2 := if chosen then raise 220 1 (setTime { s1.time with dropped := true, hostCause := true } s1) else s1
      .done .ok [] (ptpStep s s2)
  if kind = 4 then
    withSource c.page s (bn c 2) fun x => match x.kind with
      | .link _ _ _ => body
      | .st2110 _ _ _ => body
      | _ => refuse .range
  else body

def cmdSetSelection (c : Ctx) (s : State) : CmdOut :=
  let dflt := fun (v d : Nat) => if v = 0 then d else v
  let q := dflt (bf c 1 9 0) 10
  let b := dflt (bf c 2 9 0) 10
  let v := dflt (bf c 3 8 0) 100
  if 600 < q ∨ 1000 < b ∨ 500 < v then refuse .range
  else .done .ok [] (setTime { s.time with
    revertive := bb c 0 0, forceEn := bb c 0 1, forceIndex := bf c 0 4 2
    qualTime := q, bandwidth := b, slope := v, hostCause := true } s)

/-! ### Domains and pulses (R274–R276, R279) -/

/-- A domain is in use (R275). -/
def domainUsed (s : State) (td : Nat) : Bool :=
  s.heads.any (fun e => decide (e.2.state ≠ 0 ∧ e.2.act.mode.td = td))
    || (decide (td = 0 ∧ s.sys.maintTiming = true ∧ s.heads.length < 64))
    || s.pool.encodes.any (fun e => decide (e.2.td = td))
    || s.eth.flows.any (fun e => e.2.tx && decide (e.2.td = td))
    || decide (s.audio.clockTd = td ∨ (s.audio.moving.map Prod.fst) = some td)
    || s.time.pulses.any (fun e => decide (e.2.source = td + 1))

def cmdSetTimingDomain (c : Ctx) (s : State) : CmdOut :=
  let td := bf c 0 3 0
  let rate := bf c 0 7 4
  let off := sbits (bw c 1) 31 0
  let p := periodNs rate
  let d := domainGet s td
  if rate1001 rate = 0 ∨ p.num ≤ off.natAbs * p.den then refuse .range
  else if d.rate ≠ rate ∧ domainUsed s td then refuse .state
  else
    -- a change of OFFSET is slewed from where it stands; a change of RATE applies at once (R274, R275)
    let same := decide (d.rate = rate)
    .done .ok [] (domainPut td { d with
      rate := rate, offset := off, offsetFrom := if same then offsetNow s d else off, offsetAt := now s
      alignAt := if same then d.alignAt else none, aligned := d.aligned && same, eventSeen := d.eventSeen && same } s)

def cmdSetFramePulse (c : Ctx) (s : State) : CmdOut :=
  let src := bf c 0 8 4
  let off := sbits (bw c 1) 31 0
  let width := bf c 2 15 0
  let rate := if src = 0 then none else if src ≤ 16 then some (domainGet s (src - 1)).rate
    else (pulseEntry s (src - 17)).map (fun e => e.rate)
  let bad : Bool := match rate with
    | none => false
    | some r => let p := periodNs r; decide (p.num < off.natAbs * p.den ∨ p.num ≤ 2 * width * p.den)
  if 20 < src ∨ width < 16 ∨ bad then refuse .range
  else if 17 ≤ src ∧ rate.isNone then refuse .state
  else
    let fly := decide (17 ≤ src) && !((pulseEntry s (src - 17)).map (fun e => e.qualified)).getD true
    let y := (tget s.time.pulses (bf c 0 1 0)).getD {}
    let same := decide (y.source = src)
    let x : Pulse := {
      source := src, activeHigh := bb c 0 9, offset := off, width := width, flywheel := fly, rate := rate.getD 0
      offsetFrom := if same then pulseOffset s y else off, offsetAt := now s
      lastPulse := y.lastPulse, due := if same then y.due else none
      follow := if same then y.follow else none }
    .done .ok [] (setTime { s.time with pulses := tset s.time.pulses (bf c 0 1 0) x } s)

/-! ### GET_TIMING_STATUS (R280) -/

/-- e in ns as it reads. -/
def phaseNow (s : State) : Int :=
  if s.time.state = 1 then s.time.phaseErr.sign * divOpen (slewLeft s) 10000 else s.time.phaseErr

/-- A force that does not act (R268). -/
def forceInactive (s : State) : Bool := s.time.forceEn && !(candGet s s.time.forceIndex).qualified

/-- The port of the entry that the PTP time comes from. -/
def ptpPort (s : State) : Nat :=
  let l := s.time.list.filter (fun e => e.2.enable && decide (e.2.kind = 3))
  match (l.find? (fun e => e.2.qualified)).or (l.find? (fun e => e.2.everQualified)) with
  | some e => e.2.port
  | none => (l.head?.map (fun e => e.2.port)).getD 0

/-- A domain that one of a partition's heads, encode contexts or flows uses (R280); a head in OFF uses none (R275). -/
def usesDomain (s : State) (page td : Nat) : Bool :=
  s.heads.any (fun e => decide (holder s 0 e.1 = page ∧ e.2.state ≠ 0 ∧ (e.2.act.mode.td = td ∨ (e.2.pend.map (fun p => p.mode.td)) = some td)))
    || s.pool.encodes.any (fun e => decide (e.2.owner = page ∧ e.2.td = td))
    || s.eth.flows.any (fun e => e.2.tx && decide (e.2.owner = page ∧ e.2.td = td))

def cmdGetTimingStatus (c : Ctx) (s : State) : CmdOut :=
  let t := s.time
  let td := bf c 0 7 4
  if !bb c 0 0 then
    let l := t.list
    let w6 := pack [((ptpNow s).2.2, 1, 0), (ptpPort s, 7, 4)]
    if c.page ≠ 0 then .done .ok [pack [(t.state, 1, 0)], 0, 0, 0, w6, 0] s
    else .done .ok [pack [(t.state, 1, 0), (t.selected.getD (Config.freeNat s.free % 8), 4, 2), (b1 (forceInactive s), 5, 5),
        (b1 t.holdover.isSome, 6, 6)],
      pack [(bitmap ((l.filter (fun e => e.2.qualified)).map Prod.fst), 7, 0),
        (bitmap ((l.filter (fun e => e.2.enable)).map Prod.fst), 15, 8)],
      word (twos (phaseNow s) 32), word (twos t.freqOffset 32), w6,
      word (divOpen (slewLeft s) (10000 * 1000 * max 1 t.slopeNow / 10000))] s
  else if c.page ≠ 0 ∧ !usesDomain s c.page td then refuse .notOwner
  else
    let d := domainGet s td
    .done .ok [pack [(d.rate, 3, 0), (b1 (isAligned s td), 4, 4)], word (twos d.offset 32), d.ticks,
      word d.lastTick, word (d.lastTick / 2 ^ 32)] s

def specSetCandidate : OpSpec :=
  { op := 0x0A00, p0 := true, maxLen := 12, rsv := within [field 6 0, field 8 0 ||| field 23 16], log := always
    named := fun b _ => if bits (wd b 0) 6 4 = 4 then (wd b 2).toNat else 0, run := cmdSetCandidate }

def specSetSelection : OpSpec :=
  { op := 0x0A01, p0 := true, maxLen := 16, rsv := within [field 4 0, field 9 0, field 9 0, field 8 0], log := always
    run := cmdSetSelection }

def specSetTimingDomain : OpSpec :=
  { op := 0x0A02, p0 := true, maxLen := 8, rsv := within [field 7 0], log := always, run := cmdSetTimingDomain }

def specSetFramePulse : OpSpec :=
  { op := 0x0A03, p0 := true, maxLen := 12, rsv := within [field 1 0 ||| field 9 4, 0xFFFFFFFF, field 15 0], log := always
    run := cmdSetFramePulse }

def specGetTimingStatus : OpSpec :=
  { op := 0x0A04, maxLen := 4, rsv := within [field 0 0 ||| field 7 4], run := cmdGetTimingStatus }

def execSetCandidate (page : Fin 16) (d : Desc) (s : State) : Host.Outcome State Fault Refusal :=
  if d.Wf then .next (issue specSetCandidate page d s) else .fault .illFormed

def execSetSelection (page : Fin 16) (d : Desc) (s : State) : Host.Outcome State Fault Refusal :=
  if d.Wf then .next (issue specSetSelection page d s) else .fault .illFormed

def execSetTimingDomain (page : Fin 16) (d : Desc) (s : State) : Host.Outcome State Fault Refusal :=
  if d.Wf then .next (issue specSetTimingDomain page d s) else .fault .illFormed

def execSetFramePulse (page : Fin 16) (d : Desc) (s : State) : Host.Outcome State Fault Refusal :=
  if d.Wf then .next (issue specSetFramePulse page d s) else .fault .illFormed

def execGetTimingStatus (page : Fin 16) (d : Desc) (s : State) : Host.Outcome State Fault Refusal :=
  if d.Wf then .next (issue specGetTimingStatus page d s) else .fault .illFormed

/-! ### Candidates (R264, R266, R277) -/

/-- A fault of Table 11-1: for KIND 1 a missing pulse, since a misplaced one shows itself. -/
def execCandidateFault (index : Fin 8) (s : State) : Host.Outcome State Fault Refusal :=
  let c := candGet s index.val
  let runs := decide (c.kind = 4 ∧ (srcGet s c.source).state = .running)
  if !c.enable ∨ c.kind = 0 ∨ c.kind = 5 ∨ runs then .next s
  else .next (candPut index.val (faulted (now s) c) s)

/-- The frequency of an entry lies within ±100 ppm of nominal (R266): as measured, or for KIND 4 over the frame starts
that have been counted, to the microsecond of powered time. -/
def inFrequency (s : State) (c : Candidate) : Bool :=
  if c.kind = 4 then
    let t := fmul (periodUs (srcGet s c.source).fmt.rate) ⟨c.seen - 1, 1⟩
    let d := c.edgeAt - c.firstAt
    decide (2 ≤ c.seen) && decide (t.num * 9999 ≤ (d + 1) * t.den * 10000 ∧ d * t.den * 10000 ≤ t.num * 10001 + t.den * 10000)
  else (c.freq.map (fun f => decide (f.natAbs ≤ 100000))).getD false

/-- QUAL_TIME has passed without a fault and in frequency (R266). -/
def execQualTimeExpiry (index : Fin 8) (s : State) : Host.Outcome State Fault Refusal :=
  let c := candGet s index.val
  if c.enable ∧ 1 ≤ c.kind ∧ c.kind ≤ 4 ∧ c.qualified = false ∧ c.cleanSince + s.time.qualTime * 1000000 ≤ now s then
    .next (candPut index.val (if inFrequency s c then { c with pendQual := true } else restartCount (now s) c) s)
  else .next s

/-- A pulse or clock edge on a REFIN: the selected edge of a KIND 1 entry, the rising edge of a KIND 2 entry,
whose phase is taken modulo 100 ns (Table 11-1). -/
def execRefinEdge (refin : Fin 4) (falling : Bool) (phaseNs : Int) (s : State) : Host.Outcome State Fault Refusal :=
  match s.time.list.find? (fun e => e.2.enable && decide ((e.2.kind = 1 ∨ e.2.kind = 2) ∧ e.2.port = refin.val)) with
  | none => .next s
  | some (i, c) =>
    if (c.kind = 1 ∧ c.falling ≠ falling) ∨ (c.kind = 2 ∧ falling) then .next s
    else
      let s1 := alignment i phaseNs s
      .next (if c.kind = 1 ∧ (candGet s1 i).faults = 0 then followEdge refin.val i s1 else s1)

/-- One grandmaster is better than another: the first figure in which they differ is the lower. -/
def betterMaster : List Nat → List Nat → Bool
  | a :: as, b :: bs => if a = b then betterMaster as bs else decide (a < b)
  | _, _ => false

/-- The sender whose grandmaster is the best of those announced (R277). -/
def bestMaster (l : Tbl (List Nat)) : Option Nat :=
  match l with
  | [] => none
  | e :: t => some (t.foldl (fun b e => if betterMaster e.2 b.2 then e else b) e).1

/-- A message from the chosen master gives the time: a one-step Sync, or the Follow_Up of a two-step one (R277). -/
def givesTime (c : Candidate) (m : PtpMsg) : Bool :=
  decide (bestMaster c.masters = some m.sender.toNat)
    && (match m.type with
      | 1 => !m.twoStep
      | 2 => decide (c.syncDue = some m.seq)
      | _ => false)

/-- What a message leaves in an entry: an Announce tells of a grandmaster, a two-step Sync that its time is due. -/
def hearPtp (s : State) (m : PtpMsg) (c : Candidate) : Candidate :=
  if m.type = 0 then { c with masters := tset c.masters m.sender.toNat m.quality }
  else if givesTime c m then { c with
    ptpSeconds := m.seconds.toNat, ptpNanos := m.nanoseconds.toNat, ptpAt := now s, ptpClock := clockNow s
    syncDue := none }
  else if m.type = 1 ∧ bestMaster c.masters = some m.sender.toNat then { c with syncDue := some m.seq }
  else c

/-- A PTP message for a KIND 3 entry (R277): a time sets the carried time and the servo offset. -/
def execPtpMessage (port : Fin 8) (m : PtpMsg) (s : State) : Host.Outcome State Fault Refusal :=
  match s.time.list.find? (fun e => e.2.enable
      && decide (e.2.kind = 3 ∧ e.2.port = port.val ∧ e.2.ptpDomain = m.domain.toNat)) with
  | none => .next s
  | some (i, c) =>
    let s1 := candPut i (hearPtp s m c) s
    .next (if givesTime c m then alignment i m.offsetNs s1 else s1)

/-! ### The selector (R267–R273) -/

/-- The selector enters a state: its event and REF_STATE (R269). -/
def enterState (st cause : Nat) (s : State) : State :=
  let c := (s.time.selected.map (candGet s)).getD {}
  -- the output frequency of the new state; what LOCKED ran at is kept as holdover data (R270–R272)
  let v := if st = 0 then stepFreq s.time 0 else if st = 1 then slewFreq s.time c else trackFreq s.time c
  -- a new slew has its own cause (R273)
  if s.time.state = st then (if st = 1 then setFreq v (setTime { s.time with cause := cause } s) else s)
  else
    let s1 := setFreq v s
    let data := if s.time.state = 2 ∧ s.time.holdover.isSome then some (meanFreq s1.time) else s.time.holdover
    let s3 := setTime { s1.time with
      state := st, cause := cause, lockedSince := now s, holdover := data
      freqOffset := if st = 3 then stepFreq s.time (data.getD 0) else v } s1
    let s4 := match st with
      | 0 => raise 219 2 s3
      | 2 => raise 219 3 s3
      | 3 => raise 219 1 s3
      | _ => s3
    postNtf 0 0x0A01 [word st, word (s4.time.selected.getD 0xFF), word cause] s4

/-- The entry that the rules of R268 choose. -/
def choose (s : State) : Option Nat :=
  let ok := fun (i : Nat) => (candGet s i).enable && (candGet s i).qualified
  if s.time.forceEn ∧ ok s.time.forceIndex then some s.time.forceIndex
  else match s.time.revertive, s.time.selected with
    | false, some i => if ok i ∧ !s.time.dropped then some i else (List.range 8).find? ok
    | _, _ => (List.range 8).find? ok

/-- Turn to a newly selected entry (R269, R270, R273). -/
def turnTo (i cause : Nat) (s : State) : State :=
  let c := candGet s i
  if c.kind = 5 then enterState 0 cause (setTime { s.time with phaseErr := 0 } s)
  else
    let (m, s1) := measure s
    let e := c.phaseNs.getD (phaseOf s c m)
    let s2 := setTime { s1.time with
      phaseErr := e, slewStart := now s, slopeNow := s1.time.slope, bandNow := s1.time.bandwidth
      domains := tall s1.time.domains (fun _ d => { d with aligned := false }) } s1
    if e.natAbs ≤ 1 then enterState 2 cause s2
    else raise 221 0 (enterState 1 cause s2)

/-- Disqualifications, then qualifications (R268); frame-pulse outputs on a REFIN follow (R276). -/
def applyQuals (s : State) : State :=
  let s1 := s.time.list.foldl (fun s e =>
    if e.2.pendDisq then
      let s1 := candPut e.1 { e.2 with pendDisq := false, pendQual := false, qualified := false } s
      if !e.2.qualified then s1
      else
        flyOutputs e.2 (raise 220 1 s1)
    else s) s
  s1.time.list.foldl (fun s e =>
    if e.2.pendQual ∧ e.2.qualified = false then
      let s1 := raise 220 0 (candPut e.1 { e.2 with pendQual := false, qualified := true, everQualified := true } s)
      if e.2.kind = 1 then setTime { s1.time with pulses := tall s1.time.pulses (fun _ p =>
        if p.source = 17 + e.2.port ∧ p.flywheel then rejoined s1 e.2 p else p) } s1 else s1
    else s) s1

/-- A change of SLOPE or BANDWIDTH applies at the evaluation to every slew and to the tracking in progress (R271). -/
def rebaseSlew (s : State) : State :=
  if s.time.slopeNow = s.time.slope then setTime { s.time with bandNow := s.time.bandwidth } s
  else
    let s1 := setTime { s.time with
      phaseErr := phaseNow s, slewStart := now s, slopeNow := s.time.slope, bandNow := s.time.bandwidth
      domains := tall s.time.domains (fun _ d => { d with offsetFrom := offsetNow s d, offsetAt := now s })
      pulses := tall s.time.pulses (fun _ p => { p with offsetFrom := pulseOffset s p, offsetAt := now s }) } s
    if s.time.state = 1 then setFreq (slewFreq s1.time ((s.time.selected.map (candGet s)).getD {})) s1 else s1

def execSelectorEvaluation (s : State) : Host.Outcome State Fault Refusal :=
  if !s.sys.fwReady then .next s
  else
    let s1 := applyQuals (rebaseSlew s)
    let old := s1.time.selected
    let pick := choose s1
    let lost := match old with
      | some i => !((candGet s1 i).enable && (candGet s1 i).qualified)
      | none => false
    let cause := if s1.time.hostCause then 2 else if lost then 0 else 1
    let changed := decide (pick ≠ old) || s1.time.dropped
    let s2 := setTime { s1.time with selected := pick, hostCause := false, dropped := false } s1
    let s3 := if changed then raise 219 0 s2 else s2
    let s4 := match pick with
      | some i => if changed then turnTo i cause s3 else s3
      | none =>
        if s3.time.holdover.isSome then enterState 3 cause s3 else enterState 0 cause s3
    .next (ptpStep s (settleClock s4))

/-- The phase error of a slew reaches 1 ns (R270). -/
def execSlewDone (s : State) : Host.Outcome State Fault Refusal :=
  if s.time.state = 1 ∧ slewLeft s ≤ 10000 then
    .next (raise 221 1 (enterState 2 s.time.cause (setTime { s.time with phaseErr := s.time.phaseErr.sign } s)))
  else .next s

/-- 60 s of continuous LOCKED (R272). -/
def execHoldoverDataValid (s : State) : Host.Outcome State Fault Refusal :=
  if s.time.state = 2 ∧ s.time.holdover.isNone ∧ s.time.lockedSince + 60000000 ≤ now s then
    let s1 := setFreq s.time.freqOffset s
    .next (setTime { s1.time with holdover := some (meanFreq s1.time) } s1)
  else .next s

end Sys2Proof.Machine
end

