-- ==== Sys2Proof/Machine/Recorder.lean ====
section
/-! DEFINITION. The recorder of the pool: records, segments, members, manifests and their signatures, gaps,
stalls and fallback episodes (R324–R338, R353, R355). The commands stand in Pool.lean. -/

namespace Sys2Proof.Machine

open Sys2Proof

def setPool (p : Pool) (s : State) : State := { s with pool := p }

def recGet (s : State) (h : Handle) : Option Recording := tget s.pool.streams h

def recMod (h : Handle) (f : Recording → Recording) (s : State) : State :=
  setPool { s.pool with streams := tmod s.pool.streams h f } s

def driveMod (d : Nat) (f : Drive → Drive) (s : State) : State :=
  setPool { s.pool with drives := tmod s.pool.drives d f } s

/-- A drive slot changes state (R325). -/
def driveState (d st : Nat) (s : State) : State :=
  match tget s.pool.drives d with
  | none => s
  | some x => if x.state = st then s else postNtf 0 0x0D02 [word d, word st] (driveMod d (fun x => { x with state := st }) s)

/-- Event source of the root port of a drive; N0 where no member is concerned (R344). -/
def portSource (s : State) (d : Option Nat) : Nat :=
  108 + ((d.bind (tget s.pool.drives)).map (fun x => x.root)).getD 0

/-- A recorded stream changes state (R338). -/
def recState (h : Handle) (st : Nat) (s : State) : State :=
  match recGet s h with
  | none => s
  | some x =>
    if x.state = st then s
    else postNtf x.owner 0x0D03 [word h, word st] (recMod h (fun x => { x with state := st }) s)

/-- Pieces are lost for good (R334). -/
def lose (h : Handle) (chain bytes : Nat) (d : Option Nat) (s : State) : State :=
  match recGet s h with
  | none => s
  | some x =>
    if bytes = 0 then s
    else raise (portSource s d) 6 (postNtf x.owner 0x0D04 [word h, word chain, word bytes]
      (recMod h (fun x => { x with segLoss := sat 0xFFFFFFFF x.segLoss bytes }) s))

/-! ### Commands to the drives (R323–R325) -/

def issueOp (d : Nat) (op : NvmeOp) (s : State) : State :=
  send (.nvme d op) (setPool { s.pool with ops := s.pool.ops ++ [(d, op, now s)] } s)

/-! ### Routes to recorded streams (R168, R183) -/

/-- The destination of a recorded stream. -/
def recDest (h : Handle) : Nat := 3 * 2 ^ 28 + hPart h * 2 ^ 24 + hIndex h

/-- The entry routed to a stream. -/
def recEntry (s : State) (h : Handle) : Option Handle :=
  ((destGet s (recDest h)).active).bind (fun r => (tget s.routes r).map (fun x => x.source))

/-- The streams that an entry is routed to, or that still take its last unit. -/
def recordingsOf (s : State) (e : Handle) : List Handle :=
  (s.pool.streams.filter (fun x =>
    decide ((recEntry s x.1 = some e ∨ x.2.finishing.map Prod.fst = some e) ∧ x.2.state ≠ 2))).map Prod.fst

/-- Buffer B in bytes, with the pre-roll of a FALLBACK stream (R329). -/
def bufferB (s : State) (h : Handle) : Nat :=
  let k := (((recEntry s h).bind (tget s.eth.entries)).map (fun e => e.maxKbps)).getD 0
  max 32768 (4096 * cdiv (25 * k) (4 * 4096)) + 4096 * ((recGet s h).map (fun x => prerollUnits x k)).getD 0

/-! ### Segment allocation (R333–R335) -/

def payloadMax : Nat := 1044480

def freeSegs (x : Drive) : Nat := x.segs - x.used.length

/-- The member with the most free segment slots; on a tie the lower member index (R333). -/
def pickMember (s : State) : Option Nat :=
  ((s.pool.drives.filter (fun e => decide (e.2.state = 3 ∧ 0 < freeSegs e.2))).foldl
    (fun (b : Option (Nat × Drive)) e => match b with
      | none => some e
      | some y =>
        if freeSegs y.2 < freeSegs e.2 ∨ (freeSegs y.2 = freeSegs e.2 ∧ e.2.member < y.2.member) then some e else some y)
    none).map Prod.fst

/-- A stalled or missing member has a free slot (R335). -/
def memberAway (s : State) : Bool :=
  s.pool.drives.any (fun e => decide ((e.2.state = 4 ∨ e.2.state = 5) ∧ 0 < freeSegs e.2))

/-- The lowest free segment slot of a drive. -/
def freeSlot (x : Drive) : Nat := ((List.range (x.used.length + 1)).find? (fun k => decide (k ∉ x.used))).getD 0

/-- Write what the buffer holds in pieces of B / 2 bytes; `all` writes the rest too (R331). -/
def issuePieces (h : Handle) (half : Nat) (all : Bool) : Nat → State → State
  | 0, s => s
  | n + 1, s =>
    match (recGet s h).bind (fun x => x.seg) with
    | none => s
    | some g => match g.drive with
      | none => s
      | some d =>
        let left := g.bytes.length - g.issued
        let k := if half ≤ left then half else if all then left else 0
        if k = 0 then s
        else issuePieces h half all n (issueOp d (.piece h g.chain k)
          (recMod h (fun x => { x with seg := some { g with issued := g.issued + k } }) s))

def pieces (h : Handle) (all : Bool) (s : State) : State :=
  let half := bufferB s h / 2
  issuePieces h half all (2 + payloadMax / max 1 half) s

/-! ### Exports (R341) -/

/-- A member's data can be read. -/
def readable (s : State) (d : Nat) : Bool := decide (((tget s.pool.drives d).map (fun x => x.state)) = some 3)

/-- What an export copies: for each segment or manifest from FIRST on, in order, its number and its bytes, none
where it cannot be read. -/
def exportList (s : State) (w : Waiting) : Option (Nat × Nat × Nat × Nat × List (Nat × Option (List Byte))) :=
  let order := fun (l : List (Nat × Option (List Byte))) => sortBy (fun a b => decide (a.1 ≤ b.1)) l
  match w with
  | .exportSegs h first addr units =>
    some (1048576, first, addr, units, order ((s.pool.segments.filter (fun e =>
      decide (e.stream = h ∧ first ≤ e.chain) && e.written && !e.alternate)).map (fun e =>
        (e.chain, if readable s e.drive then some e.bytes else none))))
  | .exportMans h first addr units =>
    some (4096, first, addr, units, order ((s.pool.manifests.filter (fun m => decide (m.stream = h ∧ first ≤ m.seq))).map (fun m =>
      (m.seq, if readable s m.drive || (m.drive2.map (readable s)).getD false then some (bytesOf m.words) else none))))
  | _ => none

/-- The first n that can be read: their bytes, the number after the last one passed, and how many were skipped. -/
def exportTake : Nat → Nat → List (Nat × Option (List Byte)) → List (List Byte) × Nat × Nat
  | _, next, [] => ([], next, 0)
  | n, next, (k, none) :: t =>
    if n = 0 then ([], next, 0)
    else
      let r := exportTake n (k + 1) t
      (r.1, r.2.1, r.2.2 + 1)
  | 0, next, (_, some _) :: _ => ([], next, 0)
  | n + 1, _, (k, some b) :: t =>
    let r := exportTake n (k + 1) t
    (b :: r.1, r.2.1, r.2.2)

/-- The numbers that the running export covers, from the first up to the one after the last. -/
def exportSpan (s : State) (w : Waiting) : Nat × Nat :=
  match exportList s w with
  | some (_, first, _, want, l) => (first, (exportTake want first l).2.1)
  | none => (0, 0)

/-- Segments of a stream in a group stand under export (R340). -/
def underExport (s : State) (h : Handle) (g : Nat) : Bool :=
  match s.exec with
  | some e =>
    let r := exportSpan s e.waits
    (match e.waits with
    | .exportSegs st _ _ _ => decide (st = h) && s.pool.segments.any (fun x =>
        decide (x.stream = h ∧ x.group = g ∧ r.1 ≤ x.chain ∧ x.chain < r.2))
    | .exportMans st _ _ _ => decide (st = h ∧ r.1 ≤ g ∧ g < r.2)
    | _ => false)
  | none => false

/-- Remove a manifest group: its slots, then its manifest (R340). -/
def removeGroup (h : Handle) (g : Nat) (s : State) : State :=
  let gone := s.pool.segments.filter (fun x => decide (x.stream = h ∧ x.group = g) && x.written)
  let s1 := gone.foldl (fun s e => issueOp e.drive
    (.deallocate (((tget s.pool.drives e.drive).map (fun x => x.firstSeg)).getD 0 + e.slot) 1) s) s
  let s2 := (s.pool.manifests.filter (fun m => decide (m.stream = h ∧ m.seq = g))).foldl (fun s m =>
    (m.drive :: m.drive2.toList).foldl (fun s d => issueOp d (.trimManifest h g) s) s) s1
  setPool { s2.pool with
    segments := s.pool.segments.filter (fun x => !(decide (x.stream = h ∧ x.group = g) && x.written))
    manifests := s.pool.manifests.filter (fun m => decide (m.stream ≠ h ∨ m.seq ≠ g))
    drives := tall s.pool.drives (fun d x => { x with used := x.used.filter (fun k =>
      !gone.any (fun e => decide (e.drive = d ∧ e.slot = k))) }) } s2

/-- The group that ROLL would delete: the stream's oldest complete one, unless it is under export or holds a
FALLBACK segment that is not EXPORTED (R333). -/
def rollGroup (s : State) (h : Handle) : Option Nat :=
  match (s.pool.manifests.filter (fun m => decide (m.stream = h))).foldl
      (fun (b : Option Nat) m => some (min (b.getD m.seq) m.seq)) none with
  | none => none
  | some g =>
    if underExport s h g ∨ s.pool.segments.any (fun x =>
        decide (x.stream = h ∧ x.group = g) && tb x.flags 10 && !x.exported) then none else some g

/-- What an attempt to place a segment finds. -/
inductive Place where
  | on (d : Nat)
  | wait
  | full
  deriving DecidableEq, Repr

/-- Where the next segment of a stream goes; `reopen` for one that has been abandoned (R333–R335). -/
def place (s : State) (h : Handle) (reopen : Bool) : Place :=
  let owner := hPart h
  if !reopen ∧ quotaOf s owner 10 ≤ segUse s owner then .full
  else match pickMember s with
    | some d => .on d
    | none => if reopen || memberAway s then .wait else .full

/-- The open segment takes a slot on a drive. -/
def putOn (h : Handle) (d : Nat) (g : OpenSeg) (s : State) : State :=
  let k := freeSlot ((tget s.pool.drives d).getD {})
  recMod h (fun x => { x with seg := some { g with drive := some d, slot := k } })
    (driveMod d (fun x => { x with used := k :: x.used }) s)

/-- A closed segment that has waited takes a slot on a member: its payload in pieces, then its header (R331, R335). -/
def putClosed (d : Nat) (e : Segment) (s : State) : State :=
  let k := freeSlot ((tget s.pool.drives d).getD {})
  let half := max 1 (bufferB s e.stream / 2)
  let s1 := setPool { s.pool with segments := s.pool.segments ++ [{ e with drive := d, slot := k }] }
    (driveMod d (fun x => { x with used := k :: x.used }) s)
  issueOp d (.header e.stream e.chain) ((List.range (cdiv e.payload half)).foldl (fun s i =>
    issueOp d (.piece e.stream e.chain (min half (e.payload - half * i))) s) s1)

/-- A stream's closed segments that wait take a member each, oldest first. -/
def placeClosed (h : Handle) : List Segment → State → State
  | [], s => s
  | e :: t, s => match place s h true with
    | .on d => placeClosed h t (putClosed d e (recMod h (fun x => { x with unplaced := t }) s))
    | _ => s

/-- Streams that wait for a member take one that is able again (R335). -/
def reopenAll (s : State) : State :=
  (tkeys s.pool.streams).foldl (fun s h =>
    let s1 := placeClosed h (((recGet s h).map (fun x => x.unplaced)).getD []) s
    match recGet s1 h with
    | none => s1
    | some x => match x.seg with
      | some g =>
        if g.drive.isSome ∨ !x.unplaced.isEmpty then s1
        else match place s1 h true with
          | .on d => pieces h false (putOn h d g s1)
          | _ => s1
      | none => s1) s

/-! ### Records (R330–R332, Table 14-3) -/

def pad4 (l : List Byte) : List Byte := l ++ List.replicate ((4 - l.length % 4) % 4) 0

/-- A record: header and padded data. -/
def recordBytes (u : RecUnit) (contIn contOut : Bool) (data : List Byte) : List Byte :=
  bytesOf [pack [(u.type, 3, 0), (b1 contIn, 4, 4), (b1 contOut, 5, 5), (data.length, 31, 12)], word u.arrival, u.ts,
    pack [(u.seq.toNat, 15, 0), (u.packets, 31, 16)]] ++ pad4 data

/-- A gap record (R330). -/
def gapUnit (g : Nat × Nat × Nat × Nat) : RecUnit :=
  { type := 3, arrival := g.2.2.2
    data := bytesOf [word g.1, word g.2.1, word g.2.2.1, word (g.2.2.1 / 2 ^ 32), word g.2.2.2, word (g.2.2.2 / 2 ^ 32)] }

/-- Append bytes to the open segment. -/
def putBytes (h : Handle) (u : RecUnit) (start : Bool) (bs : List Byte) (s : State) : State :=
  recMod h (fun x => { x with
    lastAt := now s, gaps := sat 0xFFFFFFFF x.gaps (b1 (decide (u.type = 3)))
    seg := x.seg.map (fun g => { g with
      starts := if start then g.starts ++ [g.bytes.length] else g.starts
      firstAt := if g.bytes.isEmpty then now s else g.firstAt, lastAt := now s
      audio := g.audio || decide (u.type = 2), bytes := g.bytes ++ bs }) }) s

/-- A gap is due in the next segment; one of the same cause is continued (R332). -/
def gapDue (h : Handle) (cause lost : Nat) (s : State) : State :=
  recMod h (fun x => { x with gapsDue := match x.gapsDue.getLast? with
    | some (c, n, a, _) => if c = cause then x.gapsDue.dropLast ++ [(c, n + lost, a, now s)]
        else x.gapsDue ++ [(cause, lost, x.lastAt, now s)]
    | none => [(cause, lost, x.lastAt, now s)] }) s

/-- A new segment of the chain (R333): with DISCONTINUITY and the gap records that are due (R332). -/
def openSeg (h : Handle) (s : State) : State :=
  match recGet s h with
  | none => s
  | some x =>
    let go : Option Nat → State → State := fun d s =>
      match recGet s h with
      | none => s
      | some x =>
        let g : OpenSeg := {
          chain := x.nextChain, discontinuity := !x.gapsDue.isEmpty, fallback := x.episode
          source := ((x.finishing.map Prod.fst).or (recEntry s h)).getD 0, prev := x.prevHash }
        let s1 := recMod h (fun x => { x with seg := some g, gapsDue := [] }) s
        let s2 := match d with
          | some d => putOn h d g s1
          | none => s1
        let s3 := x.gapsDue.foldl (fun s q => putBytes h (gapUnit q) true (recordBytes (gapUnit q) false false (gapUnit q).data) s) s2
        if x.state = 3 then recState h 1 s3 else s3
    let full : State → State := fun s =>
      if ((recGet s h).map (fun x => x.state)).getD 2 = 3 then s
      else recState h 3 (raise 108 5 (gapDue h 8 0 s))
    match place s h false with
    -- behind closed segments that wait, a new one waits too
    | .on d => go (if x.unplaced.isEmpty then some d else none) s
    | .wait => go none s
    | .full =>
      if !x.roll then full s
      else match rollGroup s h with
        | none => full s
        | some g =>
          let s1 := removeGroup h g s
          match place s1 h false with
          | .on d => reopenAll (go (if x.unplaced.isEmpty then some d else none) s1)
          | .wait => reopenAll (go none s1)
          | .full => reopenAll (full s1)

/-! ### Closing segments (R331, R336) -/

def zeros (n : Nat) : List Byte := List.replicate n 0

/-- The header of a segment (Table 14-4). -/
def segHeader (s : State) (h : Handle) (x : Recording) (g : OpenSeg) (flags : Nat) : List Word :=
  let t := ptpNow s
  [0x47534547, pack [(1, 7, 0), (flags, 31, 0)], s.pool.identity.extractLsb' 0 32, s.pool.identity.extractLsb' 32 32,
    word x.streamId, word g.chain, word g.source, word g.bytes.length, word g.starts.length,
    word g.firstAt, word (g.firstAt / 2 ^ 32), word g.lastAt, word (g.lastAt / 2 ^ 32), s.sys.bootCount,
    word t.1, pack [(t.1 / 2 ^ 32, 15, 0), (t.2.2, 17, 16)], word t.2.1, word (hPart h)]
    ++ wordsOf (beBytes g.prev.toNat 48)

/-- The slot as it is written: header, payload, zeros (R331). -/
def slotBytes (header : List Word) (payload : List Byte) : List Byte :=
  let b := bytesOf header
  b ++ zeros (4096 - b.length) ++ payload ++ zeros (payloadMax - payload.length)

/-- The flags of a segment in their bits of header word 1. -/
def segFlags (g : OpenSeg) (part : Bool) : Nat :=
  256 * b1 g.discontinuity + 512 * b1 part + 1024 * b1 g.fallback + 2048 * b1 g.audio

/-- Close the open segment: the rest is written, then its header (R331). One that waits for a member is written when
it has one (R335). -/
def closeSeg (h : Handle) (part : Bool) (s : State) : State :=
  match (recGet s h).bind (fun x => x.seg) with
  | none => s
  | some g0 =>
    let s1 := pieces h true s
    match recGet s1 h with
    | none => s1
    | some x =>
      let g := x.seg.getD g0
      let flags := segFlags g part
      let img := slotBytes (segHeader s1 h x g flags) g.bytes
      let hash := Config.sha384 img
      let e : Segment := {
        stream := h, chain := g.chain, drive := g.drive.getD 0, slot := g.slot, group := x.nextManifest
        payload := g.bytes.length, records := g.starts.length, flags := flags, hash := hash, bytes := img }
      let y := { x with seg := none, nextChain := g.chain + 1, prevHash := hash }
      match g.drive with
      | some d => issueOp d (.header h g.chain) (setPool { s1.pool with
          segments := s1.pool.segments ++ [e], streams := tset s1.pool.streams h y } s1)
      | none => setPool { s1.pool with streams := tset s1.pool.streams h { y with unplaced := y.unplaced ++ [e] } } s1

/-- A manifest of the stream's open group is to be signed (R336); an empty group has none. -/
def askManifest (h : Handle) (flags : Nat) (s : State) : State :=
  match recGet s h with
  | none => s
  | some x =>
    if x.groupHashes.isEmpty then s
    else
      let l := sortBy (fun a b => decide (a.1 ≤ b.1)) x.groupHashes
      setPool { s.pool with
      queue := s.pool.queue ++ [{
        stream := h, seq := x.nextManifest, flags := flags, first := ((l.head?).map Prod.fst).getD 0, hashes := l.map Prod.snd }]
      streams := tset s.pool.streams h { x with
        nextManifest := x.nextManifest + 1, groupHashes := [] } } s

/-- Closed segments of a stream have still to be written. -/
def unwritten (s : State) (h : Handle) : Bool :=
  s.pool.segments.any (fun f => decide (f.stream = h) && !f.written && !f.alternate)
    || !(((recGet s h).map (fun x => x.unplaced)).getD []).isEmpty

/-- The manifest that has waited for a stream's last segment is asked for. -/
def closeGroup (h : Handle) (s : State) : State :=
  match (recGet s h).bind (fun x => x.closing) with
  | some fl => if unwritten s h then s else askManifest h fl (recMod h (fun x => { x with closing := none }) s)
  | none => s

/-- A segment has been written (R324): it joins the open group, whose 64th segment ends it (R336). -/
def segWritten (h : Handle) (chain : Nat) (s : State) : State :=
  match s.pool.segments.find? (fun e => decide (e.stream = h ∧ e.chain = chain) && !e.alternate && !e.written) with
  | none => s
  | some e =>
    let g := ((recGet s h).map (fun x => x.nextManifest)).getD 0
    let s1 := setPool { s.pool with segments := s.pool.segments.map (fun f =>
      if f.stream = h ∧ f.chain = chain ∧ f.alternate = false then { f with written := true, group := g } else f) } s
    let s2 := recMod h (fun x => { x with groupHashes := x.groupHashes ++ [(chain, e.hash)] }) s1
    match recGet s2 h with
    | none => s2
    | some x =>
      if x.closing.isSome ∧ unwritten s2 h = false then closeGroup h s2
      else if x.groupHashes.length = 64 then askManifest h 0 s2
      else s2

/-- A manifest with these flags is due once every closed segment has been written. -/
def dueManifest (h : Handle) (flags : Nat) (s : State) : State :=
  closeGroup h (recMod h (fun x => { x with closing := some flags }) s)

/-! ### Signatures (R336, R353, R355) -/

/-- The key of a vault slot handle, one that is being zeroised among them. -/
def keyAny (s : State) (h : Handle) : Option (Nat × KeySlot) :=
  if hType h ≠ 7 then none
  else match tget s.vault.slots (hIndex h % 1024) with
    | some k => if k.key.isSome ∧ k.gen = hIndex h / 1024 ∧ k.owner = hPart h then some (hIndex h % 1024, k) else none
    | none => none

/-- The key of a vault slot handle that takes requests (R348). -/
def keySlot (s : State) (h : Handle) : Option (Nat × KeySlot) :=
  (keyAny s h).bind (fun k => if k.2.closing then none else some k)

/-- A key of the production while DEBUG is 1 is sealed (R350). -/
def sealed (s : State) (k : KeySlot) : Bool := s.sys.debug && !k.debug

/-- The words of a manifest without its signature (Table 14-5). -/
def manifestWords (s : State) (x : Recording) (r : ManReq) : List Word :=
  let ws := [0x4D4E4647, pack [(1, 7, 0), (r.hashes.length, 15, 8), (r.flags, 18, 16)],
      s.pool.identity.extractLsb' 0 32, s.pool.identity.extractLsb' 32 32, word x.streamId, word r.seq, word r.first,
      word (now s), word (now s / 2 ^ 32), s.sys.bootCount, word x.key, 0]
    ++ wordsOf (beBytes x.prevManifest.toNat 48)
  ws ++ r.hashes.flatMap (fun h => wordsOf (beBytes h.toNat 48)) ++ List.replicate (12 * (64 - r.hashes.length)) 0

/-- The next member in index order after a drive, around the end; none in a pool of one. -/
def nextMember (s : State) (d : Nat) : Option Nat :=
  let m := ((tget s.pool.drives d).map (fun x => x.member)).getD 0
  let others := s.pool.drives.filter (fun e => decide ((e.2.state = 3 ∨ e.2.state = 4 ∨ e.2.state = 5) ∧ e.1 ≠ d))
  let best := fun (l : List (Nat × Drive)) => l.foldl (fun (b : Option (Nat × Drive)) e => match b with
    | none => some e
    | some y => if e.2.member < y.2.member then some e else some y) none
  ((best (others.filter (fun e => decide (m < e.2.member)))).or (best others)).map Prod.fst

/-- Sign one manifest and store it on two members. -/
def signManifest (r : ManReq) (s : State) : State :=
  match recGet s r.stream with
  | none => s
  | some x =>
    let ws := manifestWords s x r
    let sig := match keyAny s x.key with
      -- a sealed key signs nothing (R350)
      | some (_, k) => if s.vault.selfTest && !sealed s k then beBytes (Config.ecdsaSign (k.key.getD 0) (Config.sha384 (bytesOf ws)) s.free).toNat 96 else zeros 96
      | none => zeros 96
    let all := ws ++ wordsOf sig
    let last := r.first + r.hashes.length - 1
    let d := ((s.pool.segments.find? (fun e => decide (e.stream = r.stream ∧ e.chain = last) && !e.alternate)).map
      (fun e => e.drive)).getD 0
    let d2 := nextMember s d
    let m : Manifest := {
      stream := r.stream, seq := r.seq, first := r.first, count := r.hashes.length
      words := all ++ List.replicate (1024 - all.length) 0, drive := d, drive2 := d2 }
    let s1 := recMod r.stream (fun x => { x with prevManifest := Config.sha384 (bytesOf all) })
      (setPool { s.pool with manifests := s.pool.manifests ++ [m] } { s with free := s.free + 1 })
    let s2 := issueOp d (.manifest r.stream r.seq) s1
    match d2 with
    | some d2 => issueOp d2 (.manifest r.stream r.seq) s2
    | none => s2

/-! ### Appending (R330, R334, R335, R337) -/

/-- Append one record, split where it does not fit (R331); what the pool has no room for is lost with the cause pool
full (R333). -/
def addRecord (h : Handle) (u : RecUnit) (contIn : Bool) : Nat → List Byte → State → State
  | 0, _, s => s
  | n + 1, data, s0 =>
    let s := if ((recGet s0 h).bind (fun x => x.seg)).isSome then s0 else openSeg h s0
    match (recGet s h).bind (fun x => x.seg) with
    | none => gapDue h 8 u.packets s
    | some g =>
      let room := payloadMax - g.bytes.length
      let total := 16 + (pad4 data).length
      if total ≤ room then putBytes h u (!contIn) (recordBytes u contIn false data) s
      else if room < 20 then addRecord h u contIn n data (closeSeg h false s)
      else
        let k := room - 16
        addRecord h u true n (data.drop k)
          (closeSeg h false (putBytes h u (!contIn) (recordBytes u contIn true (data.take k)) s))

/-- A record's bytes. -/
def unitSize (u : RecUnit) : Nat := 16 + (pad4 u.data).length

/-- Bytes of pieces of a stream that a member has yet to acknowledge, or will be given again. -/
def pieceBytes (h : Handle) (op : NvmeOp) : Nat :=
  match op with
  | .piece k _ n => if k = h then n else 0
  | _ => 0

/-- What a stream's buffer holds: every piece, of its open and of its closed segments, that no member has acknowledged
(R329, R334). -/
def buffered (s : State) (h : Handle) (x : Recording) : Nat :=
  (s.pool.ops.map (fun o => pieceBytes h o.2.1)).sum + (s.pool.redo.map (fun o => pieceBytes h o.2)).sum
    + (x.seg.map (fun g => g.bytes.length - g.issued)).getD 0 + (x.unplaced.map (fun e => e.payload)).sum

/-- A unit is appended; arriving data that finds the buffer full is dropped (R334, R335). -/
def appendUnit (h : Handle) (u : RecUnit) (s : State) : State :=
  match recGet s h with
  | none => s
  | some x =>
    if x.state = 2 then s
    else
      let waits := (x.seg.map (fun g => g.drive.isNone)).getD false || !x.unplaced.isEmpty
      let b := buffered s h x
      if (waits ∧ bufferB s h < b + unitSize u) ∨ bufferB s h ≤ b then gapDue h (if waits then 5 else 7) u.packets s
      else pieces h false (addRecord h u false (u.data.length / 1000000 + 4) u.data s)

/-- Keep an access unit, or a loss, for the pre-roll: those of the last PREROLL_MS (R332, R337). -/
def keepPreroll (h : Handle) (u : List RecUnit) (g : List (Nat × Nat × Nat × Nat)) (s : State) : State :=
  recMod h (fun x => { x with
    prerollBuf := (x.prerollBuf ++ u.filter (fun v => decide (v.type = 1))).filter (fun v =>
      decide (now s ≤ v.arrival + x.preroll * 1000))
    prerollGaps := (x.prerollGaps ++ g).filter (fun v => decide (now s ≤ v.2.2.2 + x.preroll * 1000)) }) s

/-- A unit goes to the stream: a FALLBACK stream appends it only in an episode. -/
def storeUnit (h : Handle) (u : RecUnit) (s : State) : State :=
  match recGet s h with
  | none => s
  | some x => if x.fallback ∧ x.episode = false then keepPreroll h [u] [] s else appendUnit h u s

/-! ### Fallback episodes (R337) -/

/-- An episode starts on a FALLBACK stream. -/
def startEpisode (h : Handle) (s : State) : State :=
  match recGet s h with
  | none => s
  | some x =>
    if x.state = 2 ∨ x.fallback = false then s
    else if x.episode then recMod h (fun x => { x with episodeEnds := none }) s
    else
      let s1 := closeSeg h true s
      let s2 := recMod h (fun x => { x with
        episode := true, episodeEnds := none, prerollBuf := [], prerollGaps := []
        gapsDue := x.gapsDue ++ x.prerollGaps.filter (fun v => decide (now s ≤ v.2.2.2 + x.preroll * 1000))
          ++ [(9, 0, now s, now s)] }) s1
      let s3 := openSeg h (recState h 1 s2)
      x.prerollBuf.foldl (fun s u => if now s ≤ u.arrival + x.preroll * 1000 then appendUnit h u s else s) s3

/-- The episode ends: a gap record of cause 10, the segment closes, and an EPISODE manifest is signed. -/
def endEpisode (h : Handle) (s : State) : State :=
  let g := gapUnit (10, 0, now s, now s)
  let s1 := closeSeg h true (addRecord h g false 4 g.data s)
  recState h 0 (dueManifest h 4 (recMod h (fun x => { x with episode := false, episodeEnds := none }) s1))

/-! ### Source changes (R183, R331) -/

/-- The routed entry is in an episode of its own: it has FALLBACK, and its pair is in BOTH_LOST (R337). -/
def entryLost (s : State) (h : Handle) : Bool :=
  match (recEntry s h).bind (tget s.eth.entries) with
  | some e => e.fallback && decide (8 ≤ e.addr.port) && decide ((pairGet s (e.addr.port - 8)).state = 3)
  | none => false

/-- The segment of the old source closes, and the next one carries the change. An episode is one of its entry: it ends,
and one of the new entry goes on. -/
def cutSource (h : Handle) (s : State) : State :=
  if ((recGet s h).map (fun x => x.episode)).getD false then
    let s1 := gapDue h 4 0 (endEpisode h s)
    if entryLost s1 h then startEpisode h s1 else s1
  else
    let s1 := gapDue h 4 0 (closeSeg h true s)
    if entryLost s1 h then startEpisode h s1 else s1

/-- The old source's last unit has ended, or nothing more of it will come; what the new one has brought follows. -/
def endSource (h : Handle) (s : State) : State :=
  match recGet s h with
  | none => s
  | some x => match x.finishing with
    | none => s
    | some (_, u) =>
      let s1 := cutSource h (storeUnit h u (recMod h (fun x => { x with finishing := none, held := [] }) s))
      x.held.foldl (fun s u => storeUnit h u s) s1

/-- The route to a stream has changed from one source to another: the old one's unit in arrival is still taken; the new
one is taken from its first random-access point. -/
def sourceChanged (h : Handle) (old new : Option Handle) (s : State) : State :=
  if old = new then s
  else match recGet (endSource h s) h with
    | none => s
    | some x =>
      if x.state = 2 then s
      else
        let s1 := recMod h (fun x => { x with awaitRap := true, arriving := none }) (endSource h s)
        match old, x.arriving with
        | none, _ => if entryLost s1 h then startEpisode h s1 else s1
        | some e, some u => if x.awaitRap then cutSource h s1 else recMod h (fun x => { x with finishing := some (e, u) }) s1
        | some _, none => cutSource h s1

/-- An entry goes: nothing more comes of the units it was finishing. -/
def dropFinishing (e : Handle) (s : State) : State :=
  (tkeys s.pool.streams).foldl (fun s h =>
    if ((recGet s h).bind (fun x => x.finishing)).map Prod.fst = some e then endSource h s else s) s

/-- A unit of the new source waits until the old one's last unit has ended. DESIGN CHOICE (log entry 150): an old unit
that does not end is ended when the buffer is full. -/
def holdUnit (h : Handle) (u : RecUnit) (s : State) : State :=
  let s1 := recMod h (fun x => { x with held := x.held ++ [u] }) s
  if bufferB s1 h < (((recGet s1 h).map (fun x => x.held)).getD [] |>.map unitSize).sum then endSource h s1 else s1

/-- A unit of the routed entry is complete. After a change of source the first one taken is a random-access point, and
what the old source has not finished comes before it (R183). -/
def takeUnit (h : Handle) (u : RecUnit) (s : State) : State :=
  match recGet s h with
  | none => s
  | some x =>
    if x.awaitRap ∧ (u.type ≠ 1 ∨ u.rap = false) then s
    else
      let s1 := recMod h (fun x => { x with awaitRap := false }) s
      if x.finishing.isSome then holdUnit h u s1 else storeUnit h u s1

/-- Apply what waits at a recorded stream's destination: it has no clock, so at once (R49, R183). -/
def applyRecorded (d : Nat) (s : State) : State :=
  let h := destHandle d
  let old := recEntry s h
  let s1 := applyDest d s
  sourceChanged h old (recEntry s1 h) s1

/-- Recorded streams and heads in OFF, with routes that end: they have no clock, so at once (R49, R172). -/
def endRecorded (s : State) : State :=
  (tkeys s.dests).foldl (fun s d =>
    if dKind d = 3 ∧ !(destGet s d).ending.isEmpty then applyRecorded d s else s) (endIdle s)

/-! ### Stalls and returns (R325, R334, R335) -/

/-- An open segment on a member that has stalled or gone: a new one of the same number takes what the old
member has not acknowledged. -/
def moveSeg (h : Handle) (s : State) : State :=
  match (recGet s h).bind (fun x => x.seg) with
  | none => s
  | some g =>
    let s1 := setPool { s.pool with abandoned := s.pool.abandoned ++ [(h, { g with bytes := g.bytes.take g.acked })] } s
    let g1 : OpenSeg := { g with
      drive := none, slot := 0, bytes := g.bytes.drop g.acked, issued := 0, acked := 0
      starts := (g.starts.filter (fun k => decide (g.acked ≤ k))).map (fun k => k - g.acked) }
    let s2 := recMod h (fun x => { x with seg := some g1 }) s1
    match place s2 h true with
    | .on d => pieces h false (putOn h d g1 s2)
    | _ => s2

/-- A command whose effect a returning member still needs: not a piece of a segment that is open on it, which another
member takes over (R334). -/
def needsRedo (s : State) (d : Nat) (op : NvmeOp) : Bool :=
  match op with
  | .piece h c _ => !((recGet s h).bind (fun x => x.seg)).any (fun g => decide (g.chain = c ∧ g.drive = some d))
  | .header _ _ => true
  | .flush _ _ => true
  | .manifest _ _ => true
  | .trimManifest _ _ => true
  | .deallocate _ _ => true
  | _ => false

/-- Commands that create a controller's queue pair (R323). -/
def queueOps : List NvmeOp := [.setQueues, .createCq 256, .createSq 256]

/-- A member stalls or goes missing: its commands count as failed and open segments move. -/
def loseMember (d st : Nat) (s : State) : State :=
  let again := (s.pool.ops.filter (fun o => decide (o.1 = d) && needsRedo s d o.2.1)).map (fun o => (d, o.2.1))
  let s0 := driveState d st (setPool { s.pool with
    ops := s.pool.ops.filter (fun o => decide (o.1 ≠ d)), redo := s.pool.redo ++ again } s)
  -- a stalled controller is reset and its queues are created again (R325)
  let s1 := if st = 4 then (NvmeOp.resetController :: queueOps).foldl (fun s o => send (.nvme d o) s) s0 else s0
  (tkeys s1.pool.streams).foldl (fun s h =>
    if ((recGet s h).bind (fun x => x.seg)).bind (fun g => g.drive) = some d then moveSeg h s else s) s1

/-- A member returns: headers of its abandoned segments are written as ALTERNATEs, writes that had failed are issued
again, and waiting streams go on (R334, R335). -/
def memberBack (d : Nat) (s : State) : State :=
  let s1 := driveState d 3 s
  let mine := s1.pool.abandoned.filter (fun e => decide (e.2.drive = some d))
  let s2 := mine.foldl (fun s e => match recGet s e.1 with
    | none => s
    | some x =>
      let fl := segFlags e.2 true
      let img := slotBytes (segHeader s e.1 x e.2 fl) e.2.bytes
      issueOp d (.header e.1 e.2.chain) (setPool { s.pool with segments := s.pool.segments ++ [{
        stream := e.1, chain := e.2.chain, drive := d, slot := e.2.slot, group := x.nextManifest
        payload := e.2.bytes.length, records := e.2.starts.length, flags := fl, hash := Config.sha384 img, bytes := img
        alternate := true }] } s))
    (setPool { s1.pool with abandoned := s1.pool.abandoned.filter (fun e => decide (e.2.drive ≠ some d)) } s1)
  let s3 := (s2.pool.redo.filter (fun o => decide (o.1 = d))).foldl (fun s o => issueOp d o.2 s)
    (setPool { s2.pool with redo := s2.pool.redo.filter (fun o => decide (o.1 ≠ d)) } s2)
  reopenAll s3

/-- What a member held that had not been written is lost for good: its abandoned segments, and closed ones (R334). -/
def loseAbandoned (d : Nat) (s : State) : State :=
  let mine := s.pool.abandoned.filter (fun e => decide (e.2.drive = some d))
  let cut := s.pool.segments.filter (fun e => decide (e.drive = d) && !e.written)
  let s1 := mine.foldl (fun s e => lose e.1 e.2.chain e.2.bytes.length (some d) s)
    (setPool { s.pool with
      abandoned := s.pool.abandoned.filter (fun e => decide (e.2.drive ≠ some d))
      redo := s.pool.redo.filter (fun o => decide (o.1 ≠ d))
      segments := s.pool.segments.filter (fun e => !(decide (e.drive = d) && !e.written)) } s)
  cut.foldl (fun s e => closeGroup e.stream (lose e.stream e.chain e.payload (some d) s)) s1

/-! ### Closing a stream (R328, R345) -/

/-- Close a stream: its open segment, and a FINAL manifest. -/
def closeStream (h : Handle) (s : State) : State :=
  match recGet s h with
  | none => s
  | some x =>
    if x.state = 2 then s
    else
      let s0 := endSource h s
      let s1 := match x.arriving with
        | some u => if (x.fallback ∧ x.episode = false) ∨ (x.awaitRap ∧ u.rap = false) then s0 else appendUnit h u s0
        | none => s0
      recState h 2 (dueManifest h 1 (recMod h (fun x => { x with
        arriving := none, finishing := none, episode := false, episodeEnds := none, prerollBuf := [], prerollGaps := []
        held := [] }) (closeSeg h true s1)))

/-! ### Zeroisation (R348) -/

def setVault (v : Vault) (s : State) : State := { s with vault := v }

def slotGet (s : State) (k : Nat) : KeySlot := (tget s.vault.slots k).getD {}

def slotPut (k : Nat) (x : KeySlot) (s : State) : State := setVault { s.vault with slots := tset s.vault.slots k x } s

/-- The handle of a slot's key (R347). -/
def keyHandle (k : Nat) (x : KeySlot) : Handle := handleOf x.owner 7 (k + 1024 * x.gen)

/-- Overwrite a key: the slot's generation advances, or the slot is retired (R347, R348). -/
def destroyKey (k : Nat) (s : State) : State :=
  let g := (slotGet s k).gen
  slotPut k { gen := if g = 16383 then g else g + 1, retired := decide (g = 16383) } s

/-- The streams of a key. -/
def keyStreams (s : State) (key : Handle) : List Handle :=
  (s.pool.streams.filter (fun e => decide (e.2.key = key))).map Prod.fst

/-- Segments of a key's streams are being written on members: their manifests are still to come (R336). -/
def keyPending (s : State) (key : Handle) : Bool :=
  s.pool.segments.any (fun e => decide (e.stream ∈ keyStreams s key) && !e.written && !e.alternate && readable s e.drive)

/-- Every manifest of a key is signed at once: requests queued, and the groups of written segments (R348). -/
def signAllOf (key : Handle) (s : State) : State :=
  let mine := keyStreams s key
  let s1 := mine.foldl (fun s h => match (recGet s h).bind (fun x => x.closing) with
    | some fl => askManifest h fl (recMod h (fun x => { x with closing := none }) s)
    | none => s) s
  let q := s1.pool.queue
  (q.filter (fun r => decide (r.stream ∈ mine))).foldl (fun s r => signManifest r s)
    (setPool { s1.pool with queue := q.filter (fun r => !decide (r.stream ∈ mine)) } s1)

/-- Steps 3 and 4 of a zeroisation, once the key's last segments are written; a command that has waited completes. -/
def finishKey (k : Nat) (s : State) : State :=
  let h := keyHandle k (slotGet s k)
  if (slotGet s k).closing = false ∨ keyPending s h = true then s
  else
    let s1 := raise 228 0 (destroyKey k (signAllOf h s))
    match s1.exec with
    | some e => if e.waits = .zeroise k then complete e true h .ok [] s1 else s1
    | none => s1

/-- Every zeroisation that can be finished is. -/
def finishKeys (s : State) : State :=
  ((s.vault.slots.filter (fun e => e.2.closing)).map Prod.fst).foldl (fun s k => finishKey k s) s

/-- Zeroise a key in the order of R348. -/
def zeroise (k : Nat) (s : State) : State :=
  let h := keyHandle k (slotGet s k)
  finishKey k ((keyStreams s h).foldl (fun s r => closeStream r s) (slotPut k { slotGet s k with closing := true } s))

/-! ### Episodes of a pair (R337, R338) -/

/-- Entries of a pair lose both paths: those with FALLBACK switch to local recording (R319, R337, R338). -/
def episodesOf (pair : Nat) (s : State) : State :=
  s.eth.entries.foldl (fun s e =>
    if e.2.fallback ∧ e.2.addr.port = 8 + pair then
      let l := (recordingsOf s e.1).filter (fun h => ((recGet s h).map (fun x => x.fallback)).getD false)
      if l.isEmpty then raise 108 7 s else l.foldl (fun s h => startEpisode h s) s
    else s) s

/-- The pair has left BOTH_LOST: the post-roll runs (R337). -/
def postrollOf (pair : Nat) (s : State) : State :=
  (tkeys s.pool.streams).foldl (fun s h =>
    match recGet s h, (recEntry s h).bind (tget s.eth.entries) with
    | some x, some e =>
      if x.episode ∧ e.addr.port = 8 + pair then
        recMod h (fun x => { x with episodeEnds := some (now s + x.postroll * 1000) }) s
      else s
    | _, _ => s) s

/-! ### Packets of an entry (R330, R332) -/

/-- A gap in what an entry delivers: every stream that records it marks it. -/
def entryGap (e : Handle) (cause lost : Nat) (s : State) : State :=
  (recordingsOf s e).foldl (fun s h =>
    match recGet s h with
    | none => s
    | some x =>
      if x.fallback ∧ x.episode = false then
        keepPreroll h [] [(cause, lost, ((x.prerollBuf.getLast?).map (fun u => u.arrival)).getD (now s), now s)] s
      else gapDue h cause lost s) s

/-- The unit in arrival is complete. -/
def endUnit (h : Handle) (s : State) : State :=
  match (recGet s h).bind (fun x => x.arriving) with
  | none => s
  | some u => takeUnit h u (recMod h (fun x => { x with arriving := none }) s)

/-- A packet joins an access unit. -/
def joinUnit (u : RecUnit) (p : Rtp) (rap : Bool) : RecUnit :=
  { u with packets := u.packets + 1, data := u.data ++ p.payload, rap := u.rap || rap }

/-- A packet of an entry reaches a stream that records it: audio is a record of its own, video joins the access
unit that is arriving; of an old source only its last unit is taken. -/
def recordPacket (h e : Handle) (audio : Bool) (p : Rtp) (s : State) : State :=
  let one : RecUnit := { type := if audio then 2 else 1, arrival := now s, ts := p.ts, seq := p.seq, packets := 1, data := p.payload }
  match (recGet s h).bind (fun x => x.finishing) with
  | some (o, u) =>
    if o = e then
      if audio then storeUnit h one s
      else match p.ess with
        | .bitstream m =>
          if m.first then endSource h s
          else
            let s1 := recMod h (fun x => { x with finishing := some (o, joinUnit u p m.rap) }) s
            if m.last then endSource h s1 else s1
        | _ => s
    else newPacket h one audio p s
  | none => newPacket h one audio p s
where
  /-- A packet of the routed entry. -/
  newPacket (h : Handle) (one : RecUnit) (audio : Bool) (p : Rtp) (s : State) : State :=
    if audio then takeUnit h one s
    else match p.ess with
      | .bitstream m =>
        let s1 := if m.first then endUnit h s else s
        let open_ := ((recGet s1 h).bind (fun x => x.arriving)).isSome
        -- after a change of source no unit is taken from its middle
        if !open_ ∧ !m.first ∧ ((recGet s1 h).map (fun x => x.awaitRap)).getD false then s1
        else
          let s2 := recMod h (fun x => { x with arriving := some (match x.arriving with
            | none => { one with rap := m.rap }
            | some u => joinUnit u p m.rap) }) s1
          if m.last then endUnit h s2 else s2
      | _ => s

end Sys2Proof.Machine
end

