-- ==== Sys2Proof/Machine/Ethernet.lean ====
section
/-! DEFINITION. Ethernet ports, compressed stream entries, relay, ST 2110 flows and Yo-yo pairs: the
ethernet-class commands (R304–R322) and the events of ports, packets and pairs. -/

namespace Sys2Proof.Machine

open Sys2Proof

/-! ### Ports (R304, R322) -/

/-- Entries, relays or flows that name a port, or the pair it belongs to. -/
def ethBound (s : State) (p : Nat) : Bool :=
  let on := fun (a : Addr) => decide (p ∈ portsOf a.port)
  s.eth.entries.any (fun e => (e.2.encoder.isNone && on e.2.addr) || e.2.relays.any (fun r => on r.2))
    || s.eth.flows.any (fun f => on f.2.addr)

/-- A 128-bit field of a body, low word first. -/
def bn128 (c : Ctx) (i : Nat) : BitVec 128 := bw c (i + 3) ++ bw c (i + 2) ++ bw c (i + 1) ++ bw c i

def cmdSetEthPort (c : Ctx) (s : State) : CmdOut :=
  let p := bf c 0 2 0
  let sub := bf c 0 9 8
  if (!bb c 0 6 ∧ sub ≠ 0) ∨ 32 < bf c 2 5 0 then refuse .range
  else if ethBound s p then refuse .state
  else
    let s1 := ethMod p (fun x => { x with mode := bf c 0 5 4, breakout := bb c 0 6 }) s
    .done .ok [] (rehop (ethMod (ethKey p sub) (fun x => { x with
      ipv4 := bw c 1, prefixLen := bf c 2 5 0, ipv6 := bn128 c 3, gw4 := bw c 7, gw6 := bn128 c 8 }) s1))

def cmdGetEthStatus (c : Ctx) (s : State) : CmdOut :=
  let p := bf c 0 3 0
  let sub := bf c 0 5 4
  let on := fun (a : Addr) => decide (p ∈ portsOf a.port)
  if 12 ≤ p ∨ (sub ≠ 0 ∧ (8 ≤ p ∨ !(ethGet s p).breakout)) then refuse .range
  else if 8 ≤ p then
    let y := pairGet s (p - 8)
    .done .ok [word y.state, word y.effHoldoff, word y.switchOvers,
      if y.switchOvers = 0 then Config.freeWord s.free else word ((now s - y.lastSwitch) / 1000)] s
  -- results only for ports that carry the issuer's entries or flows; the others read 0
  else if c.page ≠ 0 ∧ !(s.eth.entries.any (fun e => decide (hPart e.1 = c.page) && on e.2.addr)
      || s.eth.flows.any (fun f => decide (f.2.owner = c.page) && on f.2.addr)) then .done .ok [0, 0, 0, 0, 0, 0] s
  else
    let x := ethGet s (ethKey p sub)
    let mac := Config.macAddress p sub
    .done .ok [word (b1 (ethUp s (ethKey p sub))), word mac, word (mac / 2 ^ 32 % 65536), word x.unmatched, word x.bufferDrops, word x.fecBad] s

/-! ### Address blocks (Table 13-2) -/

/-- The address block in body words i to i + 5. -/
def addrOf (c : Ctx) (i : Nat) : Addr :=
  { port := bf c i 3 0, subport := bf c i 5 4, ipv6 := bb c i 6, vlan := if bb c i 7 then some (bf c i 27 16) else none
    udp := bf c (i + 1) 15 0, dst := bn128 c (i + 2) }

/-- Reserved bits of the block's first two words. -/
def addrRsv : List Word := [field 7 0 ||| field 27 16, field 15 0]

/-- An IPv4 address stands in the first word. -/
def v4Good (ipv6 : Bool) (a : BitVec 128) : Bool := ipv6 || decide (a.toNat < 2 ^ 32)

def addrFault (c : Ctx) (i : Nat) (s : State) : Option Status :=
  let a := addrOf c i
  if 12 ≤ a.port ∨ (bb c i 7 ∧ (bf c i 27 16 = 0 ∨ bf c i 27 16 = 4095)) then some .range
  else if (!bb c i 7 ∧ bf c i 27 16 ≠ 0) ∨ !v4Good a.ipv6 a.dst
    ∨ (a.subport ≠ 0 ∧ (8 ≤ a.port ∨ !(ethGet s a.port).breakout)) then some .inconsistent
  else none

/-- Join or leave a group. -/
def sendGroup (isJoin : Bool) (port : Nat) (a : Addr) (src : BitVec 128) (s : State) : State :=
  if isMulticast a.ipv6 a.dst then
    send (if isJoin then .join (ethKey port a.subport) a.dst src else .leave (ethKey port a.subport) a.dst) s
  else s

/-- Join or leave the group of an entry on the port it runs on; in BOTH_LOST on both. -/
def groupNow (isJoin : Bool) (a : Addr) (src : BitVec 128) (s : State) : State :=
  match runsOn s a.port with
  | some p => sendGroup isJoin p a src s
  | none => (portsOf a.port).foldl (fun s p => sendGroup isJoin p a src s) s

/-! ### Stream entries and relay (R307–R309) -/

def cmdCreateStreamEntry (c : Ctx) (s : State) : CmdOut :=
  let audio := bb c 0 16
  let vpt := bf c 0 7 1
  let apt := bf c 0 14 8
  let a := addrOf c 1
  let src := bn128 c 7
  let own := ownAddress s ((runsOn s a.port).getD (2 * (a.port - 8))) a.subport a.ipv6
  if vpt < 96 ∨ (audio ∧ apt ≠ 0 ∧ apt ≠ 8 ∧ apt < 96) ∨ addrFault c 1 s = some .range ∨ bn c 11 < 64 ∨ 400000 < bn c 11
    then refuse .range
  else if (audio ∧ apt = vpt) ∨ (!audio ∧ apt ≠ 0) ∨ (addrFault c 1 s).isSome ∨ !v4Good a.ipv6 src
    ∨ (!isMulticast a.ipv6 a.dst ∧ a.dst ≠ own) then refuse .inconsistent
  else if 8192 ≤ s.eth.entries.length ∨ quotaOf s c.page 3 ≤ quotaUse s c.page 3 then refuse .quota
  else
    let (h, s1) := newHandle c.page 1 s
    let e : Entry := {
      h265 := bb c 0 0, videoPt := vpt, audioPt := apt, audioEn := audio, fallback := bb c 0 15
      addr := a, src := src, maxKbps := bn c 11 }
    let s2 := srcPut h { owner := c.page, kind := .entry } s1
    let s3 := groupNow true a src (setEth { s2.eth with entries := tset s2.eth.entries h e } s2)
    admitted s s3 (.done .ok [word h] s3)

/-- Remove an entry: routes to recorded streams end at once, and its group is left. -/
def deleteEntry (h : Handle) (s : State) : State :=
  match tget s.eth.entries h with
  | none => s
  | some e =>
    let s1 := if e.encoder.isNone then groupNow false e.addr e.src s else s
    rehop (dropFinishing h (endRecorded (deleteSource h (setEth { s1.eth with entries := tdel s1.eth.entries h } s1))))

/-- An entry of the issuer, or any for P0. -/
def withEntry (c : Ctx) (s : State) (k : Entry → CmdOut) : CmdOut :=
  withOwnSource c.page s (bn c 0) fun _ =>
    match tget s.eth.entries (bn c 0) with
    | none => refuse .noSuchHandle
    | some e => k e

def cmdDeleteStreamEntry (c : Ctx) (s : State) : CmdOut :=
  withEntry c s fun _ => .done .ok [] (deleteEntry (bn c 0) s)

def cmdSetRelay (c : Ctx) (s : State) : CmdOut :=
  withEntry c s fun e =>
    let i := bf c 1 2 0
    let put := fun (l : Tbl Addr) =>
      rehop (setEth { s.eth with entries := tset s.eth.entries (bn c 0) { e with relays := l } } s)
    if (List.range 6).all (fun k => bw c (2 + k) == 0) then .done .ok [] (put (tdel e.relays i))
    else if 4 ≤ i then refuse .quota
    else if (addrFault c 2 s).isSome then refuse .range
    else
      -- an encode context's targets go out on its OUT_PORT (R342)
      let a := addrOf c 2
      let s1 := put (tset e.relays i (if e.encoder.isSome then { a with port := e.addr.port } else a))
      admitted s s1 (.done .ok [] s1)

/-! ### Flows (R310–R313) -/

/-- Reserved bits of CREATE_FLOW, by what the flow is. -/
def flowRsv (b : List Word) : Bool :=
  let tx := bit (wd b 0) 10
  let ess := bits (wd b 0) 12 11
  within ([field 13 0 ||| field 19 16] ++ addrRsv ++ List.replicate 4 0xFFFFFFFF
    ++ (if !tx then [] else if ess = 0 then formatRsv ++ [field 6 0]
      else if ess = 2 then [field 9 0, 0xFFFFFFFF, 0xFFFFFFFF, field 6 0] else [0xFFFFFFFF, 0xFFFFFFFF, 0xFFFFFFFF, field 6 0])) b

/-- The head whose IP sink is a flow. -/
def sinkHead (s : State) (n : Nat) : Option Nat :=
  (List.range 64).find? (fun h =>
    let x := headGet s h
    decide (x.act.sink = .ip n) || decide ((x.pend.map (fun p => p.sink)) = some (.ip n)))

def cmdCreateFlow (c : Ctx) (s : State) : CmdOut :=
  let n := bf c 0 9 0
  let tx := bb c 0 10
  let ess := bf c 0 12 11
  let video := tx && decide (ess = 0)
  let f := formatOf (bw c 7) (bw c 8) (bw c 9)
  let from_ := bn c 8
  if ess = 3 ∨ (!tx ∧ ess = 0 ∧ 159 < n) ∨ addrFault c 1 s = some .range ∨ (video ∧ !formatRange f)
    ∨ (tx ∧ ess = 2 ∧ (bf c 10 6 0 < 96 ∨ (from_ ≠ 0 ∧ !(destGood from_ && decide (dKind from_ = 1))))) then refuse .range
  else if (!video ∧ bb c 0 13) ∨ (!tx ∧ bf c 0 19 16 ≠ 0) ∨ (addrFault c 1 s).isSome
    ∨ (video ∧ (!formatAgrees (.st2110 0 false none) f ∨ f.store ≠ 0 ∨ bn c 9 ≠ 0)) ∨ (!tx ∧ !v4Good (addrOf c 1).ipv6 (bn128 c 7))
    ∨ (tx ∧ ess = 1 ∧ (bn c 7 ≠ 0 ∨ bn c 8 ≠ 0 ∨ bn c 9 ≠ 0)) then refuse .inconsistent
  else if tx ∧ ess = 2 ∧ (bn c 9 ≠ 0
      ∨ !((tget s.eth.flows (bf c 7 9 0)).map (fun v => v.tx && decide (v.essence = 0 ∧ v.owner = c.page))).getD false
      ∨ (from_ ≠ 0 ∧ sinkHead s (bf c 7 9 0) ≠ some (dHead from_))) then refuse .inconsistent
  else if (tget s.eth.flows n).isSome then refuse .busy
  else
    let x : Flow := {
      owner := c.page, tx := tx, essence := ess, wide := bb c 0 13, td := bf c 0 19 16, addr := addrOf c 1
      src := if tx then 0 else bn128 c 7, fmt := if video then f else {}
      pt := if tx then bf c 10 6 0 else 0, pair := if tx ∧ ess = 2 then bf c 7 9 0 else 0
      fromLayer := if tx ∧ ess = 2 then from_ else 0, since := now s }
    let s1 := setEth { s.eth with flows := tset s.eth.flows n x } s
    let s2 := rehop (if tx then s1 else groupNow true x.addr x.src s1)
    admitted s s2 (.done .ok [word n] s2)

/-- A flow that something uses: a sink, a route, a stream, an input or output, or the -40 flow beside it. -/
def flowBound (s : State) (n : Nat) : Bool :=
  (sinkHead s n).isSome || isRouted s (flowDest n)
    || s.boxes.any (fun b => b.2.staged.any (fun i => match i with | .sink _ k => decide (k = .ip n) | _ => false))
    || s.sources.any (fun e => !e.2.deleted && (match e.2.kind with
      | .st2110 m _ a => decide (m = n) || decide (a = some n)
      | .audio m => decide (m = n)
      | _ => false))
    || s.audio.inputs.any (fun e => decide (e.2.flow = some n))
    || (outGet s (2 * 2 ^ 28 + n)).isSome
    || s.eth.flows.any (fun f => f.2.tx && decide (f.2.essence = 2 ∧ f.2.pair = n))

def cmdDeleteFlow (c : Ctx) (s : State) : CmdOut :=
  let n := bf c 0 9 0
  match tget s.eth.flows n with
  | none => refuse (if c.page = 0 then .state else .notOwner)
  | some f =>
    if c.page ≠ 0 ∧ f.owner ≠ c.page then refuse .notOwner
    else if flowBound s n then refuse .state
    else
      let s1 := if f.tx then s else groupNow false f.addr f.src s
      .done .ok [] (rehop (setEth { s1.eth with flows := tdel s1.eth.flows n } s1))

/-- Entry i of a SEND_ANC block. -/
def ancAt (c : Ctx) (i : Nat) : Anc :=
  let at_ := 1 + 132 * i
  let h := (List.range 4).map (fun k => bw c (at_ + k))
  let get := fun (k m : Nat) => Config.ancField h k % m
  { did := get 0 1024, sdid := get 1 1024, line := get 2 2048, hoff := get 3 4096
    words := (List.range (get 4 256)).map (fun k => bits (bw c (at_ + 4 + k / 2)) (16 * (k % 2) + 9) (16 * (k % 2))) }

/-- Reserved bits of a SEND_ANC block: the upper half of each entry's last word is 0. -/
def ancRsv (b : List Word) : Bool :=
  within [field 9 0 ||| field 19 16] (b.take 1) && (List.range ((b.length - 1) / 132)).all (fun i => decide (bits (wd b (132 * (i + 1))) 31 16 = 0))

def cmdSendAnc (c : Ctx) (s : State) : CmdOut :=
  let n := bf c 0 19 16
  let k := bf c 0 9 0
  match tget s.eth.flows k with
  | none => refuse .state
  | some f =>
    if c.page ≠ 0 ∧ f.owner ≠ c.page then refuse .notOwner
    else if !f.tx ∨ f.essence ≠ 2 then refuse .state
    else if c.len ≠ 4 + 528 * n then refuse .length
    else
      let l := (List.range n).map (ancAt c)
      if n = 0 ∨ 8 < n ∨ l.any (fun a => decide (a.did = 0 ∨ a.sdid = 0)) then refuse .range
      else if 64 < f.hostQueue.length + n then refuse .busy
      else .done .ok [word n, word (64 - f.hostQueue.length - n), word f.ancDropped]
        (flowMod k (fun f => { f with hostQueue := f.hostQueue ++ l.map (fun a => (a, 0)) }) s)

/-! ### Yo-yo pairs (R314–R320) -/

/-- Entries, and flows, of a pair. -/
def pairEntries (s : State) (k : Nat) : List Entry :=
  (s.eth.entries.map Prod.snd).filter (fun e => e.encoder.isNone && decide (e.addr.port = 8 + k))

def pairFlows (s : State) (k : Nat) : List Flow :=
  (s.eth.flows.map Prod.snd).filter (fun f => !f.tx && decide (f.addr.port = 8 + k))

/-- The pair has a receive entry. -/
def pairReceives (s : State) (k : Nat) : Bool := !(pairEntries s k).isEmpty || !(pairFlows s k).isEmpty

/-- Joins, or leaves, for every group of a pair on a port. -/
def pairGroups (isJoin : Bool) (k port : Nat) (s : State) : State :=
  (((pairEntries s k).map (fun e => (e.addr, e.src))) ++ (pairFlows s k).map (fun f => (f.addr, f.src))).foldl
    (fun s a => sendGroup isJoin port a.1 a.2 s) s

/-- More than 100 uncorrectable codewords in the present millisecond or the one before. -/
def fecBurst (s : State) (p : Nat) : Bool :=
  let x := ethGet s p
  decide (100 < x.fecMsCount ∧ now s / 1000 ≤ x.fecMs + 1)

def linkFault (s : State) (p : Nat) : Bool := !ethUp s p || fecBurst s p

/-- Next hops of a pair's relay and transmit destinations on a port. -/
def pairHops (s : State) (k port : Nat) : List NextHop :=
  (hopsOf s ((egressTo s).filter (fun a => decide (a.port = 8 + k)))).filterMap (fun e =>
    if e.1 = port then findHop s e.1 e.2 else none)

/-- A next hop on the port has replied within SILENCE_MS; a port without next hops lacks none. -/
def hopsReached (s : State) (k port : Nat) : Bool :=
  let l := pairHops s k port
  l.isEmpty || l.any (fun h => h.mac.isSome && decide (now s < h.lastReply + (pairGet s k).silenceMs * 1000))

/-- Port A is clean (R318). -/
def aClean (s : State) (k : Nat) : Bool :=
  !linkFault s (2 * k) && (!(pairGet s k).criteria.getLsbD 2 || hopsReached s k (2 * k))

/-- Next hops that have not been resolved on a port, a standby until now, are probed. -/
def probeHops (k port : Nat) (s : State) : State :=
  (pairHops s k port).foldl (fun s h => if h.mac.isNone then sendProbe port h.address s else s) s

/-- The pair enters a state (R316, R319): joins, leaves, sub-cause and YOYO_STATE; recording turns local at entry
to BOTH_LOST and returns when it is left. -/
def enterPair (k st crit : Nat) (failed : Bool) (s : State) : State :=
  let y := pairGet s k
  if y.state = st then s
  else
    let moved := decide (activeIn k st ≠ activeIn k y.state)
    let eff := if failed then min 3600 (2 * y.effHoldoff) else y.effHoldoff
    let counts := decide (y.state ≠ 0 ∧ st ≠ 0 ∧ st ≠ 3)
    let s1 := pairPut k { y with
      armed := decide (st ≠ 0), state := st, effHoldoff := eff, lastPacket := now s, lastReply := now s
      silence := false, nexthop := false, reachA := none, reachB := none, returned := false
      onASince := if st = 1 then now s else y.onASince
      aCleanSince := if st = 2 ∧ aClean s k then some (now s) else none
      switchOvers := if counts then sat 0xFFFFFFFF y.switchOvers 1 else y.switchOvers
      lastSwitch := if counts then now s else y.lastSwitch } s
    -- R316: joins on the new port, then leaves on the old one while its link is up
    let s2 := if st = 3 then
        probeHops k (2 * k + 1) (probeHops k (2 * k) (pairGroups true k (2 * k + 1) (pairGroups true k (2 * k) s1)))
      else if moved then
        let new := (activeIn k st).getD (2 * k)
        let old := if new = 2 * k then 2 * k + 1 else 2 * k
        let s2 := probeHops k new (pairGroups true k new s1)
        if ethUp s2 old then pairGroups false k old s2 else s2
      else s1
    let s3 := if counts then setEth { s2.eth with entries := tall s2.eth.entries (fun _ e =>
      if e.addr.port = 8 + k then { e with switched := true } else e) } s2 else s2
    let s4 := if st = 3 then raise (104 + k) 2 s3
      else if y.state = 3 ∧ st ≠ 0 then raise (104 + k) 3 s3
      else if st = 2 then raise (104 + k) 0 s3
      else if st = 1 ∧ y.state = 2 then raise (104 + k) 1 s3
      else s3
    let s5 := if failed then raise (104 + k) 4 s4 else s4
    let s6 := postNtf 0 0x0C01 [word k, word st, word crit, word eff] s5
    if st = 3 then episodesOf k s6 else if y.state = 3 then postrollOf k s6 else s6

/-- The criterion that faults on the active port, if any (R315). -/
def pairFiring (s : State) (k : Nat) : Option Nat :=
  let y := pairGet s k
  match activeIn k y.state with
  | none => none
  | some p =>
    if y.criteria.getLsbD 0 ∧ linkFault s p then some 0
    else if y.criteria.getLsbD 1 ∧ y.silence then some 1
    else if y.criteria.getLsbD 2 ∧ y.nexthop then some 2
    else none

/-- One evaluation of a pair. -/
def evaluatePair (k : Nat) (s : State) : State :=
  let y := pairGet s k
  let b := 2 * k + 1
  match y.state with
  | 1 =>
    match pairFiring s k with
    | none => s
    | some crit =>
      if !ethUp s b ∨ (y.criteria.getLsbD 0 ∧ fecBurst s b) then enterPair k 3 crit false s
      else enterPair k 2 crit (y.returned && decide (now s < y.onASince + y.effHoldoff * 1000000)) s
  | 2 =>
    match pairFiring s k with
    | some crit => enterPair k 3 crit false s
    | none => pairPut k { y with aCleanSince := if aClean s k then some (y.aCleanSince.getD (now s)) else none } s
  | 3 =>
    let seen := fun (port : Nat) (o : Option Nat) =>
      if ethUp s port ∧ !(pairHops s k port).isEmpty ∧ hopsReached s k port then some (o.getD (now s)) else none
    pairPut k { y with reachA := seen (2 * k) y.reachA, reachB := seen b y.reachB } s
  | _ => s

def cmdArmYoyo (c : Ctx) (s : State) : CmdOut :=
  let k := bf c 0 1 0
  let y := pairGet s k
  if !bb c 0 2 then
    (if bn c 1 ≠ 0 ∨ bn c 2 ≠ 0 then refuse .range else .done .ok [] (enterPair k 0 4 false s))
  else
    let sil := if bn c 1 = 0 then 200 else bn c 1
    let hold := if bn c 2 = 0 then 30 else bn c 2
    let a := ethGet s (2 * k)
    let b := ethGet s (2 * k + 1)
    if sil < 50 ∨ 5000 < sil ∨ 3600 < hold then refuse .range
    else if a.mode ≠ b.mode ∨ a.breakout ∨ b.breakout then refuse .state
    else
      let s1 := pairPut k { y with
        criteria := if bf c 0 6 4 = 0 then 3 else BitVec.ofNat 3 (bf c 0 6 4)
        silenceMs := sil, holdoffS := hold, effHoldoff := hold } s
      .done .ok [] (if y.state = 0 then enterPair k 1 4 false s1 else s1)

def cmdYoyoSwitch (c : Ctx) (s : State) : CmdOut :=
  let k := bf c 0 1 0
  let s1 := evaluatePair k s
  let st := if bb c 0 2 then 2 else 1
  if (pairGet s k).state = 0 then refuse .state
  else if (pairGet s1 k).state = st then .done .ok [] s1
  else if !ethUp s1 (2 * k + b1 (bb c 0 2)) then .done .state [] s1
  else .done .ok [] (enterPair k st 4 false s1)

def specSetEthPort : OpSpec :=
  { op := 0x0C00, p0 := true, maxLen := 48, rsv := within [field 2 0 ||| field 6 4 ||| field 9 8, 0xFFFFFFFF, field 5 0]
    log := always, run := cmdSetEthPort }

def specCreateStreamEntry : OpSpec :=
  { op := 0x0C01, maxLen := 48, rsv := within ([field 16 0] ++ addrRsv), log := always, named := nameMade
    run := cmdCreateStreamEntry }

def specDeleteStreamEntry : OpSpec :=
  { op := 0x0C02, maxLen := 4, log := always, named := nameWord 0, run := cmdDeleteStreamEntry }

def specSetRelay : OpSpec :=
  { op := 0x0C03, maxLen := 32, rsv := within ([0xFFFFFFFF, field 2 0] ++ addrRsv), log := always, named := nameWord 0
    run := cmdSetRelay }

def specCreateFlow : OpSpec := { op := 0x0C04, maxLen := 44, rsv := flowRsv, log := always, run := cmdCreateFlow }

def specDeleteFlow : OpSpec := { op := 0x0C05, maxLen := 4, rsv := within [field 9 0], log := always, run := cmdDeleteFlow }

def specArmYoyo : OpSpec :=
  { op := 0x0C06, p0 := true, maxLen := 12, rsv := within [field 2 0 ||| field 6 4], log := always, run := cmdArmYoyo }

def specYoyoSwitch : OpSpec := { op := 0x0C07, p0 := true, maxLen := 4, rsv := within [field 2 0], log := always, run := cmdYoyoSwitch }

def specGetEthStatus : OpSpec := { op := 0x0C08, maxLen := 4, rsv := within [field 5 0], run := cmdGetEthStatus }

def specSendAnc : OpSpec := { op := 0x0C09, maxLen := 4228, bulkOnly := true, rsv := ancRsv, log := always, run := cmdSendAnc }

def execSetEthPort (page : Fin 16) (d : Desc) (s : State) : Host.Outcome State Fault Refusal :=
  if d.Wf then .next (issue specSetEthPort page d s) else .fault .illFormed

def execCreateStreamEntry (page : Fin 16) (d : Desc) (s : State) : Host.Outcome State Fault Refusal :=
  if d.Wf then .next (issue specCreateStreamEntry page d s) else .fault .illFormed

def execDeleteStreamEntry (page : Fin 16) (d : Desc) (s : State) : Host.Outcome State Fault Refusal :=
  if d.Wf then .next (issue specDeleteStreamEntry page d s) else .fault .illFormed

def execSetRelay (page : Fin 16) (d : Desc) (s : State) : Host.Outcome State Fault Refusal :=
  if d.Wf then .next (issue specSetRelay page d s) else .fault .illFormed

def execCreateFlow (page : Fin 16) (d : Desc) (s : State) : Host.Outcome State Fault Refusal :=
  if d.Wf then .next (issue specCreateFlow page d s) else .fault .illFormed

def execDeleteFlow (page : Fin 16) (d : Desc) (s : State) : Host.Outcome State Fault Refusal :=
  if d.Wf then .next (issue specDeleteFlow page d s) else .fault .illFormed

def execArmYoyo (page : Fin 16) (d : Desc) (s : State) : Host.Outcome State Fault Refusal :=
  if d.Wf then .next (issue specArmYoyo page d s) else .fault .illFormed

def execYoyoSwitch (page : Fin 16) (d : Desc) (s : State) : Host.Outcome State Fault Refusal :=
  if d.Wf then .next (issue specYoyoSwitch page d s) else .fault .illFormed

def execGetEthStatus (page : Fin 16) (d : Desc) (s : State) : Host.Outcome State Fault Refusal :=
  if d.Wf then .next (issue specGetEthStatus page d s) else .fault .illFormed

def execSendAnc (page : Fin 16) (d : Desc) (s : State) : Host.Outcome State Fault Refusal :=
  if d.Wf then .next (issue specSendAnc page d s) else .fault .illFormed

/-! ### Packets of an entry (R307–R309, R318, R330) -/

def entryMod (h : Handle) (f : Entry → Entry) (s : State) : State :=
  setEth { s.eth with entries := tmod s.eth.entries h f } s

/-- Close the unit that is arriving into the bitstream buffer of 2 × MAX_AU; where it does not fit, units are
dropped until a random-access point does (R98, R99). -/
def pushUnit (d : Handle) (x : DecodeCtx) (u : Au) (s : State) : State :=
  let big := decide (x.maxAu < u.bytes)
  let held := (x.units.map (fun v => v.bytes)).sum
  if (x.flooding ∧ u.rap = false) ∨ 2 * x.maxAu < held + min u.bytes x.maxAu then
    decodeFault d 3 { s with decodes := tset s.decodes d { x with
      arriving := none, flooding := true, dropped := sat 0xFFFFFFFF x.dropped 1 } }
  else { s with decodes := tset s.decodes d { x with
    arriving := none, flooding := false, units := x.units ++ [{ u with bad := u.bad || big, bytes := min u.bytes x.maxAu }] } }

/-- A packet reaches a decode context (R98, R99). -/
def decodePacket (d : Handle) (p : Rtp) (s : State) : State :=
  match tget s.decodes d, p.ess with
  | some x, .bitstream m =>
    -- a context that a partition reset has stopped takes nothing until RESYNC_DECODE (DESIGN CHOICE, log entry 156)
    if x.stopped then s else
    let gap := decide (x.lastSeq.isSome ∧ x.lastSeq ≠ some (p.seq - 1))
    let s1 := match x.arriving with
      | some u => if m.first then pushUnit d x { u with bad := true } s else s
      | none => s
    match tget s1.decodes d with
    | none => s1
    | some x =>
      let u : Au := match x.arriving with
        | some u => { u with bytes := u.bytes + p.payload.length, rap := u.rap || m.rap, bad := u.bad || gap }
        | none => { bytes := p.payload.length, rap := m.rap, bad := !m.first, capture := now s, ptp := ptpNow s }
      let y := { x with arriving := some u, lastSeq := some p.seq }
      let s2 := { s1 with decodes := tset s1.decodes d y }
      if m.last then pushUnit d y u s2 else s2
  | _, _ => s

/-- Relay to every target; a target that cannot be reached drops the packet. -/
def relayAll (h : Handle) (e : Entry) (p : Rtp) (s : State) : State :=
  e.relays.foldl (fun s r => match sendTo r.2 p s with
    | some s1 => s1
    | none => entryMod h (fun e => { e with relayDrops := sat 0xFFFFFFFF e.relayDrops 1 }) s) s

/-- A packet of an entry that has passed policing: duplicates are discarded, a gap is marked, and the packet is
relayed, decoded, played and recorded. -/
def deliver (h : Handle) (e : Entry) (audio : Bool) (p : Rtp) (s : State) : State :=
  if p.seq ∈ e.recent then s
  else
    let step := match e.lastSeq with
      | some q => (p.seq - q).toNat
      | none => 1
    let lost := if step < 32768 then step - 1 else 0
    let s1 := if 0 < lost then entryGap h (if e.switched then 3 else 1) lost s else s
    let s2 := entryMod h (fun e => { e with
      recent := (p.seq :: e.recent).take 1024, switched := false
      lastSeq := if step < 32768 then some p.seq else e.lastSeq }) s1
    let s3 := relayAll h e p s2
    let s4 := if audio then audioArrive h
        { pt := p.pt, samples := p.payload.map (fun b => (b.toNat : Int)), bytes := p.payload.length } s3
      else (tkeys s3.decodes).foldl (fun s d =>
        if ((tget s.decodes d).map (fun x => decide (x.input = h))).getD false then decodePacket d p s else s) s3
    (recordingsOf s4 h).foldl (fun s r => recordPacket r h audio p s) s4

/-- FLOOD on a port, at most once a second (R308). -/
def floodPort (p : Nat) (s : State) : State :=
  if (ethGet s p).floodSecond = some (second s) then s
  else raise (96 + p) 3 (ethMod p (fun x => { x with floodSecond := some (second s) }) s)

/-- A packet of an entry arrives on a port (R307, R308): payload type, policing, and the packet buffers. -/
def entryPacket (h : Handle) (port : Nat) (full : Bool) (p : Rtp) (s : State) : State :=
  match tget s.eth.entries h with
  | none => s
  | some e =>
    let audio := e.audioEn && decide (p.pt = e.audioPt)
    if !audio ∧ p.pt ≠ e.videoPt then
      -- a packet of no payload type of the entry is one its G.711 input discards too (R260)
      let s1 := entryMod h (fun e => { e with badPt := sat 0xFFFFFFFF e.badPt 1 }) s
      if (inGet s h).isSome then badPacket h s1 else s1
    else
      let win := e.window.filter (fun w => decide (now s < w.1 + 100000))
      let n := p.payload.length
      -- 1.25 × MAX_KBPS over 100 ms, in eighths of a byte
      if 1000 * e.maxKbps * 125 < 8 * 1000 * ((win.map Prod.snd).sum + n) then
        floodPort port (entryGap h 2 1 (entryMod h (fun e => { e with
          policed := sat 0xFFFFFFFF e.policed 1, window := win, lastSeq := some p.seq }) s))
      else if full then
        -- policing stands before the buffers: what they drop has counted (R308)
        raise (96 + port) 2 (entryMod h (fun e => { e with
          window := win ++ [(now s, n)], bufferDrops := sat 0xFFFFFFFF e.bufferDrops 1 })
          (ethMod (ethKey port e.addr.subport) (fun x => { x with bufferDrops := sat 0xFFFFFFFF x.bufferDrops 1 }) s))
      else
        let s1 := entryMod h (fun e => { e with window := win ++ [(now s, n)] }) s
        deliver h e audio p s1

/-- A packet of a pair's receive entry or flow has come. -/
def pairHeard (port : Nat) (s : State) : State :=
  if port < 8 then s
  else pairPut (port - 8) { pairGet s (port - 8) with lastPacket := now s, silence := false } s

def execStreamEntryPacket (entry : Word) (p : Rtp) (s : State) : Host.Outcome State Fault Refusal :=
  match tget s.eth.entries entry.toNat with
  | none => .next s
  | some e =>
    if e.encoder.isSome then .next s
    else match runsOn s e.addr.port with
      | none => .next s
      | some port => .next (entryPacket entry.toNat port false p (pairHeard e.addr.port s))

/-! ### Packets at a port (R304, R305) -/

/-- A packet matches an address block on a port. -/
def addrMatch (s : State) (port : Nat) (a : Addr) (src : BitVec 128) (k : EthPacket) : Bool :=
  let here := if a.port < 8 then decide (a.port = port)
    else match runsOn s a.port with
      | some p => decide (p = port)
      | none => decide (port ∈ portsOf a.port)
  here && decide (a.subport = k.subport.val ∧ a.vlan = k.vlan ∧ a.ipv6 = k.ipv6 ∧ a.dst = k.dst ∧ a.udp = k.udp.toNat
    ∧ (src = 0 ∨ src = k.src))

/-- What a receive flow does with a packet. -/
def flowPacket (n : Nat) (f : Flow) (p : Rtp) (s : State) : State :=
  let streams := fun (want : SrcKind → Bool) =>
    (tkeys s.sources).filter (fun h => ((liveSource s h).map (fun x => want x.kind)).getD false)
  match f.essence, p.ess with
  | 0, .video _ _ _ _ => (streams (fun k => match k with | .st2110 m _ _ => decide (m = n) | _ => false)).foldl
      (fun s h => videoPacket h p s) s
  | 2, .anc l => (streams (fun k => match k with | .st2110 _ _ a => decide (a = some n) | _ => false)).foldl
      (fun s h => l.foldl (fun s a => ancArrive h a s) s) s
  | 1, .audio l => (tkeys s.audio.inputs).foldl (fun s h =>
      if ((inGet s h).map (fun x => decide (x.flow = some n))).getD false then
        audioArrive h { pt := p.pt, samples := l, bytes := p.payload.length } s
      else s) s
  | _, _ => s

/-- BOTH_LOST ends on the first port that delivers a packet of the pair (R319). -/
def pairDelivers (a : Addr) (port : Nat) (s : State) : State :=
  if a.port < 8 then s
  else
    let s1 := if (pairGet s (a.port - 8)).state = 3 then enterPair (a.port - 8) (1 + port % 2) 3 false s else s
    pairHeard a.port s1

/-- An ARP request or neighbour solicitation for the port's own address is answered (R304). -/
def answerNeighbour (k : Nat) (p : EthPacket) (mac : BitVec 48) (s : State) : State :=
  if p.dst ≠ 0 ∧ p.dst = ownAddress s k p.subport.val p.ipv6 ∧ isStandby s k = false then
    send (.neighbour (ethKey k p.subport.val) p.dst (Config.macAddress k p.subport.val) mac) s
  else s

/-- A packet that matches nothing is discarded and counted (R304, R305). -/
def unmatched (k : Nat) (s : State) : State := ethMod k (fun x => { x with unmatched := sat 0xFFFFFFFF x.unmatched 1 }) s

def execEthPacket (port : Fin 8) (p : EthPacket) (s : State) : Host.Outcome State Fault Refusal :=
  let k := port.val
  let at_ := ethKey k p.subport.val
  if !ethRuns s at_ then .next s
  else if 1522 < p.length then .next (ethMod at_ (fun x => { x with oversize := sat 0xFFFFFFFF x.oversize 1 }) s)
  else match p.kind with
    | .tcp => .next (unmatched at_ s)
    | .solicit mac => .next (answerNeighbour k p mac s)
    | .udp =>
      let es := s.eth.entries.filter (fun e => e.2.encoder.isNone && addrMatch s k e.2.addr e.2.src p)
      let fs := s.eth.flows.filter (fun f => !f.2.tx && addrMatch s k f.2.addr f.2.src p)
      if es.isEmpty ∧ fs.isEmpty then .next (unmatched at_ s)
      else
        let s1 := es.foldl (fun s e => entryPacket e.1 k p.bufferFull p.rtp (pairDelivers e.2.addr k s)) s
        .next (fs.foldl (fun s f =>
          let s2 := pairDelivers f.2.addr k s
          if p.bufferFull then
            raise (96 + k) 2 (flowMod f.1 (fun f => { f with bufferDrops := sat 0xFFFFFFFF f.bufferDrops 1 })
              (ethMod at_ (fun x => { x with bufferDrops := sat 0xFFFFFFFF x.bufferDrops 1 }) s2))
          else flowPacket f.1 f.2 p.rtp s2) s1)

/-! ### Links (R317, R321) -/

def execEthLinkDown (port : Fin 8) (s : State) (sub : Fin 4 := 0) : Host.Outcome State Fault Refusal :=
  let p := port.val
  let k := ethKey p sub.val
  if !(ethGet s k).linkUp then .next s
  else
    let s1 := raise (96 + p) 0 (ethMod k (fun x => { x with linkUp := false }) s)
    .next (if isStandby s p then raise (104 + p / 2) 5 s1 else s1)

def execEthLinkUp (port : Fin 8) (s : State) (sub : Fin 4 := 0) : Host.Outcome State Fault Refusal :=
  let p := port.val
  let k := ethKey p sub.val
  if (ethGet s k).linkUp ∨ !ethRuns s k then .next s
  else .next (raise (96 + p) 1 (ethMod k (fun x => { x with linkUp := true, phase := [], phaseUsed := 0 }) s))

/-- An uncorrectable RS-FEC codeword: more than 100 in a millisecond is a LINK fault (R315). -/
def execFecCodewordUncorrected (port : Fin 8) (s : State) (sub : Fin 4 := 0) : Host.Outcome State Fault Refusal :=
  let p := port.val
  let k := ethKey p sub.val
  let ms := now s / 1000
  if held s then .next s
  else
  let n := if (ethGet s k).fecMs = ms then (ethGet s k).fecMsCount + 1 else 1
  let s1 := raise (96 + p) 4 (ethMod k (fun x => { x with
    fecBad := sat 0xFFFFFFFF x.fecBad 1, fecMs := ms, fecMsCount := n }) s)
  .next (if n = 101 ∧ isStandby s p then raise (104 + p / 2) 5 s1 else s1)

/-! ### Pairs (R315–R319) -/

def execYoyoEvaluation (pair : Fin 4) (s : State) : Host.Outcome State Fault Refusal := .next (evaluatePair pair.val s)

def execSilenceTimeout (pair : Fin 4) (s : State) : Host.Outcome State Fault Refusal :=
  let y := pairGet s pair.val
  if (y.state = 1 ∨ y.state = 2) ∧ y.criteria.getLsbD 1 ∧ pairReceives s pair.val ∧ y.lastPacket + y.silenceMs * 1000 ≤ now s then
    .next (pairPut pair.val { y with silence := true } s)
  else .next s

def execNexthopTimeout (pair : Fin 4) (s : State) : Host.Outcome State Fault Refusal :=
  let y := pairGet s pair.val
  match activeIn pair.val y.state with
  | none => .next s
  | some p =>
    if y.state ≠ 0 ∧ y.criteria.getLsbD 2 ∧ !(pairHops s pair.val p).isEmpty ∧ y.lastReply + y.silenceMs * 1000 ≤ now s then
      .next (pairPut pair.val { y with nexthop := true } s)
    else .next s

/-- The next hops of an armed pair are probed: on the active port, on A while the pair waits to return to it, and
on both in BOTH_LOST (R315, R318, R319). -/
def execNexthopProbe (pair : Fin 4) (s : State) : Host.Outcome State Fault Refusal :=
  let k := pair.val
  let y := pairGet s k
  let ports := match y.state with
    | 1 => [2 * k]
    | 2 => if y.criteria.getLsbD 2 then [2 * k, 2 * k + 1] else [2 * k + 1]
    | 3 => [2 * k, 2 * k + 1]
    | _ => []
  .next (ports.foldl (fun s p => (pairHops s k p).foldl (fun s h => send (.probe p h.address) s) s) s)

def execArpReply (port : Fin 8) (address : BitVec 128) (mac : BitVec 48) (s : State) (sub : Fin 4 := 0) :
    Host.Outcome State Fault Refusal :=
  let p := ethKey port.val sub.val
  if (findHop s p address).isNone then .next s
  else
    let s1 := setEth { s.eth with hops := s.eth.hops.map (fun h =>
      if h.port = p ∧ h.address = address then { h with mac := some mac, lastReply := now s } else h) } s
    let k := port.val / 2
    if (pairHops s1 k p).any (fun h => decide (h.address = address)) ∧ activeIn k (pairGet s1 k).state = some p then
      .next (pairPut k { pairGet s1 k with lastReply := now s, nexthop := false } s1)
    else .next s1

def execNexthopRefresh (s : State) : Host.Outcome State Fault Refusal :=
  .next (s.eth.hops.foldl (fun s h => sendProbe h.port h.address s) s)

/-- A next hop cannot be resolved: what is sent to it is dropped from now on (R309). -/
def execResolveFail (port : Fin 8) (address : BitVec 128) (s : State) (sub : Fin 4 := 0) : Host.Outcome State Fault Refusal :=
  if (findHop s (ethKey port.val sub.val) address).isNone then .next s
  else .next (raise (96 + port.val) 5 (setEth { s.eth with hops := s.eth.hops.map (fun h =>
    if h.port = ethKey port.val sub.val ∧ h.address = address then { h with mac := none } else h) } s))

/-- A has stayed clean for the effective hold-off (R318). -/
def execHoldoffExpiry (pair : Fin 4) (s : State) : Host.Outcome State Fault Refusal :=
  let k := pair.val
  let y := pairGet s k
  match y.aCleanSince with
  | none => .next s
  | some t =>
    if y.state = 2 ∧ aClean s k ∧ t + y.effHoldoff * 1000000 ≤ now s then
      let s1 := enterPair k 1 3 false s
      .next (pairPut k { pairGet s1 k with returned := true } s1)
    else .next s

/-- The pair has run on A for one full effective hold-off (R318). -/
def execHoldoffRestore (pair : Fin 4) (s : State) : Host.Outcome State Fault Refusal :=
  let y := pairGet s pair.val
  if y.state = 1 ∧ y.onASince + y.effHoldoff * 1000000 ≤ now s then
    .next (pairPut pair.val { y with effHoldoff := y.holdoffS, returned := false } s)
  else .next s

/-- A pair without receive entries takes the port whose next hops have been reachable for 1 s, A on a tie (R319). -/
def execBothLostNexthopHold (pair : Fin 4) (portB : Bool) (s : State) : Host.Outcome State Fault Refusal :=
  let k := pair.val
  let y := pairGet s k
  let t := if portB then y.reachB else y.reachA
  match t with
  | none => .next s
  | some t =>
    if y.state ≠ 3 ∨ pairReceives s k ∨ now s < t + 1000000 then .next s
    else .next (enterPair k (if portB ∧ !(y.reachA.map (fun a => decide (a ≤ t))).getD false then 2 else 1) 3 false s)

end Sys2Proof.Machine
end

