-- ==== Sys2Proof/Machine/Pool.lean ====
section
/-! DEFINITION. The recording pool: the recording-class commands (R327–R345), encode contexts (R342, R343), and
the events of drives, segments, manifests and exports (R323–R325, R331, R336, R337, R341). -/

namespace Sys2Proof.Machine

open Sys2Proof

/-! ### Drives (R323–R325) -/

/-- The drive slot that holds a namespace. -/
def slotOf (s : State) (d : DriveInfo) : Option Nat :=
  (s.pool.drives.find? (fun e => decide (e.2.serial = d.serial ∧ e.2.nsid = d.nsid))).map Prod.fst

/-- The slot of a missing member that a namespace's header names. -/
def missingSlot (s : State) (d : DriveInfo) : Option Nat :=
  match d.header with
  | some (id, m) =>
    if s.pool.mounted ∧ id = s.pool.identity then
      (s.pool.drives.find? (fun e => decide (e.2.state = 5 ∧ e.2.member = m.val))).map Prod.fst
    else none
  | none => none

/-- The write cache cannot be turned off and Flush is refused: the drive is never used (R323, R324). -/
def unsuitable (d : DriveInfo) : Bool := d.cacheStays && d.refusesFlush

/-- What the firmware does with a controller at adoption (R323, R324). -/
def adopt (k : Nat) (s : State) : State :=
  ([NvmeOp.identify, .getQueues] ++ queueOps ++ [NvmeOp.getCache, NvmeOp.cacheOff]).foldl (fun s o => issueOp k o s) s

/-- A drive that is never used: its queue pair goes. -/
def disuse (k : Nat) (s : State) : State := issueOp k .deleteCq (issueOp k .deleteSq (driveState k 2 s))

/-- The drive of a namespace. -/
def driveOf (root : Nat) (d : DriveInfo) : Drive :=
  { serial := d.serial, nsid := d.nsid, root := root, slots := d.slots, flush := d.cacheStays }

/-- A namespace that is no member of the pool takes its state in a slot. -/
def settleDrive (k : Nat) (d : DriveInfo) (s : State) : State :=
  if unsuitable d then disuse k s else driveState k (if d.header.isSome then 6 else 1) s

/-- A member of the pool is present: it is MEMBER once its header has been checked, unless it cannot be used. -/
def joinMember (k root : Nat) (d : DriveInfo) (s : State) : State :=
  let s1 := adopt k (driveMod k (fun x => { x with
    serial := d.serial, nsid := d.nsid, root := root, flush := d.cacheStays }) s)
  if unsuitable d then loseAbandoned k (disuse k s1) else memberBack k s1

/-- A namespace appears. -/
def addDrive (root : Nat) (d : DriveInfo) (s : State) : State :=
  if !d.qualifies then s
  else match missingSlot s d with
    | some k => joinMember k root d s
    | none => match slotOf s d with
      | some k =>
        let st := ((tget s.pool.drives k).map (fun x => x.state)).getD 0
        -- one named by a FORMAT_POOL that runs, gone and back
        if st = 0 then settleDrive k d (adopt k s)
        -- a missing member comes back without its header: it has been formatted elsewhere (R334)
        else if st ≠ 5 then s
        else
          let s1 := loseAbandoned k s
          settleDrive k d (adopt k (setPool { s1.pool with
            drives := tset s1.pool.drives k { driveOf root d with state := 5 } } s1))
      | none => match freeKey s.pool.drives 256 with
        | none => setPool { s.pool with unslotted := s.pool.unslotted ++ [(root, d)] } s
        | some k => settleDrive k d (adopt k (setPool { s.pool with drives := tset s.pool.drives k (driveOf root d) } s))

/-- Namespaces without a slot take the slots that have become free (R323). -/
def slotWaiting (s : State) : State :=
  s.pool.unslotted.foldl (fun s e => addDrive e.1 e.2 s) (setPool { s.pool with unslotted := [] } s)

/-! ### Formatting (R327) -/

def cmdGetPoolDrives (c : Ctx) (s : State) : CmdOut :=
  let first := bf c 0 7 0
  let one := fun (k : Nat) =>
    let x := (tget s.pool.drives k).getD {}
    pack [(x.state, 2, 0), (x.root, 5, 4), (x.member, 15, 8), (min 65535 (x.slots / 1024), 31, 16)]
  let n := min 6 (256 - first)
  .done (if first + 6 < 256 then .okPartial else .ok) (((List.range n).map (fun i => one (first + i)) ++ [word s.pool.unslotted.length]).take 6) s

/-- Slots of the index and manifest areas each: X of Table 14-2. -/
def indexSlots (slots : Nat) : Nat := cdiv slots 16384

/-- First segment slot of a member, in a pool of m members. -/
def segArea (slots spillGib m : Nat) : Nat := 1 + 2 * indexSlots slots + cdiv (spillGib * 1024) m

/-- The header of a member of the pool that is being built (Table 14-2, R327). -/
def headerOf (s : State) (l : List Nat) (gib k : Nat) : MemberHeader :=
  let n := ((tget s.pool.drives k).getD {}).slots
  { pool := Config.poolIdentity (s.pool.formats - 1), member := l.idxOf k, members := l.length, slots := n, indexFrom := 1
    manifestFrom := 1 + indexSlots n, spillFrom := 1 + 2 * indexSlots n, segFrom := segArea n gib l.length }

/-- A member is deallocated, and its header, in two copies, and an empty index are written (R327). -/
def layOut (l : List Nat) (gib k : Nat) (s : State) : State :=
  let h := headerOf s l gib k
  [NvmeOp.deallocate 0 h.slots, .memberHeader 0 h, .memberHeader 524288 h, .clearIndex 1 (indexSlots h.slots)].foldl
    (fun s o => issueOp k o s) s

def cmdFormatPool (c : Ctx) (s : State) : CmdOut :=
  let l := (List.range 256).filter (fun k => bb c (k / 32) (k % 32))
  let gib := bn c 8
  let drives := l.map (fun k => (tget s.pool.drives k).getD {})
  if l.isEmpty then refuse .range
  else if s.pool.formatting.isSome then refuse .busy
  else if drives.any (fun x => !(decide (x.state = 1) || (decide (x.state = 6) && bb c 9 0)))
    ∨ !s.pool.streams.isEmpty ∨ !s.shifts.isEmpty then refuse .state
  else if drives.any (fun x => decide (x.slots ≤ segArea x.slots gib l.length))
    ∨ 2 ^ 32 < (drives.map (fun x => x.slots - segArea x.slots gib l.length)).sum then refuse .range
  else .done .ok [] (l.foldl (fun s k => layOut l gib k s)
    (setPool { s.pool with formatting := some (l, gib), formats := s.pool.formats + 1 } s))

/-- The layout is written and the pool is mounted; members of the pool before it become FOREIGN, and a named drive that
has gone is a MISSING member. -/
def execPoolDone (s : State) : Host.Outcome State Fault Refusal :=
  match s.pool.formatting with
  | none => .next s
  | some (l, gib) =>
    let m := l.length
    let here := l.filter (fun k => decide (((tget s.pool.drives k).map (fun x => x.state)).getD 0 ≠ 0))
    let old := (s.pool.drives.filter (fun e => decide (3 ≤ e.2.state ∧ e.2.state ≤ 5) && !decide (e.1 ∈ l))).map Prod.fst
    let s1 := setPool { s.pool with
      formatting := none, identity := Config.poolIdentity (s.pool.formats - 1), mounted := true, medium := none
      members := l, tier2 := 16 * cdiv (gib * 1024) m * m, segments := [], manifests := [], queue := [], abandoned := []
      ops := [], redo := [] } s
    let s2 := old.foldl (fun s k => if ((tget s.pool.drives k).map (fun x => x.state)).getD 0 = 5 then
        setPool { s.pool with drives := tdel s.pool.drives k } (driveState k 0 s) else driveState k 6 s) s1
    let s3 := l.foldl (fun s k => driveState k (if k ∈ here then 3 else 5) (driveMod k (fun x =>
      let a := segArea x.slots gib m
      { x with member := l.idxOf k, firstSeg := a, segs := x.slots - a, used := []
               header := some (headerOf s l gib k) }) s)) s2
    -- slots that have become free go to namespaces without one (R323)
    .next (slotWaiting (postNtf 0 0x0D01
      [word ((here.map (fun k => ((tget s3.pool.drives k).getD {}).segs)).sum), word s3.pool.tier2] s3))

def cmdGetPoolStatus (c : Ctx) (s : State) : CmdOut :=
  let free := ((s.pool.drives.filter (fun e => decide (3 ≤ e.2.state ∧ e.2.state ≤ 5))).map (fun e => freeSegs e.2)).sum
  .done .ok [word (b1 s.pool.mounted), if c.page = 0 then word free else 0, word (segUse s c.page), word (quotaOf s c.page 10),
    word s.pool.tier2] s

/-! ### Recorded streams (R328, R339–R341, R345) -/

def cmdCreateRecording (c : Ctx) (s : State) : CmdOut :=
  match handleFault c.page s (bn c 0) [7] with
  | some e => refuse e
  | none =>
    let fb := bb c 1 0
    let seg := if bf c 2 15 0 = 0 then 2000 else bf c 2 15 0
    -- the defaults of words that BODY_LEN leaves out are those of FALLBACK
    let pre := if !fb ∧ c.len < 12 then 0 else bf c 2 31 16
    let post := if !fb ∧ c.len < 16 then 0 else bf c 3 15 0
    match keySlot s (bn c 0) with
    | none => refuse .noSuchHandle
    | some (_, k) =>
      if seg < 100 ∨ 60000 < seg ∨ 10000 < pre ∨ 60000 < post ∨ (!fb ∧ (pre ≠ 0 ∨ post ≠ 0)) then refuse .range
      else if k.owner ≠ c.page ∨ !tb k.policy 0 ∨ sealed s k then refuse .state
      else if quotaOf s c.page 10 = 0 then refuse .quota
      else
        let (h, s1) := newHandle c.page 6 s
        let x : Recording := {
          owner := c.page, streamId := s.pool.nextStreamId, key := bn c 0, fallback := fb, roll := bb c 1 1, segMaxMs := seg
          preroll := pre, postroll := post, state := if fb then 0 else 1 }
        .done .ok [word h, word x.streamId] (setPool { s1.pool with
          nextStreamId := x.streamId + 1, streams := tset s1.pool.streams h x } s1)

/-- A recorded stream of the issuer, or any for P0. -/
def withRecording (c : Ctx) (s : State) (k : Recording → CmdOut) : CmdOut :=
  withHandle c.page s (bn c 0) 6 (recGet s (bn c 0)) k

def cmdCloseRecording (c : Ctx) (s : State) : CmdOut :=
  withRecording c s fun x => if x.state = 2 then refuse .state else .done .ok [] (closeStream (bn c 0) s)

/-- A stream and all that is kept of it move to a partition under a new handle (R339). -/
def reassign (h : Handle) (part : Nat) (s : State) : Handle × State :=
  match recGet s h with
  | none => (h, s)
  | some x =>
    let (h2, s1) := newHandle part 6 s
    let re := fun (k : Handle) => if k = h then h2 else k
    let op := fun (o : NvmeOp) => match o with
      | .piece k n b => .piece (re k) n b
      | .header k c => .header (re k) c
      | .flush k c => .flush (re k) c
      | .manifest k q => .manifest (re k) q
      | .trimManifest k q => .trimManifest (re k) q
      | o => o
    (h2, setPool { s1.pool with
      streams := tset (tdel s1.pool.streams h) h2 { x with
        owner := part, unplaced := x.unplaced.map (fun e => { e with stream := h2 }) }
      segments := s1.pool.segments.map (fun e => { e with stream := re e.stream })
      manifests := s1.pool.manifests.map (fun m => { m with stream := re m.stream })
      queue := s1.pool.queue.map (fun r => { r with stream := re r.stream })
      ops := s1.pool.ops.map (fun o => (o.1, op o.2.1, o.2.2)), redo := s1.pool.redo.map (fun o => (o.1, op o.2))
      abandoned := s1.pool.abandoned.map (fun e => (re e.1, e.2)) } s1)

def cmdAssignRecording (c : Ctx) (s : State) : CmdOut :=
  withRecording c s fun x =>
    let p := bf c 1 3 0
    if !(box s p).active ∨ hPart (bn c 0) = p then refuse .range
    else if x.state ≠ 2 then refuse .state
    else
      let (h, s1) := reassign (bn c 0) p s
      .done .ok [word h] s1

/-- EXPORT_SEGMENTS and READ_MANIFEST wait for their transfer. -/
def startExport (c : Ctx) (unit : Nat) (w : Nat → Waiting) (s : State) : CmdOut :=
  withRecording c s fun _ =>
    if bn64 c 2 % 4 ≠ 0 ∨ bn c 4 % unit ≠ 0 ∨ 67108864 < bn c 4 then refuse .range
    else .wait (w (bn c 4 / unit)) s

def cmdExportSegments (c : Ctx) (s : State) : CmdOut :=
  startExport c 1048576 (fun n => .exportSegs (bn c 0) (bn c 1) (bn64 c 2) n) s

def cmdReadManifest (c : Ctx) (s : State) : CmdOut :=
  startExport c 4096 (fun n => .exportMans (bn c 0) (bn c 1) (bn64 c 2) n) s

/-- An export ends, or stops at 100 ms or at a PCIe error, with the units it has copied (R341). -/
def execExportDone (units : BitVec 16) (pcieError : Bool) (s : State) : Host.Outcome State Fault Refusal :=
  match s.exec with
  | none => .next s
  | some e => match exportList s e.waits with
    | none => .next s
    | some (unit, first, addr, want, l) =>
      let full := exportTake want first l
      let n := min units.toNat full.1.length
      let r := if n = full.1.length then full else exportTake n first l
      let bs := r.1.flatten
      let reach := dmaReach s addr bs.length
      if pcieError ∨ reach < bs.length then
        let more := ((exportTake (n + 1) first l).1.flatten).take (min reach bs.length + Config.freeNat s.free % unit)
        .next (complete e false 0 .hostDma [] { s with hostMem := memWrite 0 s.hostMem addr more, free := s.free + 1 })
      else
        .next (complete e false 0 (if n < full.1.length then .okPartial else .ok) [word n, word r.2.1, word r.2.2]
          { s with hostMem := memWrite 0 s.hostMem addr bs })

/-- MANIFEST_SEQ names a group the stream has closed. -/
def withGroups (c : Ctx) (s : State) (k : CmdOut) : CmdOut :=
  withRecording c s fun x => if x.nextManifest ≤ bn c 1 then refuse .range else k

def cmdMarkExported (c : Ctx) (s : State) : CmdOut :=
  withGroups c s <| .done .ok [] (setPool { s.pool with segments := s.pool.segments.map (fun e =>
    if e.stream = bn c 0 ∧ e.written = true ∧ e.group ≤ bn c 1
        ∧ s.pool.manifests.any (fun m => decide (m.stream = e.stream ∧ m.seq = e.group)) then { e with exported := true } else e) } s)

def cmdDeleteSegments (c : Ctx) (s : State) : CmdOut :=
  let h := bn c 0
  withGroups c s <|
    let gs := (s.pool.manifests.filter (fun m => decide (m.stream = h ∧ m.seq ≤ bn c 1))).map (fun m => m.seq)
    if gs.any (underExport s h) then refuse .busy
    else .done .ok [] (reopenAll (gs.foldl (fun s g => removeGroup h g s) s))

def cmdGetRecordingStatus (c : Ctx) (s : State) : CmdOut :=
  withRecording c s fun x => .done .ok [word x.state, word x.nextChain, word x.nextManifest,
    word (s.pool.segments.filter (fun e => decide (e.stream = bn c 0))).length, word x.gaps, word x.segLoss] s

/-! ### Encode contexts (R342, R343, R345) -/

/-- The core that a context goes to: the lowest-numbered with room for both, else one with room for a context, else
EC0. -/
def chooseEncoder (s : State) (rate : Frac) : Nat :=
  let count := fun k => (s.pool.encodes.filter (fun e => decide (e.2.core = k))).length
  let used := fun k => fsum (s.pool.encodes.map (fun e => if e.2.core = k then encodeRate e.2 else ⟨0, 1⟩))
  let open_ := (List.range 16).filter (fun k => decide (count k < 16))
  match open_.find? (fun k => !fgt (fadd (used k) rate) ⟨497664000, 1⟩) with
  | some k => k
  | none => open_.head?.getD 0

def cmdCreateEncode (c : Ctx) (s : State) : CmdOut :=
  let core := bf c 0 7 0
  let td := bf c 0 15 12
  let rate := bf c 0 19 16
  let w := bf c 1 12 0
  let h := bf c 1 28 16
  let kbps := bn c 2
  if (15 < core ∧ core ≠ 255) ∨ rate1001 rate = 0 ∨ w < 64 ∨ 3840 < w ∨ w % 2 ≠ 0 ∨ h < 64 ∨ 2160 < h ∨ h % 2 ≠ 0
    ∨ kbps < 64 ∨ 400000 < kbps ∨ 11 < bf c 3 3 0 ∨ bf c 3 10 4 < 96 then refuse .range
  else if (domainGet s td).rate ≠ rate then refuse .inconsistent
  else if quotaOf s c.page 6 ≤ quotaUse s c.page 6 ∨ quotaOf s c.page 3 ≤ quotaUse s c.page 3 ∨ 8192 ≤ s.eth.entries.length
    then refuse .quota
  else
      let k := if core = 255 then chooseEncoder s ⟨w * h * rate1001 rate, 1001⟩ else core
      let (ctx, s1) := newHandle c.page 9 s
      let (en, s2) := newHandle c.page 1 s1
      let x : EncodeCtx := {
        owner := c.page, core := k, h265 := bb c 0 8, td := td, rate := rate, gop := if bf c 0 27 20 = 0 then 60 else bf c 0 27 20
        w := w, h := h, kbps := kbps, outPort := bf c 3 3 0, outPt := bf c 3 10 4, entry := en }
      let e : Entry := { h265 := bb c 0 8, videoPt := bf c 3 10 4, addr := { port := bf c 3 3 0 }, maxKbps := kbps, encoder := some ctx }
      let s3 := srcPut en { owner := c.page, kind := .entry } s2
      let s4 := setPool { s3.pool with encodes := tset s3.pool.encodes ctx x } (setEth { s3.eth with entries := tset s3.eth.entries en e } s3)
      admitted s s4 (.done .ok [word ctx, word en, word k] s4)

def withEncode (c : Ctx) (s : State) (k : EncodeCtx → CmdOut) : CmdOut :=
  withHandle c.page s (bn c 0) 9 (tget s.pool.encodes (bn c 0)) k

/-- A destination goes: its routes end, and changes it has not applied count as resolved (R52). -/
def dropDest (d : Nat) (s : State) : State :=
  let x := destGet s d
  let s1 := x.pending.foldl (fun s p => applied p.2.1 (.dest d) p.2.2 s) (discardPending d (fun _ => false) s)
  let s2 := ([x.active, x.incoming].filterMap id).foldl (fun s r => endRoute r s) s1
  { s2 with dests := tdel s2.dests d }

/-- The encode context is a head's sink, or named as one. -/
def sinkBound (s : State) (h : Handle) : Bool :=
  s.heads.any (fun e => decide (e.2.act.sink = .encoder h) || decide ((e.2.pend.map (fun p => p.sink)) = some (.encoder h)))
    || s.boxes.any (fun b => b.2.staged.any (fun i => match i with | .sink _ k => decide (k = .encoder h) | _ => false))

def deleteEncode (h : Handle) (s : State) : State :=
  match tget s.pool.encodes h with
  | none => s
  | some x =>
    let s1 := dropDest (ctxDest h) (dropRefs (fun k => decide (k = .encode h)) s)
    deleteEntry x.entry (setPool { s1.pool with encodes := tdel s1.pool.encodes h } s1)

def cmdDeleteEncode (c : Ctx) (s : State) : CmdOut :=
  withEncode c s fun _ => if sinkBound s (bn c 0) then refuse .state else .done .ok [] (resizeRings (deleteEncode (bn c 0) s))

/-- The bit rate of the last whole second, in kb/s. -/
def lastRate (x : EncodeCtx) (s : State) : Nat :=
  if x.second = second s then x.lastSecondKbps
  else if x.second + 1 = second s then 8 * x.secondBytes / 1000 else 0

def cmdGetEncodeStatus (c : Ctx) (s : State) : CmdOut :=
  withEncode c s fun x => .done .ok [word x.frames, word x.missing, word x.clipped, word (lastRate x s)] s

def specGetPoolDrives : OpSpec := { op := 0x0D00, p0 := true, maxLen := 4, rsv := within [field 7 0], run := cmdGetPoolDrives }

def specFormatPool : OpSpec :=
  { op := 0x0D01, p0 := true, maxLen := 40, rsv := within (List.replicate 9 0xFFFFFFFF ++ [1]), log := always, run := cmdFormatPool }

def specGetPoolStatus : OpSpec := { op := 0x0D02, run := cmdGetPoolStatus }

def specCreateRecording : OpSpec :=
  { op := 0x0D03, maxLen := 16, rsv := within [0xFFFFFFFF, field 1 0, 0xFFFFFFFF, field 15 0], log := always, named := nameWord 0
    dflt := [0, 0, 0x01F407D0, 10000], run := cmdCreateRecording }

def specCloseRecording : OpSpec := { op := 0x0D04, maxLen := 4, log := always, named := nameWord 0, run := cmdCloseRecording }

def specAssignRecording : OpSpec :=
  { op := 0x0D05, p0 := true, maxLen := 8, rsv := within [0xFFFFFFFF, field 3 0], log := always, named := nameWord 0
    run := cmdAssignRecording }

def specExportSegments : OpSpec := { op := 0x0D06, maxLen := 20, bound := 100000, run := cmdExportSegments }

def specReadManifest : OpSpec := { op := 0x0D07, maxLen := 20, bound := 100000, run := cmdReadManifest }

def specMarkExported : OpSpec := { op := 0x0D08, maxLen := 8, log := always, named := nameWord 0, run := cmdMarkExported }

def specDeleteSegments : OpSpec := { op := 0x0D09, maxLen := 8, log := always, named := nameWord 0, run := cmdDeleteSegments }

def specGetRecordingStatus : OpSpec := { op := 0x0D0A, maxLen := 4, run := cmdGetRecordingStatus }

def specCreateEncodeContext : OpSpec :=
  { op := 0x0D10, dflt := [pack [(255, 7, 0), (60, 27, 20)]], maxLen := 16
    rsv := within [field 8 0 ||| field 27 12, field 12 0 ||| field 28 16, 0xFFFFFFFF, field 10 0]
    log := always, named := nameMade, run := cmdCreateEncode }

def specDeleteEncodeContext : OpSpec := { op := 0x0D11, maxLen := 4, log := always, named := nameWord 0, run := cmdDeleteEncode }

def specGetEncodeStatus : OpSpec := { op := 0x0D12, maxLen := 4, run := cmdGetEncodeStatus }

def execGetPoolDrives (page : Fin 16) (d : Desc) (s : State) : Host.Outcome State Fault Refusal :=
  if d.Wf then .next (issue specGetPoolDrives page d s) else .fault .illFormed

def execFormatPool (page : Fin 16) (d : Desc) (s : State) : Host.Outcome State Fault Refusal :=
  if d.Wf then .next (issue specFormatPool page d s) else .fault .illFormed

def execGetPoolStatus (page : Fin 16) (d : Desc) (s : State) : Host.Outcome State Fault Refusal :=
  if d.Wf then .next (issue specGetPoolStatus page d s) else .fault .illFormed

def execCreateRecording (page : Fin 16) (d : Desc) (s : State) : Host.Outcome State Fault Refusal :=
  if d.Wf then .next (issue specCreateRecording page d s) else .fault .illFormed

def execCloseRecording (page : Fin 16) (d : Desc) (s : State) : Host.Outcome State Fault Refusal :=
  if d.Wf then .next (issue specCloseRecording page d s) else .fault .illFormed

def execAssignRecording (page : Fin 16) (d : Desc) (s : State) : Host.Outcome State Fault Refusal :=
  if d.Wf then .next (issue specAssignRecording page d s) else .fault .illFormed

def execExportSegments (page : Fin 16) (d : Desc) (s : State) : Host.Outcome State Fault Refusal :=
  if d.Wf then .next (issue specExportSegments page d s) else .fault .illFormed

def execReadManifest (page : Fin 16) (d : Desc) (s : State) : Host.Outcome State Fault Refusal :=
  if d.Wf then .next (issue specReadManifest page d s) else .fault .illFormed

def execMarkExported (page : Fin 16) (d : Desc) (s : State) : Host.Outcome State Fault Refusal :=
  if d.Wf then .next (issue specMarkExported page d s) else .fault .illFormed

def execDeleteSegments (page : Fin 16) (d : Desc) (s : State) : Host.Outcome State Fault Refusal :=
  if d.Wf then .next (issue specDeleteSegments page d s) else .fault .illFormed

def execGetRecordingStatus (page : Fin 16) (d : Desc) (s : State) : Host.Outcome State Fault Refusal :=
  if d.Wf then .next (issue specGetRecordingStatus page d s) else .fault .illFormed

def execCreateEncodeContext (page : Fin 16) (d : Desc) (s : State) : Host.Outcome State Fault Refusal :=
  if d.Wf then .next (issue specCreateEncodeContext page d s) else .fault .illFormed

def execDeleteEncodeContext (page : Fin 16) (d : Desc) (s : State) : Host.Outcome State Fault Refusal :=
  if d.Wf then .next (issue specDeleteEncodeContext page d s) else .fault .illFormed

def execGetEncodeStatus (page : Fin 16) (d : Desc) (s : State) : Host.Outcome State Fault Refusal :=
  if d.Wf then .next (issue specGetEncodeStatus page d s) else .fault .illFormed

/-! ### Encoder output (R342, R343) -/

/-- The packets of one encoded frame: payloads of up to 1,200 bytes, which the codec makes of the picture. -/
def encodePackets (x : EncodeCtx) (rap : Bool) (ts : Word) (free : Nat) (bytes : Nat) : List Rtp :=
  let n := max 1 (cdiv bytes 1200)
  (List.range n).map (fun i => {
    pt := x.outPt, seq := x.seq + BitVec.ofNat 16 i, ts := ts, marker := decide (i + 1 = n)
    payload := (List.range (min 1200 (bytes - 1200 * i))).map (fun j => Config.encodedByte free x.picture (1200 * i + j))
    ess := .bitstream { first := decide (i = 0), last := decide (i + 1 = n), rap := rap
                        vui := if rap && i == 0 then some { colour := x.tag } else none } })

/-- What a context may still send of BITRATE_KBPS in the second that ends now, in bytes (R343). -/
def rateRoom (s : State) (x : EncodeCtx) : Nat :=
  125 * x.kbps - ((x.window.filter (fun w => decide (now s < w.1 + 1000000))).map Prod.snd).sum

/-- The encode of a frame ends: its input is released, and its packets leave through its entry. A frame that would take
the last second beyond BITRATE_KBPS is clipped to it (R343). -/
def execEncodeFrameDone (ctx : Word) (bytes : BitVec 32) (clipped : Bool) (s : State) : Host.Outcome State Fault Refusal :=
  let h := ctx.toNat
  match tget s.pool.encodes h with
  | none => .next s
  | some x =>
    if x.busy = false then .next s
    else
      let n := min bytes.toNat (rateRoom s x)
      let clips := clipped || decide (n < bytes.toNat)
      let same := decide (x.second = second s)
      let ps := encodePackets x (decide (x.frames % x.gop = 0)) (word (divOpen (now s * 9) 100)) s.free n
      let s1 := giveRefs (ctxDest h) (.encode h) { s with free := s.free + 1 }
      let s2 := setPool { s1.pool with encodes := tset s1.pool.encodes h { x with
        busy := false, frames := sat 0xFFFFFFFF x.frames 1, clipped := sat 0xFFFFFFFF x.clipped (b1 clips)
        window := x.window.filter (fun w => decide (now s < w.1 + 1000000)) ++ [(now s, n)]
        seq := x.seq + BitVec.ofNat 16 ps.length, second := second s
        secondBytes := (if same then x.secondBytes else 0) + n
        lastSecondKbps := lastRate x s } } s1
      let s3 := if clips then raise (179 + x.core) 1 s2 else s2
      .next (ps.foldl (fun s p => match tget s.eth.entries x.entry with
        | some e => deliver x.entry e false p s
        | none => s) s3)

/-! ### Events of the drives (R323–R325) -/

/-- A namespace goes: a member becomes MISSING, any other slot FREE. -/
def removeDrive (d : DriveInfo) (s : State) : State :=
  match slotOf s d with
  | none => setPool { s.pool with unslotted := s.pool.unslotted.filter (fun e =>
      decide (e.2.serial ≠ d.serial ∨ e.2.nsid ≠ d.nsid)) } s
  | some k =>
    let st := ((tget s.pool.drives k).map (fun x => x.state)).getD 0
    if st = 5 then s
    else if st = 3 ∨ st = 4 then loseMember k 5 s
    else
      let s1 := driveState k 0 (setPool { s.pool with ops := s.pool.ops.filter (fun o => decide (o.1 ≠ k)) } s)
      -- a slot that FORMAT_POOL has named stays with the pool that it builds
      if (s.pool.formatting.map (fun f => decide (k ∈ f.1))).getD false then s1
      else setPool { s1.pool with drives := tdel s1.pool.drives k } s1

def execDrivePresenceChange (root : Fin 4) (d : DriveInfo) (added : Bool) (s : State) : Host.Outcome State Fault Refusal :=
  .next (awake (fun s => finishKeys (if added then addDrive root.val d (raise (108 + root.val) 0 s)
    else slotWaiting (removeDrive d (raise (108 + root.val) 1 s)))) s)

/-- The oldest command at a drive slot. -/
def oldestOp (s : State) (d : Nat) : Option (NvmeOp × Nat) := (s.pool.ops.find? (fun o => decide (o.1 = d))).map Prod.snd

/-- Remove the oldest command at a drive slot. -/
def popOp (d : Nat) : List (Nat × NvmeOp × Nat) → List (Nat × NvmeOp × Nat)
  | [] => []
  | o :: t => if o.1 = d then t else o :: popOp d t

/-- A segment's header, and any Flush, is on the medium: the segment counts as written; an ALTERNATE only in the
index (R324, R334). -/
def headerDone (d : Nat) (h : Handle) (chain : Nat) (s : State) : State :=
  if s.pool.segments.any (fun e => decide (e.stream = h ∧ e.chain = chain ∧ e.drive = d) && e.alternate && !e.written) then
    setPool { s.pool with segments := s.pool.segments.map (fun e =>
      if e.stream = h ∧ e.chain = chain ∧ e.drive = d ∧ e.alternate = true then { e with written := true } else e) } s
  else segWritten h chain s

/-- What a completed command leads to. -/
def opDone (d : Nat) (op : NvmeOp) (s : State) : State :=
  match op with
  | .piece h c k => recMod h (fun x => { x with seg := x.seg.map (fun g =>
      if g.chain = c ∧ g.drive = some d then { g with acked := g.acked + k } else g) }) s
  | .header h c =>
    -- the header comes last: where a piece has had to be issued again, so has it (R331)
    if s.pool.ops.any (fun o => decide (o.1 = d) && (match o.2.1 with
      | .piece k n _ => decide (k = h ∧ n = c)
      | _ => false)) then issueOp d (.header h c) s
    else if ((tget s.pool.drives d).map (fun x => x.flush)).getD false then issueOp d (.flush h c) s else headerDone d h c s
  | .flush h c => headerDone d h c s
  | _ => s

def execNvmeCompletion (slot : Fin 256) (ok : Bool) (s : State) : Host.Outcome State Fault Refusal :=
  match oldestOp s slot.val with
  | none => .next s
  | some (op, _) =>
    let s1 := setPool { s.pool with ops := popOp slot.val s.pool.ops } s
    -- an error: the Error Information log is read, and the command is issued again (R323)
    .next (finishKeys <| if ok then opDone slot.val op s1
      else
        let s2 := raise (portSource s (some slot.val)) 3 s1
        if op = .errorLog then s2 else issueOp slot.val op (issueOp slot.val .errorLog s2))

/-- A recorder write has taken more than 20 ms, or another command more than 2 s (R325). -/
def opLate (s : State) (op : NvmeOp) (t : Nat) : Bool :=
  decide (t + (match op with
    | .piece _ _ _ => 20000
    | .header _ _ => 20000
    | .manifest _ _ => 20000
    | _ => 2000000) < now s)

def execNvmeTimeout (slot : Fin 256) (s : State) : Host.Outcome State Fault Refusal :=
  let d := slot.val
  if !s.pool.ops.any (fun o => decide (o.1 = d) && opLate s o.2.1 o.2.2) ∨ !readable s d then .next s
  else .next (finishKeys
    (loseMember d 4 (raise (portSource s (some d)) 2 (driveMod d (fun x => { x with stalledAt := now s }) s))))

/-- Every 10 s one read of a stalled member's header (R325). -/
def execStallHeaderRetry (slot : Fin 256) (ok : Bool) (s : State) : Host.Outcome State Fault Refusal :=
  let d := slot.val
  match tget s.pool.drives d with
  | none => .next s
  | some x =>
    if x.state ≠ 4 ∨ now s < x.stalledAt + 10000000 then .next s
    else
      let s1 := driveMod d (fun x => { x with stalledAt := now s }) (send (.nvme d .readHeader) s)
      .next (if ok then memberBack d s1 else s1)

/-- Every 60 s the SMART log of each drive of a root port is read (R323). -/
def execSmartPoll (root : Fin 4) (warning : Bool) (s : State) : Host.Outcome State Fault Refusal :=
  if now s < (tget s.pool.smartAt root.val).getD 0 + 60000000 || held s then .next s
  else
    let here := (s.pool.drives.filter (fun e =>
      decide (e.2.root = root.val ∧ e.2.state ≠ 0 ∧ e.2.state ≠ 4 ∧ e.2.state ≠ 5))).map Prod.fst
    let s1 := here.foldl (fun s k => issueOp k .smartLog s)
      (setPool { s.pool with smartAt := tset s.pool.smartAt root.val (now s) } s)
    .next (if warning then raise (108 + root.val) 4 s1 else s1)

/-! ### Segments, episodes and manifests (R331, R336, R337, R353, R355) -/

/-- SEG_MAX_MS has passed since the open segment's first record. -/
def execSegmentTimeLimit (stream : Word) (s : State) : Host.Outcome State Fault Refusal :=
  match recGet s stream.toNat with
  | none => .next s
  | some x => match x.seg with
    | none => .next s
    | some g =>
      if !g.bytes.isEmpty ∧ g.firstAt + x.segMaxMs * 1000 ≤ now s then .next (closeSeg stream.toNat true s)
      else .next s

def execPostrollExpiry (stream : Word) (s : State) : Host.Outcome State Fault Refusal :=
  match (recGet s stream.toNat).bind (fun x => x.episodeEnds) with
  | none => .next s
  | some t => if t ≤ now s then .next (endEpisode stream.toNat s) else .next s

/-- The vault signs the oldest manifest request; while its entropy tests fail, manifests wait (R355). -/
def execManifestSigned (s : State) : Host.Outcome State Fault Refusal :=
  match s.pool.queue with
  | [] => .next s
  | r :: t => if s.vault.selfTest ∧ !s.vault.entropy then .next s else .next (signManifest r (setPool { s.pool with queue := t } s))

/-- The namespace that carries a member's header. -/
def memberDrive (m : Medium) (l : List (Fin 4 × DriveInfo)) (i : Nat) : Option (Fin 4 × DriveInfo) :=
  l.find? (fun e => e.2.qualifies && (match e.2.header with
    | some (id, k) => decide (id = m.identity ∧ k.val = i)
    | none => false))

/-- The pool of the members is mounted (R339): those not found are MISSING; open groups are signed, every stream passes to
P0, CLOSED, under a new handle, and what no header covers is lost. -/
def mountMedium (m : Medium) (l : List (Fin 4 × DriveInfo)) (s : State) : State :=
  let s1 := setPool { s.pool with
    medium := none, mounted := true, identity := m.identity, members := m.members, tier2 := m.tier2, drives := m.drives
    streams := m.streams, segments := m.segments, manifests := m.manifests, queue := m.queue } s
  let s2 := m.drives.foldl (fun s e => match memberDrive m l e.2.member with
    | some (root, d) => joinMember e.1 root.val d s
    | none => driveState e.1 5 s) s1
  (tkeys m.streams).foldl (fun s h =>
    let r := reassign h 0 (askManifest h 2 s)
    (m.abandoned.filter (fun e => decide (e.1 = h))).foldl (fun s e =>
      lose r.1 e.2.chain e.2.bytes.length e.2.drive s) (recState r.1 2 r.2)) s2

/-- At firmware ready the drives are enumerated, and the pool is mounted when at least one member header is found (R323,
R339). -/
def mountPool (l : List (Fin 4 × DriveInfo)) (s : State) : State :=
  match s.pool.medium with
  | none => l.foldl (fun s e => addDrive e.1.val e.2 s) s
  | some m =>
    let ours := m.drives.filterMap (fun e => memberDrive m l e.2.member)
    if ours.isEmpty then l.foldl (fun s e => addDrive e.1.val e.2 s) s
    else (l.filter (fun e => !decide (e ∈ ours))).foldl (fun s e => addDrive e.1.val e.2 s) (mountMedium m l s)

/-- What a reset leaves on the members (R339): written segments and their manifests. Open segments and units are lost, and
a group whose manifest is not signed is open. -/
def mediumOf (s : State) : Option Medium :=
  if !s.pool.mounted then s.pool.medium
  else
    let live := s.pool.segments.filter (fun e => e.written)
    some {
      identity := s.pool.identity, members := s.pool.members, tier2 := s.pool.tier2
      drives := (s.pool.drives.filter (fun e => decide (3 ≤ e.2.state ∧ e.2.state ≤ 5))).map (fun e => (e.1, { e.2 with
        state := 0, used := (live.filter (fun f => decide (f.drive = e.1))).map (fun f => f.slot) }))
      streams := tall s.pool.streams (fun _ x => { x with
        seg := none, closing := none, arriving := none, finishing := none, episode := false, episodeEnds := none, held := []
        unplaced := [], prerollBuf := [], prerollGaps := [], gapsDue := [] })
      segments := live, manifests := s.pool.manifests, queue := s.pool.queue.map (fun r => { r with flags := 2 })
      abandoned := s.pool.abandoned }

end Sys2Proof.Machine
end

