-- ==== Sys2Proof/Machine/Vault.lean ====
section
/-! DEFINITION. The key vault: the key-class commands (R346–R357) and the events of its entropy source and of
host signatures. -/

namespace Sys2Proof.Machine

open Sys2Proof

/-- The identity key in force: 0 production, 1 test (R350). -/
def identityKey (s : State) : Nat := b1 s.sys.debug

/-- Every key-class command is refused after a failed known-answer test (R355). -/
def tested (s : State) (k : CmdOut) : CmdOut := if s.vault.selfTest then k else refuse .state

/-- A key that the issuer may use or, with `p0`, that P0 may name too. -/
def withKey (c : Ctx) (s : State) (p0 : Bool) (k : Nat → KeySlot → CmdOut) : CmdOut :=
  match handleFault c.page s (bn c 0) [7] with
  | some e => refuse e
  | none =>
    if !p0 ∧ hPart (bn c 0) ≠ c.page then refuse .notOwner
    else match keySlot s (bn c 0) with
      | none => refuse .noSuchHandle
      | some (i, x) => tested s (k i x)

/-! ### GENERATE_KEY, ZEROISE_KEY (R347, R348, R352) -/

def uniqueWords : List Word := [Config.uniqueNumber.extractLsb' 0 32, Config.uniqueNumber.extractLsb' 32 32]

/-- The attestation statement of a new key (Table 15-3). -/
def statementOf (s : State) (k : Nat) (x : KeySlot) (key : Nat) : List Word :=
  let ws := [0x41545354,
      pack [(1, 7, 0), (x.type, 9, 8), (x.policy, 12, 10), (1, 16, 16), (b1 x.debug, 18, 18), (x.owner, 23, 20)],
      word k, word (keyHandle k x)] ++ uniqueWords ++ [word (now s), word (now s / 2 ^ 32), s.sys.bootCount, 0, 0, 0]
    ++ (if x.type = 1 then wordsOf (beBytes (Config.ecdsaPublic key).toNat 96) else List.replicate 24 0)
  ws ++ wordsOf (beBytes (Config.ecdsaSign (identityKey s) (Config.sha384 (bytesOf ws)) s.free).toNat 96)

def cmdGenerateKey (c : Ctx) (s : State) : CmdOut :=
  tested s <|
    let type := bf c 0 1 0
    let policy := bf c 0 6 4
    if type = 0 ∨ type = 3 ∨ policy = 0 then refuse .range
    else if (type = 1 ∧ policy ≠ 1 ∧ policy ≠ 2) ∨ (type = 2 ∧ policy ≠ 4) then refuse .inconsistent
    else if !s.vault.entropy then refuse .state
    else match (List.range 1024).find? (fun k => (slotGet s k).key.isNone && !(slotGet s k).retired) with
      | none => refuse .quota
      | some k =>
        if quotaOf s c.page 11 ≤ quotaUse s c.page 11 then refuse .quota
        else
          let key := s.vault.nextKey
          let x : KeySlot := {
            gen := (slotGet s k).gen, key := some key, type := type, policy := policy, owner := c.page, debug := s.sys.debug }
          let s1 := slotPut k { x with statement := statementOf s k x key }
            (setVault { s.vault with nextKey := key + 1 } { s with free := s.free + 1 })
          .done .ok [word (keyHandle k x), word k] s1

/-- The command waits while the last segments of the key's streams are being written. -/
def cmdZeroiseKey (c : Ctx) (s : State) : CmdOut :=
  withKey c s true fun k x =>
    let s1 := zeroise k s
    if keyPending s1 (keyHandle k x) then .wait (.zeroise k) s1 else .done .ok [] s1

/-- At the first boot with DEBUG = 0 the debug keys go (R350); how many went. -/
def purgeDebug (s : State) : Nat × State :=
  let l := (s.vault.slots.filter (fun e => e.2.key.isSome && e.2.debug)).map Prod.fst
  if s.sys.debug ∨ l.isEmpty then (0, s) else (l.length, raise 228 1 (l.foldl (fun s k => zeroise k s) s))

/-! ### GET_ATTESTATION, GET_IDENTITY (R350, R352) -/

def cmdGetAttestation (c : Ctx) (s : State) : CmdOut :=
  withKey c s true fun _ x =>
    if bn64 c 1 % 4 ≠ 0 then refuse .range
    else if sealed s x then refuse .state
    else hostWrite s (bn64 c 1) (bytesOf x.statement) fun s1 => .done .ok [] s1

/-- The identity certificate (Table 15-2). -/
def certificate (s : State) : List Word :=
  let id := identityKey s
  let ws := [0x49444E54, pack [(1, 7, 0), (id, 15, 8)]] ++ uniqueWords ++ [0x4896B00D, 0, 0, 0]
    ++ wordsOf (beBytes (Config.ecdsaPublic id).toNat 96)
  ws ++ wordsOf (beBytes (Config.rootSig id (Config.sha384 (bytesOf ws))).toNat 96) ++ wordsOf ((List.range 96).map (fun i => (Config.bootRoot id).getD i 0))

def cmdGetIdentity (c : Ctx) (s : State) : CmdOut :=
  tested s <|
    if bn64 c 1 % 4 ≠ 0 then refuse .range
    else hostWrite s (bn64 c 1) (bytesOf (certificate s)) fun s1 => .done .ok [] s1

/-! ### SIGN_DIGEST, CRYPT_DATA (R353, R354) -/

def cmdSignDigest (c : Ctx) (s : State) : CmdOut :=
  withKey c s false fun k x =>
    if c.len ≠ 60 then refuse .length
    else if bn64 c 1 % 4 ≠ 0 then refuse .range
    else if !tb x.policy 1 ∨ sealed s x ∨ !s.vault.entropy then refuse .state
    else if 64 ≤ s.vault.hostQueue then refuse .busy
    else .wait (.signDigest k (bn64 c 1) ((bytesOf c.body).drop 12))
      (setVault { s.vault with hostQueue := s.vault.hostQueue + 1 } s)

/-- A number from bytes, most significant first. -/
def ofBe (l : List Byte) : Nat := ofLe l.reverse

/-- The nonce of the next seal: the key handle, then the seal counter, big-endian. -/
def sealNonce (h : Handle) (n : Nat) : List Byte := beBytes h 4 ++ beBytes n 8

/-- UNSEAL_FAIL at most once a second (R356). -/
def unsealFail (s : State) : State :=
  if s.vault.unsealSecond = some (second s) then s
  else raise 228 2 (setVault { s.vault with unsealSecond := some (second s) } s)

def cmdCryptData (c : Ctx) (s : State) : CmdOut :=
  withKey c s false fun k x =>
    let h := bn c 0
    let dir := bb c 1 0
    let n := bn c 4
    let aad := beBytes h 4
    let key := x.key.getD 0
    if n < (if dir then 29 else 1) ∨ (if dir then 65564 else 65536) < n ∨ bn64 c 5 % 4 ≠ 0 then refuse .range
    else if !tb x.policy 2 ∨ sealed s x ∨ (!dir ∧ 2 ^ 32 ≤ x.seals) then refuse .state
    else match hostRead s (bn64 c 2) n with
      | none => refuse .hostDma
      | some data =>
        let write := fun (bs : List Byte) (s : State) =>
          let r := dmaReach s (bn64 c 5) bs.length
          if r < bs.length then
            CmdOut.done .hostDma [] { s with
              hostMem := memWrite 0 s.hostMem (bn64 c 5) (bs.take (Config.freeNat s.free % (r + 1))), free := s.free + 1 }
          else .done .ok [word bs.length] { s with hostMem := memWrite 0 s.hostMem (bn64 c 5) bs }
        if !dir then
          let nonce := sealNonce h x.seals
          let ct := (List.range n).map (fun i => (Config.gcmSeal key nonce aad data).getD i 0)
          let tag := (List.range 16).map (fun i => (Config.gcmTag key nonce aad ct).getD i 0)
          write (nonce ++ ct ++ tag) (slotPut k { x with seals := x.seals + 1 } s)
        else
          let nonce := data.take 12
          let ct := (data.drop 12).take (n - 28)
          if data.drop (n - 16) ≠ (List.range 16).map (fun i => (Config.gcmTag key nonce aad ct).getD i 0) then
            .done .inconsistent [] (unsealFail s)
          else write ((List.range (n - 28)).map (fun i => (Config.gcmOpen key nonce aad ct).getD i 0)) s

def cmdGetVaultStatus (c : Ctx) (s : State) : CmdOut :=
  tested s <| .done .ok [word (quotaUse s c.page 11), word (quotaOf s c.page 11),
    pack [(b1 s.sys.debug, 0, 0), (b1 s.vault.selfTest, 1, 1), (b1 s.vault.entropy, 2, 2)], word s.pool.queue.length,
    word s.vault.hostQueue, word (s.vault.slots.filter (fun e => e.2.retired)).length] s

def specGenerateKey : OpSpec :=
  { op := 0x0E00, maxLen := 4, rsv := within [field 1 0 ||| field 6 4], log := always, named := nameMade, bound := 50000
    run := cmdGenerateKey }

def specZeroiseKey : OpSpec := { op := 0x0E01, maxLen := 4, log := always, named := nameWord 0, bound := 100000, run := cmdZeroiseKey }

def specGetAttestation : OpSpec := { op := 0x0E02, maxLen := 12, run := cmdGetAttestation }

def specGetIdentity : OpSpec := { op := 0x0E03, maxLen := 12, rsv := within [0], run := cmdGetIdentity }

def specSignDigest : OpSpec :=
  { op := 0x0E04, maxLen := 60, bulkOnly := true, bound := 50000, run := cmdSignDigest }

def specCryptData : OpSpec :=
  { op := 0x0E05, maxLen := 28, rsv := within [0xFFFFFFFF, 1], log := fun b => !bit (wd b 1) 0, named := nameWord 0, bound := 100000
    run := cmdCryptData }

def specGetVaultStatus : OpSpec := { op := 0x0E06, run := cmdGetVaultStatus }

def execGenerateKey (page : Fin 16) (d : Desc) (s : State) : Host.Outcome State Fault Refusal :=
  if d.Wf then .next (issue specGenerateKey page d s) else .fault .illFormed

def execZeroiseKey (page : Fin 16) (d : Desc) (s : State) : Host.Outcome State Fault Refusal :=
  if d.Wf then .next (issue specZeroiseKey page d s) else .fault .illFormed

def execGetAttestation (page : Fin 16) (d : Desc) (s : State) : Host.Outcome State Fault Refusal :=
  if d.Wf then .next (issue specGetAttestation page d s) else .fault .illFormed

def execGetIdentity (page : Fin 16) (d : Desc) (s : State) : Host.Outcome State Fault Refusal :=
  if d.Wf then .next (issue specGetIdentity page d s) else .fault .illFormed

def execSignDigest (page : Fin 16) (d : Desc) (s : State) : Host.Outcome State Fault Refusal :=
  if d.Wf then .next (issue specSignDigest page d s) else .fault .illFormed

def execCryptData (page : Fin 16) (d : Desc) (s : State) : Host.Outcome State Fault Refusal :=
  if d.Wf then .next (issue specCryptData page d s) else .fault .illFormed

def execGetVaultStatus (page : Fin 16) (d : Desc) (s : State) : Host.Outcome State Fault Refusal :=
  if d.Wf then .next (issue specGetVaultStatus page d s) else .fault .illFormed

/-! ### Events (R353, R355, R356) -/

def execEntropyHealthChange (healthy : Bool) (s : State) : Host.Outcome State Fault Refusal :=
  .next (awake (fun s =>
    let s1 := setVault { s.vault with entropy := healthy } s
    if s.vault.entropy && !healthy then raise 227 1 s1 else s1) s)

/-- A host signature is made, after every manifest that waits; r and s are written. -/
def execDigestSigned (s : State) : Host.Outcome State Fault Refusal :=
  match s.exec with
  | none => .next s
  | some e => match e.waits with
    | .signDigest k addr digest =>
      if !s.pool.queue.isEmpty ∨ !s.vault.entropy then .next s
      else
        let bs := beBytes (Config.ecdsaSign ((slotGet s k).key.getD 0) (BitVec.ofNat 384 (ofBe digest)) s.free).toNat 96
        let s1 := setVault { s.vault with hostQueue := s.vault.hostQueue - 1 } { s with free := s.free + 1 }
        let r := dmaReach s addr 96
        if r < 96 then
          .next (complete e false 0 .hostDma [] { s1 with
            hostMem := memWrite 0 s1.hostMem addr (bs.take (Config.freeNat s1.free % (r + 1))), free := s1.free + 1 })
        else .next (complete e false 0 .ok [] { s1 with hostMem := memWrite 0 s1.hostMem addr bs })
    | _ => .next s

end Sys2Proof.Machine
end

