-- ==== Sys2Proof/Machine/Domino.lean ====
section
/-! DEFINITION. Domino groups: the domino-class commands (R369–R372), slots and control blocks (R359–R363), the
group clock and slot deviations (R364, R365), member states (R366) and divergence (R367, R368). -/

namespace Sys2Proof.Machine

open Sys2Proof

def setDomino (d : Domino) (s : State) : State := { s with domino := d }

/-- The rings a member has joined. -/
def ringsOf (d : Domino) : List Nat := if d.count = 0 then [] else members d.rings.toNat 4

/-- Receive port of a ring; its pair is 16 above. -/
def ringPort (d : Domino) (r : Nat) : Nat := d.rxPorts.getD r 0

/-- Both ports of a ring are ACTIVE. -/
def ringUp (s : State) (r : Nat) : Bool :=
  decide (r ∈ ringsOf s.domino ∧ (portGet s (ringPort s.domino r)).state = 5 ∧ (portGet s (ringPort s.domino r + 16)).state = 5)

/-! ### State records (R363, Table 16-2) -/

/-- The digest of this member's own exports. -/
def ownExports (d : Domino) : BitVec 16 := Config.exportDigest (d.exports.map (fun e => (e.1, e.2.peer, e.2.source)))

/-- Halfword k of EXPORTS as a record of 40 bytes holds it. -/
def exportsIn (r : List Byte) (k : Nat) : Nat := ofLe ((r.drop (32 + 2 * k)).take 2)

/-- This member's view of DMk's export table. -/
def exportsView (d : Domino) (k : Nat) : Nat :=
  if k = d.member then (ownExports d).toNat else ((tget d.heard k).map (fun r => exportsIn r k)).getD 0

/-- Word i of a record. -/
def recWord (r : List Byte) (i : Nat) : Word := word (ofLe ((r.drop (4 * i)).take 4))

/-- STATE as a record holds it. -/
def recState3 (r : List Byte) : Nat := bits (recWord r 0) 4 2

/-- The 128 bits of GROUP: SHA-384 over the bodies of every member, in member order. -/
def groupDigest (d : Domino) : BitVec 128 :=
  (Config.sha384 ((List.range d.count).flatMap (fun k => bytesOf (if k = d.member then d.body else Config.peerBody k)))).extractLsb' 256 128

/-- This member's own state record (Table 16-2). -/
def ownRecord16 (s : State) : List Byte :=
  let d := s.domino
  let view := (List.range 4).map (fun k => (if k = d.member then d.state else ((tget d.heard k).map recState3).getD 0) * 8 ^ k)
  bytesOf ([pack [(d.member, 1, 0), (d.state, 4, 2), (d.lost.toNat, 11, 8), (if d.member = 0 then view.sum else 0, 31, 20)],
      d.epoch, s.sys.fwVersion, s.sys.cmdsetVersion] ++ wordsOf (beBytes (groupDigest d).toNat 16))
    ++ (List.range 4).flatMap (fun k => leBytes (exportsView d k) 2)

/-- The items of Table 16-6 on which two records differ, this member's own against the leader's. -/
def itemDiffers (s : State) (l : List Byte) (i : Nat) : Bool :=
  let d := s.domino
  let o := ownRecord16 s
  match i with
  | 0 => decide ((o.drop 16).take 16 ≠ (l.drop 16).take 16)
  | 1 => decide ((o.drop 8).take 8 ≠ (l.drop 8).take 8)
  | 2 => decide ((o.drop 4).take 4 ≠ (l.drop 4).take 4)
  | 3 => decide (d.state ≠ bits (recWord l 0) (22 + 3 * d.member) (20 + 3 * d.member))
  | i => decide (exportsIn o (i - 4) ≠ exportsIn l (i - 4))

/-- The items on which member k's record differs from the leader's: its STATE from the VIEW the leader has sent. -/
def peerDiffers (s : State) (k : Nat) (r : List Byte) (i : Nat) : Bool :=
  if i = 3 then decide (recState3 r ≠ s.domino.viewSent / 8 ^ k % 8) else itemDiffers s r i

/-- One more group frame in which an item differs or agrees; none of it counts before eight of them (R367), and a
member is divergent until every item has agreed for eight (R368). -/
def countPeer (ds : List Bool) (p : Peer) : Peer :=
  let differs := (List.range 8).map (fun i => if ds.getD i false then p.differs.getD i 0 + 1 else 0)
  let agrees := if ds.any id then 0 else p.agrees + 1
  { differs := differs, agrees := agrees
    divergent := if differs.any (fun n => decide (8 ≤ n)) then true else if 8 ≤ agrees then false else p.divergent }

/-- DOMINO_STATE's bitmap: a member's divergent items; the leader names the divergent members. -/
def divergenceWord (s : State) : Word :=
  let d := s.domino
  if d.member = 0 ∧ d.count ≠ 0 then word (bitmap ((d.peers.filter (fun e => e.2.divergent)).map Prod.fst)) else word d.divergent.toNat

/-! ### Member states (R366) -/

/-- The member enters a state; the cause is its event's sub-cause, open where no event belongs to the change. -/
def enterDomino (st : Nat) (cause : Option Nat) (s : State) : State :=
  if s.domino.state = st then s
  else
    let s1 := setDomino { s.domino with state := st, since := now s, goodBeacons := 0, phased := false } s
    let c := match cause with
      | some k => word k
      | none => Config.freeWord s1.free
    postNtf 0 0x0F01 [word st, c, divergenceWord s1] (if cause.isNone then { s1 with free := s1.free + 1 } else s1)

/-- Enter RELOCK (R365): the leader never does. -/
def relock (s : State) : State :=
  if s.domino.member = 0 ∨ s.domino.state = 3 then s else enterDomino 3 (some 2) (raise 239 2 s)

/-- Formation is complete (Table 16-4): the leader has measured the loop of every ring, none beyond 96 µs (R359). -/
def formed (s : State) : Bool :=
  let d := s.domino
  (ringsOf d).all (ringUp s) && (if d.member = 0 then (ringsOf d).all (fun r => (tget d.loops r).any (fun n => decide (n ≤ 96))) else decide (0 < d.lastBeacon))
    && (List.range d.count).all (fun k => decide (k = d.member) || (tget d.heard k).isSome)

def checkFormed (s : State) : State :=
  if s.domino.state = 1 ∧ formed s then enterDomino 2 (some 0) (raise 240 0 s) else s

/-! ### Commands (R369, R370, R372) -/

/-- Ring units of a hop (R360). -/
def ringUnits (s : State) (r : Nat) : Nat :=
  let x := portGet s (ringPort s.domino r)
  96 * (lanesOf x).length * laneRate x.rate * 128 / (100 * 10 * 130)

/-- Units an export takes on each hop (R369). -/
def exportUnits (s : State) (h : Handle) : Nat :=
  let f := (srcGet s h).fmt
  fceil (fscale (fmul (pixelRate f) ⟨bitsPerPixel f.sampling f.depth * 11, 10⟩) 1000000000)

/-- A subscription heard of lives while it is renewed (R370). -/
def chargeLive (s : State) (c : Charge) : Bool := decide (now s < c.renewed + 3000000)

/-- Units in use on a ring, whose every hop carries every channel (R369): each export with a subscriber there, once, of
this member and of the others. -/
def unitsUsed (s : State) (r : Nat) : Nat :=
  (((s.domino.subs.filter (fun u => decide (u.ring = r))).map (fun u => (u.xport, u.units))).dedup.map Prod.snd).sum
    + (((s.domino.charges.filter (fun c => decide (c.ring = r) && chargeLive s c)).map
        (fun c => (c.origin, c.xport, c.units))).dedup.map (fun e => e.2.2)).sum

/-- A REQUEST to another member: its ANSWER will tell what it has charged (DEDUCED, log entry 61). -/
def noteRequest (a : Asked) (d : Domino) : Domino :=
  { d with asked := a :: d.asked.filter (fun b => decide (b.member ≠ a.member ∨ b.origin ≠ a.origin ∨ b.req ≠ a.req)) }

/-- The ANSWER to a REQUEST heard or sent: the subscription it makes, renews or ends. -/
def noteAnswer (origin member req st units : Nat) (s : State) : State :=
  let d := s.domino
  match d.asked.find? (fun a => decide (a.member = member ∧ a.origin = origin ∧ a.req = req)) with
  | none => s
  | some a =>
    let live := d.charges.filter (chargeLive s)
    let chan := live.filter (fun c => decide (c.origin = origin ∧ c.xport = a.xport ∧ c.ring = a.ring))
    let mine := fun (c : Charge) => decide (c.origin = origin ∧ c.xport = a.xport ∧ c.ring = a.ring ∧ c.member = member)
    let rest := live.filter (fun c => !mine c)
    setDomino { d with
      asked := d.asked.filter (fun b => decide (b ≠ a))
      charges := match a.kind with
        | 1 =>
          if st ≠ 0 then live
          else { origin := origin, member := member, xport := a.xport, ring := a.ring
                 units := (chan.map (fun c => c.units)).foldl max units, renewed := now s } :: rest
        | 2 => if st = 0 then live.map (fun c => if mine c then { c with renewed := now s } else c) else rest
        | 3 => rest
        | _ => live } s

def cmdSetDomino (c : Ctx) (s : State) : CmdOut :=
  let m := bf c 0 1 0
  let n := bf c 0 4 2
  let rings := bf c 0 11 8
  let ports := (List.range 4).map (fun r => bf c 1 (4 * r + 3) (4 * r))
  let used := (members rings 4).map (fun r => ports.getD r 0)
  if n = 1 ∨ 4 < n ∨ (n ≠ 0 ∧ (n ≤ m ∨ rings = 0)) then refuse .range
  else if (n = 0 ∧ (m ≠ 0 ∨ rings ≠ 0)) ∨ (List.range 4).any (fun r => !tb rings r && decide (ports.getD r 0 ≠ 0)) ∨ used.dedup ≠ used
    then refuse .inconsistent
  else if used.any (fun p => decide ((portGet s p).mode ≠ 2)) ∨ !s.domino.exports.isEmpty
      ∨ s.sources.any (fun e => !e.2.deleted && (match e.2.kind with
        | .imported _ _ _ => true
        | _ => false)) then refuse .state
  else
    let old := s.domino
    let d : Domino := {
      member := m, count := n, rings := BitVec.ofNat 4 rings, rxPorts := ports, body := [bw c 0, bw c 1], state := old.state
      epochs := if n ≠ 0 ∧ m = 0 then old.epochs + 1 else old.epochs
      epoch := if n ≠ 0 ∧ m = 0 then old.epochs + 1 else 0, lostTotal := old.lostTotal, nextReq := old.nextReq }
    let s1 := setDomino d s
    let s2 := enterDomino (if n = 0 then 0 else 1) none s1
    .done .ok [] (setDomino { s2.domino with since := now s } s2)

def cmdGetDominoStatus (c : Ctx) (s : State) : CmdOut :=
  let d := s.domino
  let up := (ringsOf d).filter (ringUp s)
  let w2 := pack [(d.state, 2, 0), (d.member, 4, 3), (d.count, 7, 5), (bitmap up, 15, 12)]
  let w3 := divergenceWord s
  if c.page ≠ 0 then .done .ok [w2, w3] s
  else .done .ok [w2, w3, d.epoch, d.frame,
    pack ((List.range 4).map (fun r => (if r ∈ ringsOf d then ringUnits s r - unitsUsed s r else 0, 8 * r + 7, 8 * r))),
    word d.lostTotal] s

/-- Every import, export and request is refused (Table 16-6). -/
def diverges (s : State) : Bool := s.domino.divergent.getLsbD 0 || s.domino.divergent.getLsbD 1 || s.domino.divergent.getLsbD 2

/-- A source that can be exported (R369). -/
def exportable (x : Source) : Bool :=
  match x.kind with
  | .link _ _ _ => true
  | .st2110 _ _ _ => true
  | .decoded _ => true
  | .processed => true
  | _ => false

def cmdCreateExport (c : Ctx) (s : State) : CmdOut :=
  withOwnSource c.page s (bn c 0) fun x =>
    let k := bf c 1 5 0
    if !exportable x then refuse .range
    else if s.domino.count = 0 then refuse .state
    else if diverges s then refuse .divergent
    else if (tget s.domino.exports k).isSome then refuse .busy
    else .done .ok [] (setDomino { s.domino with
      exports := tset s.domino.exports k { source := bn c 0, peer := bf c 1 11 8, owner := x.owner } } s)

def cmdDeleteExport (c : Ctx) (s : State) : CmdOut :=
  let k := bf c 0 5 0
  match tget s.domino.exports k with
  | none => refuse .noSuchHandle
  | some e =>
    if c.page ≠ 0 ∧ e.owner ≠ c.page then refuse .notOwner
    else .done .ok [] (setDomino { s.domino with
      exports := if s.domino.subs.any (fun u => decide (u.xport = k)) then tset s.domino.exports k { e with ending := true }
        else tdel s.domino.exports k } s)

/-- A REQUEST waits for this member's slot; its number. -/
def request (page dst kind xport ring : Nat) (s : State) : Nat × State :=
  let d := s.domino
  let n := (d.nextReq + 1) % 65536
  (n, setDomino (noteRequest ⟨d.member, dst, n, kind, xport, ring⟩ { d with
    nextReq := n, issued := tset d.issued n page, waiting := d.waiting ++ [requestBytes d.member dst n kind xport ring page] }) s)

/-- The format an import brings: the peer's export has a legal one that this device is not told. -/
def importFmt (origin xport ic ring : Nat) : Format :=
  let v := Config.importFormat origin xport
  let f : Format := {
    width := v 0, height := v 1, rate := v 2, interlaced := decide (v 3 = 1), sampling := v 4, depth := v 5
    colour := { matrix := v 6, transfer := v 7, primaries := v 8 % 4, full := decide (v 9 = 1) }, ringDepth := ring, ic := ic }
  if formatRange f ∧ formatAgrees (.imported origin xport ring) f then f else { ringDepth := ring, ic := ic }

def cmdCreateImport (c : Ctx) (s : State) : CmdOut :=
  let o := bf c 0 1 0
  let x := bf c 0 13 8
  let r := bf c 0 17 16
  let depth := if bf c 1 4 0 = 0 then 4 else bf c 1 4 0
  let ic := bf c 1 15 12
  if depth < 2 ∨ 16 < depth ∨ (8 ≤ ic ∧ ic ≤ 14) then refuse .range
  else if s.domino.count = 0 ∨ s.domino.state = 1 then refuse .state
  else if s.domino.count ≤ o then refuse .range
  else if o = s.domino.member ∨ r ∉ ringsOf s.domino then refuse .inconsistent
  else if dependsOn s o ∨ s.domino.divergent.getLsbD 3 then refuse .divergent
  else
    let f := importFmt o x ic depth
    match createStream c (.imported o x r) f s with
    | .fail st res => .fail st res
    | .done _ res _ =>
      -- the unit it has been admitted on, which the source takes on an OK
      let (n, s1) := request c.page o 1 x r s
      .wait (.importReq n o x r { f with ic := (wd res 1).toNat }) s1
    | .wait w s1 => .wait w s1
    | .dma s1 => .dma s1

def cmdDominoQuery (c : Ctx) (s : State) : CmdOut :=
  let o := bf c 0 1 0
  let n := bf c 0 31 16
  let d := s.domino
  if tget d.issued n ≠ some c.page then refuse .notOwner
  else if diverges s ∨ d.divergent.getLsbD 3 then refuse .divergent
  else .wait (.query n o) (setDomino { d with waiting := d.waiting ++ [requestBytes d.member o n 4 0 0 c.page] } s)

def specSetDomino : OpSpec :=
  { op := 0x0F00, p0 := true, maxLen := 8, rsv := within [field 4 0 ||| field 11 8, field 15 0], log := always, run := cmdSetDomino }

def specGetDominoStatus : OpSpec := { op := 0x0F01, run := cmdGetDominoStatus }

def specCreateExport : OpSpec :=
  { op := 0x0F02, maxLen := 8, rsv := within [0xFFFFFFFF, field 5 0 ||| field 11 8], log := always, named := nameWord 0
    run := cmdCreateExport }

def specDeleteExport : OpSpec := { op := 0x0F03, maxLen := 4, rsv := within [field 5 0], log := always, run := cmdDeleteExport }

def specCreateImport : OpSpec :=
  { op := 0x0F04, maxLen := 8, rsv := within [field 1 0 ||| field 13 8 ||| field 17 16, field 4 0 ||| field 15 12], log := always
    named := nameMade, bound := 20000, run := cmdCreateImport }

def specDominoQuery : OpSpec :=
  { op := 0x0F05, maxLen := 4, rsv := within [field 1 0 ||| field 31 16], bound := 20000, run := cmdDominoQuery }

def execSetDomino (page : Fin 16) (d : Desc) (s : State) : Host.Outcome State Fault Refusal :=
  if d.Wf then .next (issue specSetDomino page d s) else .fault .illFormed

def execGetDominoStatus (page : Fin 16) (d : Desc) (s : State) : Host.Outcome State Fault Refusal :=
  if d.Wf then .next (issue specGetDominoStatus page d s) else .fault .illFormed

def execCreateExport (page : Fin 16) (d : Desc) (s : State) : Host.Outcome State Fault Refusal :=
  if d.Wf then .next (issue specCreateExport page d s) else .fault .illFormed

def execDeleteExport (page : Fin 16) (d : Desc) (s : State) : Host.Outcome State Fault Refusal :=
  if d.Wf then .next (issue specDeleteExport page d s) else .fault .illFormed

def execCreateImport (page : Fin 16) (d : Desc) (s : State) : Host.Outcome State Fault Refusal :=
  if d.Wf then .next (issue specCreateImport page d s) else .fault .illFormed

def execDominoQuery (page : Fin 16) (d : Desc) (s : State) : Host.Outcome State Fault Refusal :=
  if d.Wf then .next (issue specDominoQuery page d s) else .fault .illFormed

/-! ### Slots (R359, R361, R364) -/

/-- A BEACON on this ring is valid: one has come within the last millisecond. -/
def beaconValid (s : State) (r : Nat) : Bool :=
  match tget s.domino.ringBeacon r with
  | some t => decide (now s < t + 1000)
  | none => false

/-- The ring whose copies this member acts on. -/
def actsOn (s : State) (r : Nat) : Bool := decide ((ringsOf s.domino).find? (beaconValid s) = some r)

/-- Send a control block on a ring's transmit port. -/
def sendRing (r : Nat) (bs : List Byte) (s : State) : State :=
  let p := ringPort s.domino r + 16
  sendSeq p 0 (lanesOf (portGet s p)) [ctlBlock bs] s

/-- Control blocks that fit in the 23 µs of a window beside the MARK and STATE blocks. -/
def windowBlocks (s : State) (r : Nat) : Nat :=
  let x := portGet s (ringPort s.domino r)
  (lanesOf x).length * (23 * laneRate x.rate * 100 / 130) - 5

/-- This member's slot window opens (R361): MARK or BEACON, the four STATE fragments, then what waits, on every ring that
is up. It originates nothing in RELOCK (R365), and requests wait in LEADERLESS (R366). -/
def openWindow (s : State) : State :=
  let d := s.domino
  let s1 := setDomino { d with opensAt := none, beaconAt := if d.member = 0 then now s else d.beaconAt } s
  let view := bits (recWord (ownRecord16 s) 0) 31 20
  if d.count = 0 ∨ d.state = 0 ∨ d.state = 3 then s1
  else
    let mark : List Byte := if d.member = 0 then [0xB4, 0, 0, BitVec.ofNat 8 d.count] ++ wordBytes d.epoch ++ wordBytes d.frame
      else [0xC3, 0, BitVec.ofNat 8 d.member]
    let rec_ := ownRecord16 s
    let state := (List.range 4).map (fun i => [0xD2, 0, BitVec.ofNat 8 d.member, BitVec.ofNat 8 i] ++ (rec_.drop (10 * i)).take 10)
    let ups := (ringsOf d).filter (ringUp s)
    let room := if d.state = 4 then 0 else (ups.map (windowBlocks s)).foldl min d.waiting.length
    let out := mark :: (state ++ d.waiting.take room)
    let s2 := setDomino { s1.domino with viewSent := view, waiting := if ups.isEmpty then d.waiting else d.waiting.drop room } s1
    out.foldl (fun s b => ups.foldl (fun s r => sendRing r b s) s) s2

/-- The window opens once its instant has come. -/
def openDue (s : State) : State :=
  match s.domino.opensAt with
  | some t => if t ≤ now s then openWindow s else s
  | none => s

/-- A group frame begins (R361, R367): a member counts its differences with the leader frame by frame, the leader those of
each member with itself; no slot of the frame is lost yet, and the window of member k opens at 25k + 1 µs. -/
def execGroupFrameStart (s0 : State) : Host.Outcome State Fault Refusal :=
  let s := openDue s0
  let d0 := s.domino
  if d0.count = 0 then .next s
  else
    let d1 := { d0 with frame := d0.frame + 1 }
    let d := if d1.member = 0 then { d1 with
        peers := (d1.heard.filter (fun e => decide (e.1 ≠ 0))).map (fun e =>
          (e.1, countPeer ((List.range 8).map (peerDiffers (setDomino d1 s) e.1 e.2)) ((tget d1.peers e.1).getD {}))) }
      else match tget d1.heard 0 with
        | some l =>
          let ds := (List.range 8).map (itemDiffers (setDomino d1 s) l)
          { d1 with
            differs := (List.range 8).map (fun i => if ds.getD i false then d1.differs.getD i 0 + 1 else 0)
            agrees := if ds.any id then 0 else d1.agrees + 1 }
        | none => d1
    .next (setDomino { d with lost := 0, opensAt := some (now s + 25 * d.member + 1) } s)

/-- SLOT_EDGE at most once a second for each slot. -/
def slotEdge (k : Nat) (s : State) : State :=
  if tget s.domino.edgeSecond k = some (second s) then s
  else raise 239 0 (setDomino { s.domino with edgeSecond := tset s.domino.edgeSecond k (second s) } s)

/-- Take a Domino control block of one type on a ring. -/
def withDomino (r type : Nat) (b : CtlBlock) (s : State) (k : State → State) : State :=
  if r ∉ ringsOf s.domino then s
  else withCtl (ringPort s.domino r) b s (fun t => if t = type ∧ (portGet s (ringPort s.domino r)).mode = 2 then k s else s)

/-- IDLE takes the place of blocks that are stripped or discarded (R359). -/
def sendIdle (r n : Nat) (s : State) : State := (List.replicate n ()).foldl (fun s _ => sendRing r [0x1E] s) s

/-- Forward a block unchanged (R359). -/
def forward (r : Nat) (b : CtlBlock) (s : State) : State :=
  let p := ringPort s.domino r + 16
  sendSeq p 0 (lanesOf (portGet s p)) [(2, b.payload)] s

/-- A valid BEACON on the ring this member acts on. In RELOCK the first one sets the group clock's phase and is good for
that, whatever its deviation was (R365, Table 16-5). The BEACON that ends LEADERLESS lets the member enter RELOCK, and the
next one sets the phase (DEDUCED, log entry 153). -/
def onBeacon (b : CtlBlock) (dNs : Int) (s : State) : State :=
  let n := dNs.natAbs
  let epoch := word (pbs b 4 8)
  let frame := word (pbs b 8 12)
  let s1 := if 500 < n ∧ n ≤ 1000 then slotEdge 0 s else s
  let st := s1.domino.state
  if st = 1 then checkFormed (setDomino { s1.domino with epoch := epoch, frame := frame } s1)
  else if st = 2 then
    let s2 := setDomino { s1.domino with frame := frame } s1
    if 1000 < n then relock s2 else s2
  else if st = 4 then relock (setDomino { s1.domino with epoch := epoch, frame := frame } s1)
  else if st = 3 then
    let g := if !s1.domino.phased || decide (n ≤ 250) then s1.domino.goodBeacons + 1 else 0
    let s3 := setDomino { s1.domino with goodBeacons := g, phased := true, epoch := epoch, frame := frame } s1
    if 16 ≤ g then enterDomino 2 (some 3) (raise 239 3 s3) else s3
  else s1

def execBeaconBlock (ring : Fin 4) (b : CtlBlock) (dNs : Int) (s : State) : Host.Outcome State Fault Refusal :=
  let r := ring.val
  .next (withDomino r 0xB4 b s fun s =>
    let s1 := setDomino { s.domino with
      ringBeacon := tset s.domino.ringBeacon r (now s), lastBeacon := now s } s
    if s.domino.member = 0 then
      -- the leader's own BEACON has come round: it is stripped, and at formation the loop is measured
      let loop := now s - s1.domino.beaconAt
      let s2 := checkFormed (setDomino { s1.domino with
        loops := if s1.domino.state = 1 then tset s1.domino.loops r loop else s1.domino.loops } (sendIdle r 1 s1))
      if s2.domino.state = 4 then enterDomino 2 (some 3) (raise 239 3 s2) else s2
    else
      let s2 := forward r b s1
      if actsOn s2 r then onBeacon b dNs s2 else s2)

/-- Slot k has been declared lost in this frame. -/
def slotLost (s : State) (k : Nat) : Bool := tb s.domino.lost.toNat k

/-- A block of member k in its slot: an own one is stripped, one of a lost slot discarded, any other forwarded and
acted on where this is the ring that counts. -/
def slotBlock (r k : Nat) (b : CtlBlock) (act : State → State) (s : State) : State :=
  if k = s.domino.member ∨ slotLost s k then sendIdle r 1 s
  else
    let s1 := forward r b s
    if actsOn s r ∧ k < s.domino.count then act s1 else s1

def execMarkBlock (ring : Fin 4) (b : CtlBlock) (dNs : Int) (s : State) : Host.Outcome State Fault Refusal :=
  let r := ring.val
  .next (withDomino r 0xC3 b s fun s =>
    let k := pb b 2
    let n := dNs.natAbs
    if k = s.domino.member ∨ k = 0 ∨ s.domino.count ≤ k then slotBlock r k b id s
    else if 1000 < n ∧ actsOn s r then
      if slotLost s k then sendIdle r 1 s
      else raise 239 1 (setDomino { (sendIdle r 1 s).domino with
        lost := s.domino.lost ||| BitVec.ofNat 4 (2 ^ k), lostTotal := sat 0xFFFFFFFF s.domino.lostTotal 1 } (sendIdle r 1 s))
    else slotBlock r k b (fun s => if 500 < n then slotEdge k s else s) s)

/-- A whole state record of a member has been heard. -/
def onRecord (k : Nat) (rec_ : List Byte) (s : State) : State :=
  let s1 := checkFormed (setDomino { s.domino with heard := tset s.domino.heard k rec_ } s)
  if bit (recWord rec_ 0) (8 + s.domino.member) ∧ s1.domino.state = 2 then relock s1 else s1

def execStateBlock (ring : Fin 4) (b : CtlBlock) (s : State) : Host.Outcome State Fault Refusal :=
  let r := ring.val
  .next (withDomino r 0xD2 b s fun s =>
    let k := pb b 2
    let i := pb b 3
    slotBlock r k b (fun s =>
      if 3 < i then s
      else
        let have_ := if i = 0 then [] else (tget s.domino.frags k).getD []
        let l := tset have_ i ((List.range 10).map (fun j => BitVec.ofNat 8 (pb b (4 + j))))
        let s1 := setDomino { s.domino with frags := tset s.domino.frags k l } s
        if (List.range 4).all (fun j => (tget l j).isSome) then
          onRecord k ((List.range 4).flatMap (fun j => (tget l j).getD [])) (setDomino { s1.domino with frags := tdel s1.domino.frags k } s1)
        else s1) s)

/-! ### Requests and answers (R369, R370) -/

/-- An ANSWER waits for this member's slot; the outcome is recorded. -/
def answer (dst req : Nat) (st : Status) (units : Nat) (recorded : Bool) (s : State) : State :=
  let d := s.domino
  let n := statusCode st
  let bs : List Byte := [0xF0, 0] ++ [d.member, dst, req % 256, req / 256, n % 256, n / 256, units, 0, 0, 0, 0, 0].map (fun k => BitVec.ofNat 8 k)
  setDomino { d with
    waiting := d.waiting ++ [bs]
    outcomes := if recorded then (dst, req, n) :: d.outcomes.filter (fun o => decide (o.1 ≠ dst ∨ o.2.1 ≠ req)) else d.outcomes } s

/-- The answer to a query carries a recorded status code as it is. -/
def answerCode (dst req n : Nat) (s : State) : State :=
  let d := s.domino
  setDomino { d with waiting := d.waiting ++ [[0xF0, 0]
    ++ [d.member, dst, req % 256, req / 256, n % 256, n / 256, 0, 0, 0, 0, 0, 0].map (fun k => BitVec.ofNat 8 k)] } s

/-- A member subscribes to an export on a ring (R369, R370). -/
def subscribe (from_ req xport ring part : Nat) (s : State) : State :=
  let d := s.domino
  match tget d.exports xport with
  | none => answer from_ req .noSuchHandle 0 true s
  | some e =>
    if e.ending ∨ e.peer ≠ part ∨ ring ∉ ringsOf d then answer from_ req .noSuchHandle 0 true s
    else if d.subs.any (fun u => decide (u.member = from_ ∧ u.xport = xport ∧ u.ring = ring)) then
      answer from_ req .ok 0 true (setDomino { d with subs := d.subs.map (fun u =>
        if u.member = from_ ∧ u.xport = xport ∧ u.ring = ring then { u with renewed := now s } else u) } s)
    else
      let shared := d.subs.any (fun u => decide (u.xport = xport ∧ u.ring = ring))
      let units := exportUnits s e.source
      if !shared ∧ ringUnits s ring < unitsUsed s ring + units then answer from_ req .quota 0 true s
      else answer from_ req .ok (if shared then 0 else units) true (setDomino { d with
        subs := d.subs ++ [{ member := from_, xport := xport, ring := ring, units := units, renewed := now s }] } s)

def onRequest (b : CtlBlock) (s : State) : State :=
  let d := s.domino
  let from_ := pb b 2
  let req := pbs b 4 6
  let xport := pb b 7
  let ring := pb b 8
  let mine := fun (u : Sub) => decide (u.member = from_ ∧ u.xport = xport ∧ u.ring = ring)
  if diverges s ∨ d.divergent.getLsbD 3 then answer from_ req .divergent 0 (decide (pb b 6 ≠ 4)) s
  else match pb b 6 with
    | 1 => subscribe from_ req xport ring (pb b 9) s
    | 2 =>
      if d.subs.any mine then answer from_ req .ok 0 true (setDomino { d with
        subs := d.subs.map (fun u => if mine u then { u with renewed := now s } else u) } s)
      else answer from_ req .noSuchHandle 0 true s
    | 3 => answer from_ req .ok 0 true (setDomino { d with subs := d.subs.filter (fun u => !mine u) } s)
    | 4 => answerCode from_ req
        (((d.outcomes.find? (fun o => decide (o.1 = from_ ∧ o.2.1 = req))).map (fun o => o.2.2)).getD (statusCode .noSuchHandle)) s
    | _ => s

def execRequestBlock (ring : Fin 4) (b : CtlBlock) (s : State) : Host.Outcome State Fault Refusal :=
  .next (withDomino ring.val 0xE1 b s fun s =>
    slotBlock ring.val (pb b 2) b (fun s =>
      if pb b 3 = s.domino.member then onRequest b s
      else setDomino (noteRequest ⟨pb b 2, pb b 3, pbs b 4 6, pb b 6, pb b 7, pb b 8⟩ s.domino) s) s)

/-- The status with a code of Table 2-9b. -/
def statusOf (n : Nat) : Option Status :=
  [Status.ok, .okReplayed, .okPartial, .opcode, .length, .tagConflict, .notOwner, .quota, .busy, .state, .range, .notErased,
    .inconsistent, .admission, .noSuchHandle, .unsupported, .divergent, .indeterminate, .hostDma].find? (fun x => decide (statusCode x = n))

/-- The answer a command waits for has come. -/
def onAnswer (b : CtlBlock) (s : State) : State :=
  match s.exec with
  | none => s
  | some e => match e.waits with
    | .importReq n o x r f =>
      if pb b 2 ≠ o ∨ pbs b 4 6 ≠ n then s
      else
        let st := (statusOf (pbs b 6 8)).getD .indeterminate
        if st ≠ .ok then complete e false 0 st [] s
        else
          -- it was admitted before the REQUEST went out, and no other command has run since
          let (h, s1) := makeSource e.page (.imported o x r) f f.ic s
          complete e true h .ok [word h, word (pb b 8)] (setDomino { s1.domino with
            renewedAt := tset s1.domino.renewedAt h (now s1) } s1)
    | .query n o =>
      if pb b 2 ≠ o ∨ pbs b 4 6 ≠ n then s else complete e false 0 .ok [word (pbs b 6 8)] s
    | _ => s

def execAnswerBlock (ring : Fin 4) (b : CtlBlock) (s : State) : Host.Outcome State Fault Refusal :=
  .next (withDomino ring.val 0xF0 b s fun s =>
    slotBlock ring.val (pb b 2) b (fun s0 =>
      let s := noteAnswer (pb b 2) (pb b 3) (pbs b 4 6) (pbs b 6 8) (pb b 8) s0
      if pb b 3 = s.domino.member then onAnswer b s else s) s)

/-- No ANSWER for 20 ms, or the ring has broken (R370, R45). -/
def execImportRequestTimeout (s : State) : Host.Outcome State Fault Refusal :=
  match s.exec with
  | none => .next s
  | some e =>
    let late := decide (e.takenAt + 20000 ≤ now s)
    match e.waits with
    | .importReq _ _ _ r _ => .next (if late || !ringUp s r then complete e false 0 .indeterminate [] (raise 242 0 s) else s)
    | .query _ _ =>
      .next (if late || (ringsOf s.domino).all (fun r => !ringUp s r) then complete e false 0 .indeterminate [] (raise 242 0 s) else s)
    | _ => .next s

def execSubscriptionRenew (source : Word) (s : State) : Host.Outcome State Fault Refusal :=
  match liveSource s source.toNat with
  | none => .next s
  | some x => match x.kind with
    | .imported o k r =>
      -- every second (R370)
      if now s < (tget s.domino.renewedAt source.toNat).getD 0 + 1000000 then .next s
      else
        let s1 := (request x.owner o 2 k r s).2
        .next (setDomino { s1.domino with renewedAt := tset s1.domino.renewedAt source.toNat (now s) } s1)
    | _ => .next s

/-- Three seconds without renewal: the origin drops the subscription. -/
def execRenewExpired (member : Fin 4) (xport : Fin 64) (ring : Fin 4) (s : State) : Host.Outcome State Fault Refusal :=
  let old := fun (u : Sub) => decide (u.member = member.val ∧ u.xport = xport.val ∧ u.ring = ring.val ∧ u.renewed + 3000000 ≤ now s)
  if !s.domino.subs.any old then .next s
  else .next (raise 242 1 (setDomino { s.domino with subs := s.domino.subs.filter (fun u => !old u) } s))

/-! ### Formation, loss of the leader, divergence (R359, R366–R368) -/

def execLeaderlessTimeout (s : State) : Host.Outcome State Fault Refusal :=
  let d := s.domino
  if (d.state = 2 ∨ d.state = 3) ∧ d.lastBeacon + 1000 ≤ now s then .next (enterDomino 4 (some 2) (raise 240 2 s)) else .next s

/-- Formation is incomplete after 1 s, or the loop of a ring is too long: cause LOOP, and the loops are measured again. -/
def execFormFail (loopNs : BitVec 32) (s : State) : Host.Outcome State Fault Refusal :=
  let d := s.domino
  let long := decide (d.member = 0) && (decide (96000 < loopNs.toNat) || d.loops.any (fun e => decide (96 < e.2)))
  if d.state = 1 ∧ (long = true ∨ d.since + 1000000 ≤ now s) then
    .next (raise 240 1 (setDomino { d with since := now s, loops := if long then [] else d.loops, loopFail := long } s))
  else .next s

/-- Capture has stopped: the frame in progress of every import of a dependent origin ends here (DESIGN CHOICE, log entry
152), so that the import resumes at an FS (R368). -/
def stopCapture (s : State) : State :=
  ((s.sources.filter (fun e => !e.2.deleted && sourceDivergent s e.1)).map Prod.fst).foldl (fun s h => endFrame h s) s

/-- Differences that have lasted eight group frames, or eight frames of agreement (R367, R368). -/
def execDivergencePersist (s : State) : Host.Outcome State Fault Refusal :=
  let d := s.domino
  let now_ := BitVec.ofNat 8 (bitmap ((List.range 8).filter (fun i => decide (8 ≤ d.differs.getD i 0))))
  let all_ := d.divergent ||| now_
  if all_ ≠ d.divergent then
    let s1 := stopCapture (raise 241 0 (setDomino { d with divergent := all_ } s))
    .next (if all_.getLsbD 2 && !d.divergent.getLsbD 2 then relock s1 else s1)
  else if d.divergent ≠ 0 ∧ 8 ≤ d.agrees then .next (raise 241 1 (setDomino { d with divergent := 0 } s))
  else .next s

end Sys2Proof.Machine
end

