-- ==== Sys2Proof/Machine/LinkStream.lean ====
section
/-! DEFINITION. Stream framing on link ports (R286–R288, R299, R362) and loss of signal or lock (R88, R294). -/

namespace Sys2Proof.Machine

open Sys2Proof

/-! ### Sub-streams and channels -/

/-- The stream of a sub-stream whose lanes hold the lane a block came on (R283, R285). -/
def streamOn (s : State) (p sub lane : Nat) : Option Handle :=
  (s.sources.find? (fun e => !e.2.deleted && (match e.2.kind with
    | .link q k w => decide (q = p ∧ k = sub ∧ sub ≤ lane ∧ lane < sub + w)
    | _ => false))).map Prod.fst

/-- The ring a receive port carries. -/
def ringOn (s : State) (p : Nat) : Option Nat := (ringsOf s.domino).find? (fun r => decide (ringPort s.domino r = p))

/-- Imports that capture a channel from a ring; none from an origin this member diverges from (R368). -/
def capturing (s : State) (r origin xport : Nat) : List Handle :=
  if dependsOn s origin then []
  else (s.sources.filter (fun e => !e.2.deleted && (match e.2.kind with
    | .imported o x q => decide (o = origin ∧ x = xport ∧ q = r)
    | _ => false))).map Prod.fst

/-- A block of a channel on a ring: an own one is stripped, any other is forwarded with its data blocks and
captured (R359, R362). -/
def channelBlock (r : Nat) (b : CtlBlock) (data : List (BitVec 128)) (act : Handle → State → State) (s : State) : State :=
  let origin := pb b 1 / 64
  if origin = s.domino.member then sendIdle r (1 + data.length) s
  else
    let p := ringPort s.domino r + 16
    let s1 := sendSeq p 0 (lanesOf (portGet s p)) (data.map (fun w => (1, w))) (forward r b s)
    (capturing s1 r origin (pb b 1 % 64)).foldl (fun s h => act h s) s1

/-- The payloads of the data blocks that follow a block: those with the header of a data block, on lanes of the same
stream (R284, R285). -/
def dataOf (s : State) (p : Nat) (b : CtlBlock) (data : List CtlBlock) : List (BitVec 128) :=
  (data.filter (fun d => decide (d.header = 1) && ((portGet s p).mode = 2
    || ((streamOn s p (pb b 1 % 4) b.lane.val).isSome
      && decide (streamOn s p (pb b 1 % 4) d.lane.val = streamOn s p (pb b 1 % 4) b.lane.val))))).map (fun d => d.payload)

/-- Blocks with an invalid header are discarded and counted (R284, Table 12-7), and so are those on wrong lanes or of an
unconfigured sub-stream. -/
def countData (p : Nat) (b : CtlBlock) (data : List CtlBlock) (s : State) : State :=
  let x := portGet s p
  if x.mode = 0 ∨ !isRx p then s
  else
    let bad := (data.filter (fun d => decide (d.header = 0 ∨ d.header = 3))).length
    let good := (data.filter (fun d => decide (d.header = 1))).length
    let lost := if x.mode = 2 then 0 else good - (dataOf s p b data).length
    if bad = 0 ∧ lost = 0 then s
    else portPut p { x with headerErrs := sat 0xFFFFFFFF x.headerErrs bad, dropped := sat 0xFFFFFFFF x.dropped lost } s

/-- Take a stream block of one type on an ACTIVE port with the data blocks after it: on its sub-stream, or in Domino
mode on its channel; a block that belongs to none is dropped (R285, R299). -/
def withStreamBlock (port : Fin 32) (type : Nat) (b : CtlBlock) (blocks : List CtlBlock)
    (act : List (BitVec 128) → Handle → State → State) (s0 : State) : State :=
  let p := port.val
  let s := countData p b blocks s0
  let data := dataOf s p b blocks
  withCtl p b s fun t =>
    let x := portGet s p
    if t ≠ type ∨ x.state ≠ 5 ∨ x.test then s
    else if x.mode = 2 then
      match ringOn s p with
      | some r => channelBlock r b data (act data) s
      | none => dropBlock p s
    else
      match streamOn s p (pb b 1 % 4) b.lane.val with
      | some h => act data h s
      | none => dropBlock p s

/-- Framing of a sub-stream. -/
def subMod (p sub : Nat) (f : SubRx → SubRx) (s : State) : State :=
  portMod p (fun x => { x with subs := tset x.subs sub (f ((tget x.subs sub).getD {})) }) s

/-- Which framing of a port a stream block belongs to: its sub-stream's, or in Domino mode its channel's, byte 1 whole
(R285, R362). -/
def framingOf (s : State) (p : Nat) (b : CtlBlock) : Nat := if (portGet s p).mode = 2 then pb b 1 else pb b 1 % 4

/-! ### Packed bits (R286) -/

/-- The payloads of data blocks as one bit sequence, bit k of it bit k of the number. -/
def dataBits : List (BitVec 128) → Nat
  | [] => 0
  | w :: t => w.toNat + 2 ^ 128 * dataBits t

/-- n samples of d bits. -/
def unpack (data : List (BitVec 128)) (d n : Nat) : List Nat :=
  (List.range n).map (fun i => dataBits data / 2 ^ (d * i) % 2 ^ d)

/-- Bits of a sample (Table 4-2). -/
def depthBits (depth : Nat) : Nat := 8 + 2 * depth

/-- The pixels of a line: those that LS names, as far as its data blocks hold them (R286, R299). -/
def linePixels (f : Format) (pixels : Nat) (data : List (BitVec 128)) : List (Nat × Nat × Nat) :=
  let per := if f.sampling = 2 then 2 else 3
  let n := min pixels (data.length * 128 / (depthBits f.depth * per))
  groupPixels f.sampling (unpack data (depthBits f.depth) (n * per))

/-- n data blocks hold more than an LS of so many pixels and blocks names (Table 12-7). -/
def beyondLs (f : Format) (pixels blocks n : Nat) : Bool :=
  decide (blocks < n ∨ cdiv (pixels * depthBits f.depth * (if f.sampling = 2 then 2 else 3)) 128 < n)

/-! ### FS, LS, FE -/

/-- A colour byte (Table 5-7's word 5 [7:0]). -/
def colourOf (n : Nat) : Colour := { matrix := n % 8, transfer := n / 8 % 4, primaries := n / 32 % 4, full := decide (n / 128 = 1) }

/-- Received colour metadata (R92): a change is raised in both modes, but not by a stopped stream (DEDUCED, log entry
102). -/
def takeColour (h : Handle) (c : Colour) (s : State) : State :=
  let x := srcGet s h
  let s1 := srcMod h (fun x => { x with rxColour := some c }) s
  if x.state ≠ .stopped ∧ x.rxColour.getD x.fmt.colour ≠ c then raiseIc h 6 s1 else s1

/-- FS disagrees with the declaration (R286). -/
def fsDiffers (f : Format) (b : CtlBlock) : Bool :=
  decide (pbs b 9 11 ≠ f.width ∨ pbs b 11 13 ≠ objHeight f ∨ pb b 8 % 4 ≠ f.sampling ∨ pb b 8 / 4 % 4 ≠ f.depth)

/-- A frame start ends the frame before it and applies a pending format (R89, R104). -/
def applyAtStart (h : Handle) (s : State) : State :=
  if (srcGet s h).state = .stopped then s else applyFormat h (endFrame h s)

/-- A frame starts on a stream: its colour, its fields (R92, R286). -/
def onFs (p sub : Nat) (b : CtlBlock) (h : Handle) (s : State) : State :=
  let flags := pb b 6
  let s1 := subMod p sub (fun y => { y with inFrame := true, lines := 0 }) (applyAtStart h s)
  let s2 := if tb flags 3 then takeColour h (colourOf (pb b 7)) s1 else s1
  let late := ((tget (portGet s2 p).subs sub).getD {}).formatSecond
  let s3 := if fsDiffers (srcGet s2 h).fmt b ∧ late ≠ some (second s) then
      raise (64 + p) 10 (subMod p sub (fun y => { y with formatSecond := some (second s) }) s2) else s2
  startFrame h (tb flags 0 && tb flags 1) (word (pbs b 2 6)) 0 s3

def execFsBlock (port : Fin 32) (b : CtlBlock) (s : State) : Host.Outcome State Fault Refusal :=
  .next (withStreamBlock port 0x55 b [] (fun _ => onFs port.val (framingOf s port.val b) b) s)

def execLsBlock (port : Fin 32) (b : CtlBlock) (data : List CtlBlock) (s : State) (full : Bool := false) : Host.Outcome State Fault Refusal :=
  .next (withStreamBlock port 0x66 b data (fun data h s =>
    addLine h (pbs b 2 4) (linePixels (frameFmt s h) (pbs b 4 6) (data.take (pbs b 6 8))) full
      (beyondLs (frameFmt s h) (pbs b 4 6) (pbs b 6 8) data.length) s) s)

def execFeBlock (port : Fin 32) (b : CtlBlock) (s : State) : Host.Outcome State Fault Refusal :=
  .next (withStreamBlock port 0x78 b [] (fun _ h s =>
    endFrame h (subMod port.val (framingOf s port.val b) (fun y => { y with inFrame := false }) s)) s)

/-! ### ANC and AUD -/

/-- A byte as a 10-bit word with even parity in bit 8 and its complement in bit 9 (SMPTE ST 291-1). -/
def withParity (n : Nat) : Nat :=
  let odd := ((List.range 8).filter (tb n)).length % 2
  n % 256 + 256 * odd + 512 * (1 - odd)

/-- The checksum word of a packet (SMPTE ST 291-1): nine bits of the sum, and the complement of bit 8. -/
def ancSum (did sdid : Nat) (words : List Nat) : Nat :=
  let n := (([did, sdid, words.length].map withParity ++ words).map (fun w => w % 512)).sum % 512
  n + 512 * (1 - n / 256)

/-- An ANC packet arrives (R287). -/
def onAnc (b : CtlBlock) (data : List (BitVec 128)) (h : Handle) (s : State) : State :=
  let n := pb b 8
  let ws := unpack (data.take (pbs b 9 11)) 10 (n + 1)
  let a : Anc := { did := pb b 2, sdid := pb b 3, line := pbs b 4 6, hoff := pbs b 6 8, words := ws.take n }
  if (srcGet s h).state = .stopped then s
  else ancArrive h { a with badSum := decide (ws.getD n 0 ≠ ancSum a.did a.sdid a.words) } s

def execAncBlock (port : Fin 32) (b : CtlBlock) (data : List CtlBlock) (s : State) : Host.Outcome State Fault Refusal :=
  .next (withStreamBlock port 0x87 b data (fun data h s =>
    if (portGet s port.val).mode = 2 then s else onAnc b data h s) s)

/-- The samples per channel of an AUD packet keep the rule of R288 for the input's rate. -/
def audFits (x : AudioIn) (fs n : Nat) : Bool :=
  decide (fs = x.fs) && (match fs with
    | 0 =>
      let c := x.sent441.1 + 1
      let t := x.sent441.2 + n
      decide ((n = 44 ∨ n = 45) ∧ 10 * t ≤ 441 * c + 10 ∧ 441 * c ≤ 10 * t + 10)
    | 1 => decide (n = 48)
    | 2 => decide (n = 96)
    | _ => false)

/-- An AUD packet (R288): channels beyond the input's are discarded; a channel the packet lacks is open. -/
def onAud (b : CtlBlock) (data : List (BitVec 128)) (h : Handle) (s : State) : State :=
  match inGet s h with
  | none => s
  | some x =>
    let ch := pb b 2
    let n := pb b 4
    let blocks := pbs b 5 7
    if x.kind ≠ 1 then s
    else if ch = 0 ∨ 16 < ch ∨ !audFits x (pb b 3) n ∨ blocks ≠ cdiv (ch * n * 24) 128 ∨ data.length ≠ blocks then
      inMod h (fun x => { x with lostPkts := sat 0xFFFFFFFF x.lostPkts 1 }) s
    else
      let l := (unpack data 24 (ch * n)).map (fun v => (BitVec.ofNat 24 v).toInt)
      let samples := (List.range n).flatMap (fun i => (List.range x.channels).map (fun c =>
        if c < ch then l.getD (i * ch + c) 0 else (BitVec.ofNat 24 (Config.freeNat (s.free + i * x.channels + c))).toInt))
      let s1 := if ch < x.channels then { s with free := s.free + n * x.channels } else s
      audioArrive h { samples := samples } (inMod h (fun x => { x with
        sent441 := if x.fs = 0 then (x.sent441.1 + 1, x.sent441.2 + n) else x.sent441 }) s1)

def execAudBlock (port : Fin 32) (b : CtlBlock) (data : List CtlBlock) (s : State) : Host.Outcome State Fault Refusal :=
  .next (withStreamBlock port 0x96 b data (fun data h s =>
    if (portGet s port.val).mode = 2 then s else onAud b data h s) s)

/-! ### Loss of signal or lock (R88, R294) -/

/-- Streams a receive port carries. -/
def carried (s : State) (p : Nat) : List Handle :=
  (s.sources.filter (fun e => !e.2.deleted && decide (portOf s e.2 = p))).map Prod.fst

/-- LOS (k = 0) or LOL (k = 1) on a port: every frame in progress ends short and every audio input of the port
loses its stream; the port enters ERROR at detection, and tells of it once SHORT has been raised. -/
def portLoss (p k : Nat) (s : State) : State :=
  let x := portGet s p
  if x.mode = 0 ∨ x.test ∨ !isRx p ∨ x.state = 0 ∨ 6 ≤ x.state then s
  else
    let s1 := placePort p 8 (countFailure p k (portPut p { x with
      los := sat 65535 x.los (b1 (decide (k = 0))), lol := sat 65535 x.lol (b1 (decide (k = 1)))
      lossPending := some k, loss := some k, subs := tall x.subs (fun _ y => { y with inFrame := false }) } s))
    let s2 := sendStatus p s1
    let hs := carried s2 p
    let s3 := hs.foldl (fun s h => if (openFrame s h).any (fun f => f.slot.isSome) then modFrame h (fun f => { f with byLoss := true }) s else s) s2
    let s4 := hs.foldl (fun s h => linkGap h (endFrame h s)) s3
    lossReport p s4

def execLinkLos (port : Fin 32) (s : State) : Host.Outcome State Fault Refusal := .next (portLoss port.val 0 s)

def execLinkLol (port : Fin 32) (s : State) : Host.Outcome State Fault Refusal := .next (portLoss port.val 1 s)

end Sys2Proof.Machine
end

