-- ==== Sys2Proof/Machine/Commit.lean ====
section
/-! DEFINITION. COMMIT (R46–R52, R60), its hand-off (R49–R51, R182), DISCARD_STAGED and GET_EPOCH (R61). -/

namespace Sys2Proof.Machine

open Sys2Proof

/-! ### What a commit changes -/

/-- The head of a staged item: its own, or that of a route on a layer. -/
def headOf (i : Staged) : Option Nat :=
  match i with
  | .route d _ => if dKind d = 1 then some (dHead d) else none
  | .layer h _ _ => some h
  | .comp h _ => some h
  | .matrix h _ _ => some h
  | .coef h _ _ => some h
  | .mode h _ => some h
  | .sink h _ => some h
  | .crc h _ => some h
  | _ => none

/-- The heads that items change, ascending. -/
def headsOf (items : List Staged) : List Nat := (List.range 64).filter (fun h => items.any (fun i => decide (headOf i = some h)))

/-- The head that a head's set is latched with: the even half of a pair (R235). -/
def baseOf (s : State) (h : Nat) : Nat :=
  if h % 2 = 1 ∧ (isPair (headSet s (h - 1)) ∨ (headGet s (h - 1)).paired) then h - 1 else h

/-- What an item's change applies to (R49, R52): a processed source's parameters and a ladder have no apply
instant of their own. A head counts once for all its layers, and a stream and an audio output count (DESIGN CHOICE, log
entry 99). -/
def keyOf (s : State) (i : Staged) : Option DestKey :=
  match i with
  | .route d _ => some (if dKind d = 1 then .head (baseOf s (dHead d)) else .dest d)
  | .stream h _ => some (.source h)
  | .audio id _ _ => some (.audio id)
  | .proc _ _ => none
  | .ladder _ _ => none
  | i => (headOf i).map (fun h => .head (baseOf s h))

/-- The handle of an item, 0 where it has none (R48, word 6). -/
def itemHandle (i : Staged) : Nat :=
  match i with
  | .route _ (.add r _) => r
  | .route _ (.modify r _ _) => r
  | .route _ (.delete r _) => r
  | .stream h _ => h
  | .proc h _ => h
  | .ladder h _ => h
  | _ => 0

/-! ### Placing changes at their destinations (R49, R50) -/

/-- A route's change waits at its destination (R180); the mode that MODIFY_ROUTE brings starts on rung 0, and the old one
keeps its rung until that applies (R185). -/
def placeRoute (page : Nat) (e : Word) (d : Nat) (op : RouteOp) (s : State) : State :=
  let s1 := destPut d { destGet s d with pending := (destGet s d).pending ++ [(some op, page, e)] } s
  match op with
  | .add r _ => modRoute r (fun x => { x with state := 1 }) s1
  | .modify r _ _ => modRoute r (fun x => { x with rungNext := some 0 }) s1
  | .delete _ _ => s1

/-- A stream's new format waits for its next frame start (R104, R128). -/
def placeStream (page : Nat) (e : Word) (h : Handle) (f : Format) (s : State) : State :=
  let x := srcGet s h
  let old := nextFmt s h
  let also := match x.pendingFmt with
    | some (_, p, q) => if p = page then x.pendingAlso else x.pendingAlso ++ [(p, q)]
    | none => []
  let s1 := srcMod h (fun x => { x with pendingFmt := some (f, page, e), pendingAlso := also }) s
  if footprint f = footprint old ∧ f.ringDepth = old.ringDepth then s1 else renewRing h f s1

/-- Put one staged item where it waits to be applied. -/
def placeItem (page : Nat) (e : Word) (i : Staged) (s : State) : State :=
  match i with
  | .route d op => placeRoute page e d op s
  | .stream h f => placeStream page e h f s
  | .proc h p => handProc h p page e s
  | .ladder t l =>
    let n := min (rungOf s t) (l.rungs.length + 1)
    let s1 := if hType t = 3 then modRoute t (fun r => { r with ladder := l }) s
      else { s with procs := tmod s.procs t (fun x => { x with ladder := l }) }
    setRung t n s1
  | .audio id first ks =>
    (match outGet s id with
    | some o => outPut id { o with pending := o.pending ++ [(first, ks, page, e)] } s
    | none => s)
  | i => match headOf i with
    | some h => headPut h { headGet s h with pend := some (mergeSet (headSet s h) i) } s
    | none => s

/-- Processed sources follow the formats that their inputs will have (R161). -/
def followInputs (page : Nat) (e : Word) (s : State) : State :=
  (tkeys s.procs).foldl (fun s h => match tget s.procs h with
    | some x => if procFormat (x.pending.getD x.params) (nextFmt s x.input) = nextFmt s h then s
      else handProc h (x.pending.getD x.params) page e s
    | none => s) s

/-- The sets of the heads that a commit changes are named for their apply lines (R221); a pair is one. -/
def nameSets (page : Nat) (e : Word) (hs : List Nat) (s : State) : State :=
  (hs.map (baseOf s)).dedup.foldl (fun s b =>
    let s1 := (halves s b).foldl (fun s g => headPut g { headGet s g with pend := some (effSet s g), pendingEpoch := e } s) s
    headPut b { headGet s1 b with pendEpochs := (headGet s1 b).pendEpochs ++ [(page, e)] } s1) s

/-- Every change of a commit placed; its rings are not made yet. -/
def placeAll (page : Nat) (e : Word) (items : List Staged) (s : State) : State :=
  let s1 := items.foldl (fun s i => placeItem page e i s) s
  nameSets page e (headsOf items) ((List.range 4).foldl (fun s _ => followInputs page e s) s1)

/-- Pre-scaling planned for the heads a commit changes (R210), then every ring of the configuration the commit would
make: nothing leaves a ring before the hand-off (R117, R126, R128, R150). -/
def planAll (hs : List Nat) (s : State) : State :=
  markRings (followRings ((hs.map (baseOf s)).dedup.foldl (fun s h => planHead h s) s))

/-- The heads that the checks of R243 look at: those whose mode, layers, composition, matrices, coefficients, sink or routes
a commit changes, both halves of a pair among them, in ascending order (R236). CRC rectangles are not in its list. -/
def headsChecked (s : State) (items : List Staged) : List Nat :=
  let hs := headsOf (items.filter (fun i => match i with
    | .crc _ _ => false
    | _ => true))
  (List.range 64).filter (fun g => hs.any (fun h => decide (h = g ∨ g ∈ halves s (baseOf s h))))

/-! ### The checks of COMMIT (R60) -/

/-- An object of the next configuration is interlaced, or has the wrong size or too little time for its route
(Table 7-2, R175). -/
def routeFault (s : State) (d : Nat) (src : Handle) (mode : Nat) : Option Status :=
  let x := srcGet s src
  let f := nextFmt s src
  let size : Option (Nat × Nat) := match dKind d with
    | 2 => (tget s.pool.encodes (destHandle d)).map (fun c => (c.w, c.h))
    | 4 => (tget s.eth.flows (dIndex d)).map (fun k => (k.fmt.width, k.fmt.height))
    | _ => none
  match fieldsFault s d x mode 0 with
  | some e => some e
  | none =>
    if isFrames x ∧ f.interlaced ∧ (mode ≠ 0 ∨ dKind d ≠ 1 ∨ 4 ≤ dLayer d) then some .inconsistent
    else if size.isSome ∧ size ≠ some (f.width, f.height) then some .inconsistent
    else if mode ≠ 0 ∧ !fgt (destDA d (((setsOf s d).2).getD (setsOf s d).1)) ⟨50, 1⟩ then some .inconsistent
    else if isSink s d then some .state else none

/-- A processed source whose next input breaks a condition of its kernel (R161). -/
def procBroken (s : State) (h : Handle) : Bool :=
  match tget s.procs h with
  | some x =>
    let p := x.pending.getD x.params
    !procRange p (nextFmt s x.input) || !scanFits p.kernel (nextFmt s x.input)
  | none => false

/-- A source lies in the chain above another (R151). -/
def above (s : State) : Nat → Handle → Handle → Bool
  | 0, _, _ => false
  | n + 1, h, k => match tget s.procs k with
    | some x => decide (x.input = h) || above s n h x.input
    | none => false

/-- The issuer's authority over a source that an item changes, and its existence. -/
def ownFault (page : Nat) (s : State) (h : Handle) : Option Status :=
  match handleFault page s h [1] with
  | some e => some e
  | none => match liveSource s h with
    | none => some .noSuchHandle
    | some x => if page ≠ 0 ∧ x.owner ≠ page then some .notOwner else none

/-- A route that a destination keeps would no longer satisfy Table 7-2, R150 or R175 in the configuration that
the commit would make. -/
def routesBroken (placed : State) (d : Nat) : Bool :=
  (nextViews placed d).any (fun v => decide (routeFault placed d v.2.source v.2.mode = some .inconsistent))

/-- The destinations that show a source, or one processed from it. -/
def showing (placed : State) (h : Handle) : List Nat :=
  (tkeys placed.dests).filter (fun d =>
    (nextViews placed d).any (fun v => decide (v.2.source = h) || above placed 4 h v.2.source))

/-- The checks of one staged item (R60, step 5): its authority, Domino divergence, its own chapter's checks
against the configuration that the commit would make. -/
def itemFault (page : Nat) (s placed : State) (i : Staged) : Option Status :=
  match i with
  | .route d op =>
    (match destFault page s d with
    | some e => some e
    | none => match op with
      | .add r _ =>
        (match tget s.routes r with
        | none => some .noSuchHandle
        | some x => match handleFault page s x.source [1] with
          | some e => some e
          | none =>
            if (liveSource s x.source).isNone then some .noSuchHandle
            else if permMissing s d x.source then some .notOwner
            else if sourceDivergent s x.source then some .divergent
            else routeFault placed d x.source x.mode)
      | .modify r m _ =>
        (match tget s.routes r with
        | none => some .noSuchHandle
        | some x => match handleFault page s x.source [1] with
          | some e => some e
          | none =>
            if permMissing s d x.source then some .notOwner
            else if sourceDivergent s x.source then some .divergent
            else routeFault placed d x.source m)
      | .delete _ _ => none)
  | .stream h f =>
    (match ownFault page s h with
    | some e => some e
    | none =>
      let u := if f.ic = 15 then (srcGet s h).ic else f.ic
      -- a stream that is to leave the unit is on it until its change applies (R104)
      let n := (placed.sources.filter (fun e => !e.2.deleted && onIc e.2
        && (decide (e.2.ic = u) || decide ((match e.2.pendingFmt with
          | some (g, _, _) => if g.ic = 15 then e.2.ic else g.ic
          | none => e.2.ic) = u)))).length
      if (tkeys placed.procs).any (fun k => above placed 4 h k && procBroken placed k) then some .inconsistent
      else if (showing placed h).any (routesBroken placed) then some .inconsistent
      else if (srcGet s h).kind ≠ .surface ∧ 32 < n then some .quota else none)
  | .proc h p =>
    (match ownFault page s h with
    | some e => some e
    | none => match tget placed.procs h with
      | none => some .noSuchHandle
      | some x =>
        if !slotGood s (hPart h) p.kernel p.slot then some .state
        else if !procRange p (nextFmt placed x.input) ∨ !scanFits p.kernel (nextFmt placed x.input)
          ∨ (tkeys placed.procs).any (fun k => above placed 4 h k && procBroken placed k) = true then some .inconsistent
        else if (showing placed h).any (routesBroken placed) then some .inconsistent
        else none)
  | .ladder t _ =>
    if hType t = 3 then
      (if page ≠ 0 ∧ hPart t ≠ page then some .notOwner else if (tget s.routes t).isNone then some .noSuchHandle else none)
    else ownFault page s t
  | .audio id _ ks =>
    if page ≠ 0 ∧ outputOwner s id ≠ page then some .notOwner
    else (match outGet s id with
    | none => some .noSuchHandle
    | some o => ks.findSome? (selectionFault page o.owner s))
  | i => match headOf i with
    | some h =>
      if page ≠ 0 ∧ holder s 0 h ≠ page then some .notOwner
      else if (tkeys placed.dests).any (fun d => decide (dKind d = 1 ∧ baseOf placed (dHead d) = baseOf placed h)
        && routesBroken placed d) then some .inconsistent
      else none
    | none => none

/-- The need on one key of one code; the two needs of class 6 differ in their limits (R48). -/
def ownNeed (s : State) (k : Need) : Frac :=
  (((needsOf s).find? (fun n => decide (n.code = k.code ∧ n.key = k.key ∧ (k.code = 7 → n.limit = k.limit)))).map
    (fun n => n.own)).getD ⟨0, 1⟩

/-- The handle of the first staged item that raised the need on a key (R48). -/
def blame (page : Nat) (e : Word) (items : List Staged) (n : Need) (s : State) : Nat :=
  let at_ := fun k => ownNeed (planAll (headsOf (items.take k)) (placeAll page e (items.take k) s)) n
  match (List.range items.length).find? (fun k => fgt (at_ (k + 1)) (at_ k)) with
  | some k => ((items[k]?).map itemHandle).getD 0
  | none => 0

/-! ### The window around apply instants (R51) -/

/-- The apply instant of a destination in µs after its domain's tick: the apply line of a head that runs, the
tick that ends the frame for the others. -/
def applyOffset (s : State) (d : Nat) : Option Frac :=
  if dKind d = 1 then
    let x := headGet s (dHead d)
    if x.state = 0 then none else some (linesUs x.act x.act.mode.applyLine)
  else some (periodUs (domainGet s (destTd s d)).rate)

/-- Now lies between 50 µs before the earliest apply instant of a span and the end of that span. -/
def inSpan (s : State) (group : List Nat) : Bool :=
  match group, group.filterMap (applyOffset s) with
  | d :: _, o :: os =>
    let x := domainGet s (destTd s d)
    let t := periodUs x.rate
    let lo := os.foldl (fun a b => if fgt a b then b else a) o
    let hi := os.foldl (fun a b => if fgt b a then b else a) o
    let q : Frac := ⟨(now s - x.lastTick) * t.den % max 1 t.num + t.num, t.den⟩
    (List.range 3).any (fun k =>
      let shift : Frac := ⟨k * t.num, t.den⟩
      !fgt (fadd lo shift) (fadd q ⟨50, 1⟩) && !fgt q (fadd hi shift))
  | _, _ => false

/-! ### The hand-off (R49–R52, R163, R185, R212) -/

/-- PRESCALE_CHANGE for each pre-scale that the plan adds (R212). -/
def notePrescale (h : Nat) (old : Tbl Handle) (s : State) : State :=
  (headGet s h).prescale.foldl (fun s e =>
    if old.any (fun k => decide (k = e)) then s else prescaleNote h e.1 e.2 (word e.2) s) s

/-- A plan takes the place of one that has not been latched: pre-scales of neither the latched set nor the new
one go. -/
def replacePlan (h : Nat) (old : Head) (s : State) : State :=
  let keep := old.prescaleOk ++ (headGet s h).prescale
  notePrescale h (old.prescale ++ old.prescaleOk)
    (dropPrescale h (old.prescale.filter (fun e => !keep.any (fun k => decide (k = e)))) [] s)

/-- Changes that wait at a destination that is no head apply, and its epochs with them (R49, R50, R52). -/
def applyKeyed (run : State → State) (d : Nat) (s : State) : State :=
  let ps := (destGet s d).pending
  let s1 := run s
  match ps.getLast? with
  | none => s1
  | some l =>
    ps.foldl (fun s p => applied p.2.1 (.dest d) p.2.2 s) (destPut d { destGet s1 d with applied := l.2.2 } s1)

/-- What applies at the hand-off itself: recorded streams, heads that are or go OFF, streams that do not run,
outputs without a domain (R49, R104, R183, R243). -/
def applyNow (k : DestKey) (s : State) : State :=
  match k with
  | .dest d => if dKind d = 3 then applyKeyed (applyRecorded d) d s else s
  | .source h =>
    if (srcGet s h).kind ≠ .surface ∧ (srcGet s h).state ≠ .running then applyFormat h s else s
  | .audio id => if (outTd s id).isNone then applyOutput id s else s
  | .head h =>
    if !(headSet s h).mode.enable then
      if (halves s h).all (fun g => (headGet s g).pend.isNone) then latch h s else (sampleSet h s).1
    else if (headGet s h).state = 0 then
      -- the references taken at the latch serve the first frame (R223)
      let (s1, latched) := sampleSet h s
      if latched then planFrame h true s1 else s1
    else s

/-- Hand an admitted commit off (R49). -/
def handOff (page : Nat) (e : Word) (s : State) : List DestKey × State :=
  let items := (box s page).staged
  let hs := (headsOf items)
  let s1 := planAll hs (placeAll page e items s)
  let keys := (items.filterMap (keyOf s1)).dedup
  let s2 := modBox page (fun m => { m with
    epochStaged := e, staged := []
    outstanding := if keys.isEmpty then m.outstanding else m.outstanding ++ [{ epoch := e, total := keys.length, waiting := keys }] }) s1
  let s3 := if keys.isEmpty then postNtf page 0x0101 [e, 0] s2 else s2
  let s4 := settleRings ((hs.map (baseOf s1)).dedup.foldl (fun s' h => replacePlan h (headGet s h) s') s3)
  let owners := (items.filterMap (fun i => match i with
    | .route _ (.modify r _ _) => some (hPart r)
    | .ladder t _ => some (hPart t)
    | _ => none)).dedup
  (keys, keys.foldl (fun s k => applyNow k s) (owners.foldl (fun s p => rebalance p s) s4))

/-- The result of a commit that has been handed off: items and destinations. -/
def handOffWords (s : State) (page : Nat) (keys : List DestKey) : List Word :=
  [word (box s page).staged.length, word keys.length]

def cmdCommit (c : Ctx) (s : State) : CmdOut :=
  let items := (box s c.page).staged
  let n := bf c 0 7 0
  let group := (List.range n).map (fun i => bn c (1 + i))
  if 64 < n ∨ (n ≠ 0 ∧ c.len < 4 + 4 * n) ∨ group.any (fun d => !destGood d) then refuse .range
  else if c.epoch = 0 ∨ !later c.epoch (box s c.page).epochStaged then refuse .state
  else if group.any (fun d => decide (dKind d = 3)) ∨ 1 < ((group.map (destTd s)).dedup).length then refuse .inconsistent
  else
    let placed := placeAll c.page c.epoch items s
    match items.findSome? (itemFault c.page s placed) with
    | some e => refuse e
    | none => match (headsChecked placed items).findSome? (headFault c.page placed) with
      | some e => refuse e
      | none =>
        let planned := planAll (headsOf items) placed
        if !countsGood planned then refuse .quota
        else
          match shortfall s planned with
          | some k => .fail .admission (shortWords (spareOf s planned k) (word (blame c.page c.epoch items k s)))
          | none =>
            if inSpan s group then .wait (.handOff c.epoch group) s
            else
              let (keys, s1) := handOff c.page c.epoch s
              .done .ok (handOffWords s c.page keys) s1

def cmdDiscardStaged (c : Ctx) (s : State) : CmdOut :=
  let m := box s c.page
  let s1 := m.staged.foldl (fun s i => match i with
    | .route _ op => dropOp op s
    | _ => s) (setBox c.page { m with staged := [] } s)
  .done .ok [word m.staged.length] s1

def cmdGetEpoch (c : Ctx) (s : State) : CmdOut :=
  let m := box s c.page
  .done .ok [m.epochStaged, appliedMin m, word m.staged.length, word (outstandingKeys m).length] s

def specCommit : OpSpec :=
  { op := 0x0110, maxLen := 260, rsv := within [field 7 0], log := always, bound := 20000, run := cmdCommit }

def specDiscardStaged : OpSpec := { op := 0x0111, run := cmdDiscardStaged }

def specGetEpoch : OpSpec := { op := 0x0112, run := cmdGetEpoch }

def execCommit (page : Fin 16) (d : Desc) (s : State) : Host.Outcome State Fault Refusal :=
  if d.Wf then .next (issue specCommit page d s) else .fault .illFormed

def execDiscardStaged (page : Fin 16) (d : Desc) (s : State) : Host.Outcome State Fault Refusal :=
  if d.Wf then .next (issue specDiscardStaged page d s) else .fault .illFormed

def execGetEpoch (page : Fin 16) (d : Desc) (s : State) : Host.Outcome State Fault Refusal :=
  if d.Wf then .next (issue specGetEpoch page d s) else .fault .illFormed

/-- The wait of R51 is over: the admitted commit is handed off to every destination at once. -/
def execCommitHandOff (s : State) : Host.Outcome State Fault Refusal :=
  match s.exec with
  | none => .next s
  | some e => match e.waits with
    | .handOff epoch group =>
      if inSpan s group then .next s
      else
        let (keys, s1) := handOff e.page epoch s
        .next (complete e true 0 .ok (handOffWords s e.page keys) s1)
    | _ => .next s

end Sys2Proof.Machine
end

