-- ==== Sys2Proof/Machine/Registers.lean ====
section
/-! DEFINITION. The register window, the ring pointers, the event and fault registers and the MSI-X
table: what a host write, a read with a side effect, or a refused access does (R22–R35, R374–R382). -/

namespace Sys2Proof.Machine

open Sys2Proof

/-! ### Ring pointers (R29, R30, R34) -/

/-- A write to CMD_TAIL; ignored while the partition is not active or the page not READY (R29, R30). -/
def writeCmdTail (p : Nat) (v : Word) (s : State) : State :=
  let m := box s p
  if m.active && m.ready then setBox p { m with cmdTail := v.extractLsb' 0 8 } s else s

/-- An ignored pointer write sets PTR_ERR and raises RING_FAULT (R34). -/
def ringFault (p : Nat) (s : State) : State :=
  raise 250 1 (modBox p (fun m => { m with ptrErr := true }) s)

/-- A write to CPL_HEAD takes effect only in the span from CPL_HEAD to CPL_TAIL (R34). -/
def writeCplHead (p : Nat) (v : Word) (s : State) : State :=
  let m := box s p
  let n : BitVec 9 := v.extractLsb' 0 9
  if !(m.active && m.ready) then s
  else if (n - m.cplHead).toNat ≤ (m.cplTail - m.cplHead).toNat then setBox p { m with cplHead := n } s
  else ringFault p s

/-- A write to NTF_HEAD, checked against NTF_TAIL (R34). -/
def writeNtfHead (p : Nat) (v : Word) (s : State) : State :=
  let m := box s p
  let n : BitVec 9 := v.extractLsb' 0 9
  if !(m.active && m.ready) then s
  else if (n - m.ntfHead).toNat ≤ (m.ntfTail - m.ntfHead).toNat then setBox p { m with ntfHead := n } s
  else ringFault p s

def execCmdTailWrite (page : Fin 16) (value : Word) (s : State) : Host.Outcome State Fault Refusal :=
  .next (awake (writeCmdTail page.val value) s)

def execCplHeadWrite (page : Fin 16) (value : Word) (s : State) : Host.Outcome State Fault Refusal :=
  .next (awake (writeCplHead page.val value) s)

def execNtfHeadWrite (page : Fin 16) (value : Word) (s : State) : Host.Outcome State Fault Refusal :=
  .next (awake (writeNtfHead page.val value) s)

/-- Where a notification is lost in the cycle of the clear, the bit stays set (R6, R33). -/
def execNtfOvfClear (page : Fin 16) (again : Bool) (s : State) : Host.Outcome State Fault Refusal :=
  let m := { box s page.val with ntfOvf := false }
  .next (awake (setBox page.val (if again then lostNtf m else m)) s)

/-- Where a pointer write is ignored in the cycle of the clear, the bit stays set (R6, R34). -/
def execPtrErrClear (page : Fin 16) (again : Bool) (s : State) : Host.Outcome State Fault Refusal :=
  let s1 := modBox page.val (fun m => { m with ptrErr := false }) s
  .next (awake (fun _ => if again then ringFault page.val s1 else s1) s)

/-- RC (R6): the read returns the old value; a notification lost in the cycle of the read is counted anew. -/
def execNtfLostRead (page : Fin 16) (again : Bool) (s : State) : Host.Outcome State Fault Refusal :=
  let m := { box s page.val with ntfLost := 0 }
  .next (awake (fun s => { setBox page.val (if again then lostNtf m else m) s with bus := [word (box s page.val).ntfLost] }) s)

/-! ### Powered time and access errors (R22–R26) -/

/-- PTIME_LO, and with a 64-bit read the held PTIME_HI behind it (R23). -/
def execPtimeLoRead (wide : Bool) (s : State) : Host.Outcome State Fault Refusal :=
  let hi : Word := s.sys.ptime.extractLsb' 32 32
  .next (awake (fun s => { s with
    sys := { s.sys with ptimeHold := hi }
    bus := if wide then [s.sys.ptime.extractLsb' 0 32, hi] else [s.sys.ptime.extractLsb' 0 32] }) s)

/-- The access is refused: narrower than 32 bits, or not aligned to its own size (R25). -/
def accessBad (a : Access) : Bool :=
  decide (¬ (a.bytes.val = 4 ∨ a.bytes.val = 8) ∨ a.offset.toNat % a.bytes.val ≠ 0)

/-- All ones in every byte requested (R25). -/
def allOnes (n : Nat) : List Word :=
  if n ≤ 4 then [word (2 ^ (8 * n) - 1)] else [0xFFFFFFFF, word (2 ^ (8 * (n - 4)) - 1)]

/-- Capture an access in the error registers (R26). -/
def captureAccess (a : Access) (s : State) : State :=
  { s with sys := { s.sys with
      errOffset := a.offset, errFunc := BitVec.ofNat 4 a.fn.val, errWrite := a.write
      errSize := if a.offset.toNat % a.bytes.val ≠ 0 then 7 else BitVec.ofNat 3 (a.bytes.val - 1)
      errValid := true } }

/-- The device captures a refused access, or sets ERR_MORE, and raises ACCESS_ERROR (R26). -/
def refuseAccess (a : Access) (s : State) : State :=
  raise 237 0 (if s.sys.errValid then { s with sys := { s.sys with errMore := true } } else captureAccess a s)

/-- A capture that meets the clear wins (R26). -/
def execErrValidClear (rival : Option Access) (s : State) : Host.Outcome State Fault Refusal :=
  let clear := fun s : State => { s with sys := { s.sys with errValid := false } }
  match rival with
  | none => .next (awake clear s)
  | some a =>
    if a.bytes.val = 0 then .fault .illFormed
    else .next (awake (fun s => if accessBad a then raise 237 0 (captureAccess a s) else clear s) s)

/-- An access that is refused in the cycle of the clear sets the bit again while ERR_VALID is 1 (R6, R26). -/
def execErrMoreClear (rival : Option Access) (s : State) : Host.Outcome State Fault Refusal :=
  let s1 := { s with sys := { s.sys with errMore := false } }
  match rival with
  | none => .next (awake (fun _ => s1) s)
  | some a =>
    if a.bytes.val = 0 then .fault .illFormed
    else .next (awake (fun _ => if accessBad a then refuseAccess a s1 else s1) s)

/-! ### Event and fault registers (R375–R382) -/

/-- Raise every sub-cause of a bitmap that the source defines, in ascending order. -/
def raiseAll (n : Nat) (m : BitVec 16) (s : State) : State :=
  (members (m &&& subsOf n).toNat 16).foldl (fun s k => raise n k s) s

/-- Clear latched CAUSE bits (R375); level sources ignore writes. -/
def clearCause (n : Nat) (m : BitVec 16) (s : State) : State :=
  if isLevel n then s else settle n (evPut n { evGet s n with cause := (evGet s n).cause &&& ~~~ m } s)

/-- The sub-causes of a bitmap that set their CAUSE bit when raised: those the source defines and whose severity is not
IGNORE (R375, R379). -/
def setters (s : State) (n : Nat) (m : BitVec 16) : BitVec 16 :=
  BitVec.ofNat 16 (bitmap ((members (m &&& subsOf n).toNat 16).filter (fun k => decide (sevOf s n k ≠ 0))))

/-- A bit that a raise sets in the cycle of its clear stays set, and the source never stops pending (R6, R377); a raise
whose severity is IGNORE sets nothing, so it holds no bit back (R379). -/
def execCauseClear (source : Fin 256) (clear raised : BitVec 16) (s : State) :
    Host.Outcome State Fault Refusal :=
  if isLevel source.val then .next s
  else .next (awake (fun s => clearCause source.val (clear &&& ~~~ setters s source.val raised)
    (raiseAll source.val raised s)) s)

/-- Set SEVERITY and SEV_CAUSES (R379, Table 17-3). -/
def writeSeverity (n sev : Nat) (m : BitVec 16) (s : State) : State :=
  if sevFixed n then s else evPut n { evGet s n with severity := sev, sevCauses := m } s

def execSeverityWrite (source : Fin 256) (value : Word) (s : State) : Host.Outcome State Fault Refusal :=
  .next (awake (writeSeverity source.val (bits value 1 0) (value.extractLsb' 16 16)) s)

/-- Re-arm the latch (R381). -/
def clearFirst (s : State) : State := setHub { s.events.hub with firstValid := false } s

/-- Clear OVERFLOW and zero OVERFLOW_COUNT (R381). -/
def clearOverflow (s : State) : State :=
  setHub { s.events.hub with overflow := false, overflowCount := 0 } s

/-- A raise that meets the clear; it may be CRITICAL. -/
def raiseRival (r : Option (Fin 256 × Fin 16)) (s : State) : State :=
  match r with
  | none => s
  | some (n, k) => if (subsOf n.val).getLsbD k.val && !isLevel n.val then raise n.val k.val s else s

/-- A rival of a clear is CRITICAL. -/
def rivalCritical (r : Option (Fin 256 × Fin 16)) (s : State) : Bool :=
  match r with
  | none => false
  | some (n, k) => (subsOf n.val).getLsbD k.val && !isLevel n.val && decide (sevOf s n.val k.val = 3)

/-- Where a CRITICAL sub-cause comes in the cycle of the clear, FIRST_VALID stays set (R6); the latch that held a source
before keeps it, and the sub-cause counts as overflow (R380). -/
def execFirstValidClear (rival : Option (Fin 256 × Fin 16)) (s : State) :
    Host.Outcome State Fault Refusal :=
  let s1 := raiseRival rival s
  .next (awake (fun s => if rivalCritical rival s then s1 else clearFirst s1) s)

/-- An overflow in the cycle of the clear stays counted (R6). -/
def execOverflowClear (rival : Option (Fin 256 × Fin 16)) (s : State) :
    Host.Outcome State Fault Refusal :=
  .next (awake (fun s => raiseRival rival (clearOverflow s)) s)

/-- Leave the fault state (R382). -/
def leaveFault (s : State) : State :=
  let h := s.events.hub
  raise 247 1 (setHub { h with fault := false, recoveries := sat 0xFFFFFFFF h.recoveries 1 } s)

/-- The quiet period has passed since the last CRITICAL (R382). -/
def quietOver (s : State) : Bool :=
  s.events.hub.fault && decide (s.events.hub.lastCritical + s.events.hub.quietMs * 1000 ≤ now s)

/-- Set QUIET_MS; a value outside 1–600,000 is ignored, and a period already over ends the fault state
at once (R382, Table 17-3). -/
def writeQuiet (n : Nat) (s : State) : State :=
  if n = 0 ∨ 600000 < n then s
  else
    let s1 := setHub { s.events.hub with quietMs := n } s
    if quietOver s1 then leaveFault s1 else s1

def execQuietMsWrite (value : Word) (s : State) : Host.Outcome State Fault Refusal :=
  .next (awake (writeQuiet (bits value 19 0)) s)

/-- ENABLE, VECTOR and INT of a source (Table 17-2). -/
def writeDelivery (n : Nat) (enable : BitVec 16) (vector : Nat) (int : Bool) (s : State) : State :=
  settle n (evPut n { evGet s n with enable := enable, vector := BitVec.ofNat 6 vector, int := int } s)

/-! ### Every other register (R6, R22, R27, R28) -/

/-- A write within mailbox page p (Table 2-3, Table 2-4). -/
def writePage (p o : Nat) (v : Word) (s : State) : State :=
  if 0x4000 ≤ o ∧ o < 0x8000 then
    modBox p (fun m => { m with cmdRing := tset m.cmdRing ((o - 0x4000) / 4) v }) s
  else match o with
    | 0x04 => modBox p (fun m => { m with
        ntfOvf := m.ntfOvf && !bit v 4, ptrErr := m.ptrErr && !bit v 5 }) s
    | 0x08 => modBox p (fun m => { m with cplIE := bit v 0, ntfIE := bit v 1, stallIE := bit v 2 }) s
    | 0x14 => writeCmdTail p v s
    | 0x18 => writeCplHead p v s
    | 0x20 => writeNtfHead p v s
    | _ => s

/-- A write in the aggregator (Table 17-2). -/
def writeAggregator (o : Nat) (v : Word) (s : State) : State :=
  if 0x400 ≤ o ∧ o < 0x800 then clearCause ((o - 0x400) / 4) (v.extractLsb' 0 16) s
  else if 0x800 ≤ o ∧ o < 0xC00 then
    writeDelivery ((o - 0x800) / 4) (v.extractLsb' 0 16) (bits v 21 16) (bit v 22) s
  else s

/-- A write in the fault hub (Table 17-3). -/
def writeHub (o : Nat) (v : Word) (s : State) : State :=
  if 0x400 ≤ o ∧ o < 0x800 then writeSeverity ((o - 0x400) / 4) (bits v 1 0) (v.extractLsb' 16 16) s
  else match o with
    | 0x000 =>
      let s1 := if bit v 1 then clearFirst s else s
      if bit v 2 then clearOverflow s1 else s1
    | 0x014 => writeQuiet (bits v 19 0) s
    | _ => s

/-- A write at an offset of the PF's BAR0 (Table 2-1): reserved areas and read-only registers ignore it. -/
def writeBar0 (o : Nat) (v : Word) (s : State) : State :=
  if o = 0x020 then
    { s with sys := { s.sys with
        errMore := s.sys.errMore && !bit v 30, errValid := s.sys.errValid && !bit v 31 } }
  else if o = 0x024 then { s with sys := { s.sys with scratch := v } }
  else if 0x1000 ≤ o ∧ o < 0x2000 then writeAggregator (o - 0x1000) v s
  else if 0x2000 ≤ o ∧ o < 0x3000 then writeHub (o - 0x2000) v s
  else if 0x10000 ≤ o ∧ o < 0x110000 then writePage (o / 0x10000 - 1) (o % 0x10000) v s
  else s

/-- An aligned 32-bit write: a virtual function reaches only its own page, at offset 0 (R21). -/
def writeWindow (fn o : Nat) (v : Word) (s : State) : State :=
  if fn = 0 then writeBar0 o v s else if o < 0x10000 then writePage fn o v s else s

/-- A write of 32 bits, or of 64 as two writes at ascending addresses; one not aligned to its size is refused
(R25). -/
def execRegisterWrite (fn : Fin 16) (offset : BitVec 23) (value : Word) (s : State) (high : Option Word := none) :
    Host.Outcome State Fault Refusal :=
  let o := offset.toNat
  let a : Access := { fn := fn, offset := offset, write := true, bytes := if high.isSome then 8 else 4 }
  .next (awake (fun s =>
    if accessBad a then refuseAccess a s
    else
      let s1 := writeWindow fn.val o value s
      match high with
      | some v => writeWindow fn.val (o + 4) v s1
      | none => s1) s)

/-! ### MSI-X (R376) -/

/-- Send the message a vector has been holding, once nothing holds it back. -/
def releaseVector (fn v : Nat) (s : State) : State :=
  let e := vecGet s fn v
  if e.pending && !vecHeld s fn v then send (.msi fn v) (vecPut fn v { e with pending := false } s) else s

def execMsixUnmask (fn : Fin 16) (w : MsixWrite) (s : State) : Host.Outcome State Fault Refusal :=
  match w with
  | .entry v i x =>
    let e := vecGet s fn.val v.val
    .next (awake (fun s => releaseVector fn.val v.val (vecPut fn.val v.val { e with words := e.words.set i.val x } s)) s)
  | .enable on =>
    let keep := s.events.msixOn.filter (fun n => decide (n ≠ fn.val))
    let s1 := { s with events := { s.events with msixOn := if on then fn.val :: keep else keep } }
    .next (awake (fun _ => (List.range 64).foldl (fun s v => releaseVector fn.val v s) s1) s)

/-! ### LATE_COMPLETION (R31) -/

/-- The command of this page that Puppeteer executes has passed its completion bound. -/
def execLateCompletion (page : Fin 16) (s : State) : Host.Outcome State Fault Refusal :=
  match s.exec with
  | some e =>
    if e.page = page.val ∧ !e.late ∧ e.takenAt + e.bound < now s then
      .next (raise 250 0 { s with exec := some { e with late := true } })
    else .next s
  | none => .next s

end Sys2Proof.Machine
end

