-- ==== Sys2Proof/Machine/Events.lean ====
section
/-! DEFINITION. Events and the fault hub: the event-class commands (R384), event timers, CRITICAL causes, the exit
from the fault state (R382), folded records (R379), and the sources that the outside world raises (R373). -/

namespace Sys2Proof.Machine

open Sys2Proof

/-! ### Commands (R384) -/

def cmdSetEventDelivery (c : Ctx) (s : State) : CmdOut :=
  let n := bf c 0 7 0
  if c.page ≠ 0 ∧ (evOwner s n ≠ c.page ∨ bb c 1 22) then refuse .notOwner
  else .done .ok [] (writeDelivery n ((bw c 1).extractLsb' 0 16) (bf c 1 21 16) (bb c 1 22) s)

/-- Pending sources that the issuer may read, from FIRST on. -/
def pendingFrom (s : State) (page first : Nat) (all_ : Bool) : List Nat :=
  (List.range 256).filter (fun n => decide (first ≤ n) && isPending s n && (all_ || decide (evOwner s n = page)))

def cmdReadEvents (c : Ctx) (s : State) : CmdOut :=
  let all_ := bb c 0 9
  if all_ ∧ c.page ≠ 0 then refuse .notOwner
  else
    let l := pendingFrom s c.page (bf c 0 7 0) all_
    let s1 := if bb c 0 8 then
        (l.take 6).foldl (fun t n => if evOwner s n = c.page then clearCause n (causeOf s n) t else t) s
      else s
    .done (if 6 < l.length then .okPartial else .ok)
      ((l.take 6).map (fun n => pack [(n, 7, 0), ((causeOf s n).toNat, 31, 16)])) s1

def cmdSetSeverity (c : Ctx) (s : State) : CmdOut :=
  let n := bf c 0 7 0
  if sevFixed n then refuse .state
  else .done .ok [] (writeSeverity n (bf c 0 9 8) ((bw c 0).extractLsb' 16 16) s)

/-- Hub words 0x000 and 0x004 (Table 17-3). -/
def hubWord (s : State) (i : Nat) : Word :=
  let h := s.events.hub
  if i = 0 then pack [(b1 h.fault, 0, 0), (b1 h.firstValid, 1, 1), (b1 h.overflow, 2, 2)]
  else pack [(h.firstSource, 7, 0), (h.firstSub, 11, 8), (h.overflowCount, 31, 16)]

def cmdGetFaultStatus (_ : Ctx) (s : State) : CmdOut :=
  let h := s.events.hub
  .done .ok [hubWord s 0, hubWord s 1, h.firstPtime.extractLsb' 0 32, h.firstPtime.extractLsb' 32 32,
    word h.recoveries, word (quietLeft s)] s

def cmdSetQuietPeriod (c : Ctx) (s : State) : CmdOut :=
  if bn c 0 = 0 ∨ 600000 < bn c 0 then refuse .range else .done .ok [] (writeQuiet (bn c 0) s)

def cmdAckFault (c : Ctx) (s : State) : CmdOut :=
  let s1 := if bb c 0 0 then clearFirst s else s
  .done .ok [] (if bb c 0 1 then clearOverflow s1 else s1)

def cmdSetEventTimer (c : Ctx) (s : State) : CmdOut :=
  let n := bf c 0 1 0
  let ms := bn c 1
  if 3600000 < ms then refuse .range
  else
    let t := if ms = 0 then tdel s.events.timers n else tset s.events.timers n (ms, now s + ms * 1000)
    .done .ok [] { s with events := { s.events with timers := t } }

def specSetEventDelivery : OpSpec :=
  { op := 0x1000, maxLen := 8, rsv := within [field 7 0, field 22 0], log := always, run := cmdSetEventDelivery }

def specReadEvents : OpSpec :=
  { op := 0x1001, maxLen := 4, rsv := within [field 9 0], log := fun b => bit (wd b 0) 8, run := cmdReadEvents }

def specSetSeverity : OpSpec :=
  { op := 0x1002, p0 := true, maxLen := 4, rsv := within [field 9 0 ||| field 31 16], log := always, run := cmdSetSeverity }

def specGetFaultStatus : OpSpec := { op := 0x1003, p0 := true, run := cmdGetFaultStatus }

def specSetQuietPeriod : OpSpec := { op := 0x1004, p0 := true, maxLen := 4, log := always, run := cmdSetQuietPeriod }

def specAckFault : OpSpec := { op := 0x1005, p0 := true, maxLen := 4, rsv := within [field 1 0], log := always, run := cmdAckFault }

def specSetEventTimer : OpSpec :=
  { op := 0x1006, p0 := true, maxLen := 8, rsv := within [field 1 0], log := always, run := cmdSetEventTimer }

def execSetEventDelivery (page : Fin 16) (d : Desc) (s : State) : Host.Outcome State Fault Refusal :=
  if d.Wf then .next (issue specSetEventDelivery page d s) else .fault .illFormed

def execReadEvents (page : Fin 16) (d : Desc) (s : State) : Host.Outcome State Fault Refusal :=
  if d.Wf then .next (issue specReadEvents page d s) else .fault .illFormed

def execSetSeverity (page : Fin 16) (d : Desc) (s : State) : Host.Outcome State Fault Refusal :=
  if d.Wf then .next (issue specSetSeverity page d s) else .fault .illFormed

def execGetFaultStatus (page : Fin 16) (d : Desc) (s : State) : Host.Outcome State Fault Refusal :=
  if d.Wf then .next (issue specGetFaultStatus page d s) else .fault .illFormed

def execSetQuietPeriod (page : Fin 16) (d : Desc) (s : State) : Host.Outcome State Fault Refusal :=
  if d.Wf then .next (issue specSetQuietPeriod page d s) else .fault .illFormed

def execAckFault (page : Fin 16) (d : Desc) (s : State) : Host.Outcome State Fault Refusal :=
  if d.Wf then .next (issue specAckFault page d s) else .fault .illFormed

def execSetEventTimer (page : Fin 16) (d : Desc) (s : State) : Host.Outcome State Fault Refusal :=
  if d.Wf then .next (issue specSetEventTimer page d s) else .fault .illFormed

/-! ### The hub and the timers -/

/-- A period of an event timer ends (R384). -/
def execEventTimerExpiry (timer : Fin 4) (s : State) : Host.Outcome State Fault Refusal :=
  match tget s.events.timers timer.val with
  | some (ms, t) =>
    if t ≤ now s then .next (raise 254 timer.val
      { s with events := { s.events with timers := tset s.events.timers timer.val (ms, t + ms * 1000) } })
    else .next s
  | none => .next s

/-- Order of causes that arrive in one cycle: source, then sub-cause (R380). -/
def causeLe (a b : Nat × Nat) : Bool := decide (a.1 < b.1 ∨ (a.1 = b.1 ∧ a.2 ≤ b.2))

/-- An uncorrectable HBM error, with the other causes that arrive in its cycle (R380). -/
def execHbmEccUncorrected (rivals : List (Fin 256 × Fin 16)) (s : State) : Host.Outcome State Fault Refusal :=
  let others := (rivals.map (fun r => (r.1.val, r.2.val))).filter (fun r => (subsOf r.1).getLsbD r.2 && !isLevel r.1)
  .next ((sortBy causeLe ((246, 0) :: others).dedup).foldl (fun s r => raise r.1 r.2 s) s)

def execHbmEccCorrected (s : State) : Host.Outcome State Fault Refusal := .next (raise 245 0 s)

/-- The quiet period ends; a CRITICAL sub-cause in that cycle wins (R382). -/
def execFaultExit (rival : Option (Fin 256 × Fin 16)) (s : State) : Host.Outcome State Fault Refusal :=
  if quietOver s then
    let s1 := raiseRival rival s
    .next (if quietOver s1 then leaveFault s1 else s1)
  else .next s

/-- A second after a source's record, what was folded is written as one record (R379). -/
def execMusicBoxFoldExpiry (source : Fin 256) (s : State) : Host.Outcome State Fault Refusal :=
  let n := source.val
  let e := evGet s n
  match e.recordedAt with
  | some t =>
    if e.folded ≠ 0 ∧ t + 1000000 ≤ now s ∧ fwRuns s = true then
      .next (record (eventRecord s n e.lastSub (sevOf s n e.lastSub) e.folded)
        (evPut n { e with recordedAt := some (now s), folded := 0 } s))
    else .next s
  | none => .next s

def execFirmwareException (s : State) : Host.Outcome State Fault Refusal :=
  .next (if fwRuns s then raise 249 0 s else s)

/-! ### The PCIe link, function-level resets, GPIO and debug (R44, R373, R428) -/

def setSys (x : Sys) (s : State) : State := { s with sys := x }

def execPcieLinkDown (s : State) : Host.Outcome State Fault Refusal :=
  .next (if s.sys.pcieUp then raise 112 0 (setSys { s.sys with pcieUp := false } s) else s)

def execPcieLinkUp (s : State) : Host.Outcome State Fault Refusal :=
  .next (awake (fun s => if s.sys.pcieUp then s else raise 112 1 (setSys { s.sys with pcieUp := true } s)) s)

/-- A hot reset leaves mailbox pages, pointers and windows as they are (R44). -/
def execPcieHotReset (s : State) : Host.Outcome State Fault Refusal := .next s

/-- A function-level reset reaches page p: its executing command completes first (R44). -/
def flrPage (p : Nat) (s : State) : State :=
  if (s.exec.map (fun e => e.page)) = some p then modBox p (fun m => { m with flrWaits := true }) s else zeroPointers p s

/-- Function 0 is the physical function, which has a row of its own. -/
def execVfFlr (fn : Fin 16) (s : State) : Host.Outcome State Fault Refusal :=
  .next (awake (fun s => if fn.val = 0 then s else raise 112 2 (flrPage fn.val s)) s)

def execPfFlr (s : State) : Host.Outcome State Fault Refusal :=
  .next (awake (fun s => raise 112 2 ((List.range 16).foldl (fun s p => flrPage p s) s)) s)

def execGpioEdge (pin : Fin 16) (s : State) : Host.Outcome State Fault Refusal :=
  .next (raise 253 pin.val (setSys { s.sys with gpio := s.sys.gpio ^^^ BitVec.ofNat 16 (2 ^ pin.val) } s))

def execPcieAerError (uncorrectable : Bool) (s : State) : Host.Outcome State Fault Refusal :=
  .next (raise 112 (if uncorrectable then 4 else 3) s)

/-- The debug port is present only with DEBUG = 1 (Table 20-6). -/
def execDebugAttach (s : State) : Host.Outcome State Fault Refusal :=
  .next (if s.sys.debug && !s.sys.debugAttached then raise 255 0 (setSys { s.sys with debugAttached := true } s) else s)

def execDebugDetach (s : State) : Host.Outcome State Fault Refusal :=
  .next (if s.sys.debugAttached then raise 255 1 (setSys { s.sys with debugAttached := false } s) else s)

def execDebugHalt (s : State) : Host.Outcome State Fault Refusal :=
  .next (if s.sys.debugAttached then raise 255 2 s else s)

/-- A locked sequence outlasts 256 cycles: the lock is broken, and the rest of the sequence is refused (R429). Only
debug and Puppeteer have locked sequences; a locked request of the host gets Unsupported Request (Table 20-6). -/
def execLockedSequenceTimeout (master : Fin 6) (_target : BitVec 23) (s : State) : Host.Outcome State Fault Refusal :=
  .next (awake (fun s => match master.val with
    | 0 => if s.sys.debug then raise 238 0 (setSys { s.sys with lockBroken := some 0 } s) else s
    | 1 => raise 238 0 (setSys { s.sys with lockBroken := some 1 } s)
    | 2 => send .unsupportedRequest s
    | _ => s) s)

end Sys2Proof.Machine
end

