-- ==== Sys2Proof/Machine/Ticks.lean ====
section
/-! DEFINITION. The frame tick of a timing domain (R218, R274): encode contexts and egress flows apply and take
their inputs (Table 7-2, R171, R343), audio outputs apply (R257), and frame-pulse outputs pulse (R276). -/

namespace Sys2Proof.Machine

open Sys2Proof

/-- The destinations of kinds 2 and 4 on a domain: every encode context and every transmit -20 flow. -/
def tickDests (s : State) (td : Nat) : List Nat :=
  (s.pool.encodes.filter (fun e => decide (e.2.td = td))).map (fun e => ctxDest e.1)
    ++ (s.eth.flows.filter (fun e => e.2.tx && decide (e.2.essence = 0 ∧ e.2.td = td))).map (fun e => flowDest e.1)

/-- What the active route showed last: object slot and close. -/
def lastShown (s : State) (d : Nat) : Option (Nat × Nat) :=
  ((destGet s d).active.bind (fun r => tget s.routes r)).bind (fun r => r.last.map (fun l => (l.1, l.2.1)))

/-- The object a destination has bound for its frame. -/
def boundNow (s : State) (d : Nat) : Option Nat := (destGet s d).shown.head?

/-- An encode context reads its input frame, or black (R171, R343); a repeated one is INPUT_MISSING (R344). -/
def encodeTick (d : Nat) (before : Option (Nat × Nat)) (s : State) : State :=
  let h := destHandle d
  match tget s.pool.encodes h with
  | none => s
  | some x =>
    -- a context that a partition reset has stopped stays so until a route or a head feeds it (R58)
    if x.stopped ∧ (destGet s d).active.isNone ∧ !isSink s d then s else
    let again : Bool := match boundNow s d with
      | some i => decide (before = some (i, (objGet s i).closedAt))
      | none => false
    let black := (blackPicture x, ({} : Colour))
    let input := if isSink s d then x.brought.getD black
      else ((boundNow s d).map (fun i => (objectPicture x (objGet s i), encodeTag (objGet s i).colour))).getD black
    let s1 := setPool { s.pool with encodes := tset s.pool.encodes h { x with
      busy := true, stopped := false, picture := input.1, tag := input.2, brought := none, missing := sat 0xFFFFFFFF x.missing (b1 again) } } s
    if again then raise (179 + x.core) 0 s1 else s1

/-- A transmit flow that is no head's sink starts a frame at its tick: the timestamp (R311). After a head's binding has ended
it sends nothing until a route feeds it (R238). -/
def flowTick (d : Nat) (s : State) : State :=
  let routed := (destGet s d).active.isSome
  let ended := ((tget s.eth.flows (dIndex d)).map (fun f => f.unbound)).getD false
  let s0 := if ended ∧ routed then flowMod (dIndex d) (fun f => { f with unbound := false }) s else s
  if isSink s d ∨ (ended && !routed) = true then s0 else stampFrame (dIndex d) s0

/-- It sends its route's frame as it is at D, or black (R171, R311). -/
def flowRead (d : Nat) (s : State) : State :=
  let ended := ((tget s.eth.flows (dIndex d)).map (fun f => f.unbound)).getD false
  if isSink s d ∨ (ended && (destGet s d).active.isNone) = true ∨ flowSends s (dIndex d) = false then s
  else
    let s1 := ancFrame (dIndex d) s
    sendObject (dIndex d) ((boundNow s1 d).map (objGet s1)) s1

/-- An encode context or flow reads its frame at D: what its conversions have made by then is final (R173, Table 7-2). -/
def readDest (d : Nat) (s : State) : State :=
  let before := (destGet s d).before
  let s1 := settleShown d (destPut d { destGet s d with readAt := none } s)
  if dKind d = 2 then encodeTick d before s1 else flowRead d s1

/-- The frames whose read instant has come. -/
def readDue (s : State) : State :=
  (s.dests.filter (fun e => match e.2.readAt with
    | some t => decide (t ≤ now s)
    | none => false)).foldl (fun s e => readDest e.1 s) s

/-- One destination at its domain's tick, its apply instant A (R50, R172, R177); it reads its frame 1,000 µs later. A
context bound as a head's sink takes what the head has brought. -/
def tickDest (d : Nat) (s0 : State) : State :=
  let s := if (destGet s0 d).readAt.isSome then readDest d s0 else s0
  let s1 := applyKeyed (applyDest d) d s
  let before := lastShown s1 d
  let s2 := takeRefs d (holderOf d) s1
  let s3 := if dKind d = 2 then (if isSink s2 d then encodeTick d before s2 else s2) else flowTick d s2
  if isSink s3 d then s3 else destPut d { destGet s3 d with readAt := some (now s3 + 1000), before := before } s3

/-- The frame tick of a domain: line 0 of its heads (R218), then what applies and is taken at it; `same` says that a
frame has closed at Toybox in the same cycle (R16). -/
def tickDomain (k : Nat) (s : State) : State :=
  let s1 := tickHeads k (countTick k s)
  let s2 := (tickDests s1 k).foldl (fun s d => tickDest d s) s1
  let s3 := (tkeys s2.audio.outputs).foldl (fun s id =>
    if outTd s id = some k then refresh (fun o c => decide (o = id ∧ c.sel = 1)) 0 (applyOutput id s) else s) s2
  sendPulses (fun p => decide (p.source = k + 1)) (fun _ => tickAt s k) (resizeRings s3)

/-- A tick falls OFFSET after an alignment event, or a period after the last; none comes before its instant (R274). -/
def execDomainFrameTick (td : Fin 16) (s : State) (same : Bool := false) (more : Nat := 0) :
    Host.Outcome State Fault Refusal :=
  if tickFalls s td.val && !held s then .next (serveRequest (closesIn same more) (tickDomain td.val) s) else .next s

end Sys2Proof.Machine
end

