-- ==== Sys2Proof/Machine/Partitions.lean ====
section
/-! DEFINITION. Partitions and authority: what a partition reset ends (R58, R130), creation and deletion
(R62, R71, R74), quotas (R66, R75), grants and their revocation (R69, R70, R76, R77) and the change log
(R72, R73, R78). -/

namespace Sys2Proof.Machine

open Sys2Proof

/-! ### What a reset ends (R58, R130) -/

/-- A destination of a partition loses its routes, without ROUTE_ENDED (R58, R172): a recorded stream stops at
the current segment, and what another destination than a layer has not applied counts as resolved. -/
def endDest (d : Nat) (s : State) : State :=
  if dKind d = 1 then
    let s1 := discardPending d (fun _ => false) s
    let x := destGet s1 d
    let s2 := ([x.active, x.incoming].filterMap id).foldl (fun s r => endRoute r s) s1
    { s2 with dests := tdel s2.dests d }
  else if dKind d = 3 then
    let h := destHandle d
    sourceChanged h (recEntry s h) none (dropDest d s)
  else dropDest d s

/-- A consumer of partition p holds the reference. -/
def heldFor (s : State) (p : Nat) (k : Holder) : Bool :=
  match k with
  | .layer h _ => decide (holder s 0 h = p)
  | .encode c => decide (hPart c = p)
  | .flow n => decide (((tget s.eth.flows n).map (fun f => f.owner)).getD 0 = p)
  | .host q => decide (q = p)
  | _ => false

/-- A set whose layers are disabled. -/
def layersOff (st : HeadSet) : HeadSet := { st with layers := tall st.layers (fun _ k => { k with enable := false }) }

/-- Pre-scale sources of a head are deleted with their plan (R58, R212). -/
def clearPrescale (h : Nat) (s : State) : State :=
  let x := headGet s h
  dropPrescale h (x.prescale ++ x.prescaleOk ++ x.prescaleOut).dedup []
    (headPut h { x with prescale := [], prescaleOk := [], prescaleAct := [], prescaleOut := [] } s)

/-- A head of the partition shows no layer (R58). Its mode, composition, matrices, banks and the other fields of its layers
stay (DESIGN CHOICE, log entry 156). -/
def blankHead (h : Nat) (s : State) : State :=
  let x := headGet s h
  clearPrescale h (headPut h { x with
    act := layersOff x.act, pend := x.pend.map layersOff, scanShown := [], bound := [], opaqueNow := [] } s)

/-- Drop a mailbox's staged set; the handles of its ADD_ROUTEs end (R61, R180). -/
def dropStaged (p : Nat) (s : State) : State :=
  (box s p).staged.foldl (fun s i => match i with
    | .route _ op => dropOp op s
    | _ => s) (modBox p (fun m => { m with staged := [] }) s)

/-- Sinks that are gone are bound no longer. -/
def cutSinks (gone : Nat → Sink → Bool) (s : State) : State :=
  { s with heads := tall s.heads (fun h x =>
      let cut := fun (k : Sink) => if gone h k then Sink.none else k
      { x with act := { x.act with sink := cut x.act.sink }, feeding := cut x.feeding
               pend := x.pend.map (fun st => { st with sink := cut st.sink }) }) }

/-- The audio outputs and inputs of a partition go (R58, R262). -/
def dropAudio (p : Nat) (s : State) : State :=
  let s1 := ((tkeys s.audio.outputs).filter (fun o => decide (((outGet s o).map (fun x => x.owner)) = some p))).foldl
    (fun s o => deleteOutput o s) s
  ((s1.audio.inputs.filter (fun e => decide (e.2.owner = p))).map (fun e => (e.1, e.2.kind))).foldl
    (fun s e => if e.2 = 3 then deleteSource e.1 s else dropInput e.1 s) s1

/-- Flow table entries go, with the sinks that name them. -/
def dropFlows (gone : Nat → Flow → Bool) (s : State) : State :=
  let out := s.eth.flows.filter (fun f => gone f.1 f.2)
  let s1 := cutSinks (fun _ k => match k with
    | .ip n => out.any (fun f => decide (f.1 = n))
    | _ => false) s
  out.foldl (fun s f =>
    let s1 := if f.2.tx then dropDest (flowDest f.1) (dropRefs (fun k => decide (k = .flow f.1)) s) else groupNow false f.2.addr f.2.src s
    setEth { s1.eth with flows := tdel s1.eth.flows f.1 } s1) s1

/-- A receive stream that is kept uses the flow (R81). -/
def flowKept (s : State) (n : Nat) : Bool :=
  s.sources.any (fun e => !e.2.deleted && (match e.2.kind with
    | .st2110 f _ a => decide (f = n ∨ a = some n)
    | _ => false))

/-- The rest of a partition's state at creation (R58): its audio, its sink bindings, its flows but those of the
streams it keeps, its relay targets and its exports. -/
def resetRest (p : Nat) (s : State) : State :=
  let s1 := cutSinks (fun h _ => decide (holder s 0 h = p)) (dropAudio p s)
  let s2 := dropFlows (fun n f => decide (f.owner = p) && !flowKept s1 n) s1
  rehop { s2 with
    eth := { s2.eth with entries := tall s2.eth.entries (fun h e => if hPart h = p then { e with relays := [] } else e) }
    domino := { s2.domino with exports := s2.domino.exports.filter (fun e => decide (e.2.owner ≠ p)) } }

/-- The effects of RESET with scope PARTITION (R58). -/
def resetPartition (p : Nat) (s : State) : State :=
  let s1 := ((tkeys s.dests).filter (fun d => decide (destOwner s d = p))).foldl (fun s d => endDest d s) s
  let heads := (List.range 64).filter (fun h => decide (holder s1 0 h = p) && (tget s1.heads h).isSome)
  let s2 := heads.foldl (fun s h => blankHead h s) s1
  let s3 := dropRefs (heldFor s2 p) s2
  let live := (s3.sources.filter (fun e => decide (e.2.owner = p) && !e.2.deleted)).map Prod.fst
  let s4 := live.foldl (fun s h =>
    let s := stopUpload h s
    if isIngress (srcGet s h) ∧ (srcGet s h).kind ≠ .surface ∧ (srcGet s h).state ≠ .stopped then stopStream h s else s) s3
  let s5 := { s4 with
    decodes := tall s4.decodes (fun _ x => if x.owner = p then { resyncDecode x with stopped := true } else x)
    pool := { s4.pool with encodes := tall s4.pool.encodes (fun _ x => if x.owner = p then { x with busy := false, stopped := true } else x) } }
  let s6 := stopJobs (fun x => decide (x.part = p ∧ (x.stream = none ∨ x.state = 0))) 2 (setEngines { s5.engines with
    jobs := tall s5.engines.jobs (fun _ x => if x.part = p then { x with ends := true } else x) } s5)
  -- a dispatched job whose deadline has passed already ends here (R130)
  let s6 := (jobsWhere s6 (fun x => decide (x.part = p) && !fgt x.deadline ⟨now s6, 1⟩)).foldl (fun s j => endJobNow j s) s6
  let s7 := ((tkeys s6.procs).filter (fun h => decide (hPart h = p))).foldl (fun s h => deleteSource h s) s6
  let s8 := ((tkeys s7.shifts).filter (fun h => decide (hPart h = p))).foldl (fun s h => deleteShift h s) s7
  let s9 := resetRest p { s8 with parts := tmod s8.parts p (fun x => { x with kernelData := [] }) }
  resizeRings (modBox p (fun m => { m with window := [] }) (dropStaged p s9))

/-- A partition is quiet once no job of it runs and no core works for it. -/
def isQuiet (s : State) (p : Nat) : Bool :=
  !s.engines.jobs.any (fun e => decide (e.2.part = p ∧ e.2.state ≠ 2))
    && !s.pool.encodes.any (fun e => decide (e.2.owner = p) && e.2.busy)

/-! ### Grants (R69, R70, R76) -/

/-- A processed source of partition g derives from source h, through a chain of its own. -/
def derivesFrom (s : State) (g : Nat) (h : Handle) : Nat → Handle → Bool
  | 0, _ => false
  | n + 1, k => match tget s.procs k with
    | some x => decide (hPart k = g) && (decide (x.input = h) || derivesFrom s g h n x.input)
    | none => false

/-- Processed sources that a grant's grantee derives from its source (R151). -/
def derivedFrom (s : State) (h : Handle) (g : Nat) : List Handle := (tkeys s.procs).filter (derivesFrom s g h 5)

/-- A route needs a permission that the pair does not hold (R69, Table 7-2). -/
def lacks (rec_ egress : Bool) (d : Nat) : Bool :=
  (decide (dKind d = 3) && !rec_) || ((decide (dKind d = 2) || decide (dKind d = 4)) && !egress)

/-- Outputs look again at what they may hear. -/
def rehear (g : Nat) (s : State) : State :=
  refresh (fun id k => decide (((outGet s id).map (fun o => o.owner)) = some g ∧ k.sel ≠ 0)) 0 s

/-- A layer's pre-scale source is gone: its head no longer plans with it. -/
def forgetPrescale (h : Handle) (s : State) : State :=
  match (tget s.procs h).bind (fun x => x.prescale) with
  | some (n, l) =>
    let x := headGet s n
    let cut := fun (t : Tbl Handle) => t.filter (fun e => decide (e.2 ≠ h))
    prescaleNote n l h 0 (headPut n { x with
      prescale := cut x.prescale, prescaleOk := cut x.prescaleOk, prescaleAct := cut x.prescaleAct
      prescaleOut := cut x.prescaleOut } s)
  | none => s

/-- A grant goes, or loses permissions (R70, R76): the grantee's routes that need what is lost end at their next
apply instants; with the whole grant its processed sources go as well. -/
def loseGrant (h : Handle) (g : Nat) (left : Option (Bool × Bool)) (s : State) : State :=
  let made := derivedFrom s h g
  let s1 := match left with
    | some (r, e) =>
      endRoutes (fun t => decide (t.owner = g ∧ (t.source = h ∨ t.source ∈ made)) && lacks r e t.dest) 3 s
    | none =>
      let s2 := stopJobs (fun x => decide (x.part = g ∧ x.stream = none ∧ x.state = 0)
        && x.inputs.any (fun i => decide ((objGet s i).source = h))) 3 s
      made.foldl (fun s k => deleteSource k (forgetPrescale k s)) (endRoutes (fun t => decide (t.owner = g ∧ t.source = h)) 3 s2)
  resizeRings (rehear g (endRecorded s1))

/-- Set the permissions of a grant (R76): processed sources derived from it carry them (R151). -/
def putGrant (h : Handle) (g : Nat) (rec_ egress : Bool) (s : State) : State :=
  let old := grantOf s h g
  let e : Grant := { source := h, grantee := g, allowRecord := rec_, allowEgress := egress }
  let made := derivedFrom s h g
  let s1 := { s with
    grants := e :: s.grants.filter (fun x => decide (x.source ≠ h ∨ x.grantee ≠ g))
    procs := tall s.procs (fun k x => if k ∈ made then { x with granted := some (rec_, egress) } else x) }
  match old with
  | some o => if (o.allowRecord && !rec_) || (o.allowEgress && !egress) then loseGrant h g (some (rec_, egress)) s1 else rehear g s1
  | none => s1

/-- Revoke a grant (R70). -/
def revoke (h : Handle) (g : Nat) (s : State) : State :=
  match grantOf s h g with
  | none => s
  | some _ =>
    loseGrant h g none { s with grants := s.grants.filter (fun x => decide (x.source ≠ h ∨ x.grantee ≠ g)) }

def cmdGrantSource (c : Ctx) (s : State) : CmdOut :=
  withOwnSource c.page s (bn c 0) fun x =>
    let g := bf c 1 3 0
    if g = x.owner ∨ !(box s g).active then refuse .range
    -- a source that derives from a granted one is granted no further (R151)
    else if ((tget s.procs (bn c 0)).bind (fun p => p.granted)).isSome then refuse .notOwner
    else if (grantOf s (bn c 0) g).isNone ∧ 4096 ≤ s.grants.length then refuse .quota
    else .done .ok [] (putGrant (bn c 0) g (bb c 1 4) (bb c 1 5) s)

def cmdRevokeGrant (c : Ctx) (s : State) : CmdOut :=
  withSource c.page s (bn c 0) fun x =>
    let g := bf c 1 3 0
    if c.page ≠ 0 ∧ c.page ≠ x.owner ∧ c.page ≠ g then refuse .notOwner
    else .done .ok [] (revoke (bn c 0) g s)

/-- Order of LIST_GRANTS (R77). -/
def grantLe (a b : Grant) : Bool :=
  decide (a.source < b.source ∨ (a.source = b.source ∧ a.grantee ≤ b.grantee))

def cmdListGrants (c : Ctx) (s : State) : CmdOut :=
  let held := bb c 0 0
  let mine := s.grants.filter (fun g =>
    if held then decide (g.grantee = c.page) else decide (c.page = 0 ∨ hPart g.source = c.page))
  let l := (sortBy grantLe mine).drop (bf c 0 31 16)
  .done (if 3 < l.length then .okPartial else .ok)
    ((l.take 3).flatMap (fun g => [word g.source,
      pack [(if held then hPart g.source else g.grantee, 3, 0), (b1 g.allowRecord, 4, 4), (b1 g.allowEgress, 5, 5)]])) s

/-! ### Quotas (R66, R75) -/

/-- A head with a layer binding, a route or a sink. -/
def headUsed (s : State) (h : Nat) : Bool :=
  let x := headGet s h
  (List.range 8).any (fun l => isRouted s (layerDest h l))
    || ([some x.act, x.pend].filterMap id).any (fun st => decide (st.sink ≠ .none) || st.layers.any (fun e => e.2.enable))

/-- A port with a stream or a sink binding. -/
def portUsed (s : State) (p : Nat) : Bool :=
  s.sources.any (fun e => !e.2.deleted && decide (portOf s e.2 = p))
    || s.heads.any (fun e => ([some e.2.act, e.2.pend].filterMap id).any (fun st => match st.sink with
      | .link q _ _ _ _ => decide (q = p)
      | _ => false))

/-- What a partition uses of a resource (R67, R75). -/
def useOf (s : State) (p r : Nat) : Nat :=
  match r with
  | 1 => bitmap ((members (quotaOf s p 1) 64).filter (headUsed s))
  | 2 => bitmap ((members (quotaOf s p 2) 32).filter (portUsed s))
  | 7 => fceil (fadd ⟨partQ s p, 1⟩ (oneShot s p))
  | 8 => tier1Use s p
  | 9 => tier2Use s p
  | 10 => segUse s p
  | _ => quotaUse s p r

/-- A head is assigned: its banks are those of Table 8-6 (R206), and no matrix has been loaded (R203). -/
def resetBanks (h : Nat) (s : State) : State :=
  let x := headGet s h
  headPut h { x with
    act := { x.act with banks := [], mats := [] }
    pend := x.pend.map (fun st => { st with banks := [], mats := [] }) } s

/-- The event source of a head or a port changes owner (R374), unless the port is in Domino mode. -/
def moveUnit (r b : Nat) (s : State) : State :=
  if r = 1 then changeOwner b (resetBanks b s)
  else if ((tget s.ports b).map (fun q => q.mode)).getD 0 = 2 then s
  else changeOwner (64 + b) s

def putQuota (p r v : Nat) (s : State) : State :=
  { s with parts := tmod s.parts p (fun x => { x with quota := x.quota.set (r - 1) v }) }

def cmdSetQuota (c : Ctx) (s : State) : CmdOut :=
  let p := bf c 0 3 0
  let r := bf c 0 15 8
  let v := bn64 c 1
  if p = 0 ∨ r = 0 ∨ 11 < r ∨ (r = 2 ∧ 2 ^ 32 ≤ v) then refuse .range
  else if !(box s p).active then refuse .state
  else
    let old := quotaOf s p r
    if r ≤ 2 then
      let gained := (members v 64).filter (fun b => !tb old b)
      let lost := (members old 64).filter (fun b => !tb v b)
      if gained.any (fun b => decide (holder s (r - 1) b ≠ 0)) then refuse .quota
      else if lost.any (fun b => tb (useOf s p r) b) || gained.any (fun b => tb (useOf s 0 r) b) then refuse .state
      else .done .ok [] ((gained ++ lost).foldl (fun s b => moveUnit r b s) (putQuota p r v s))
    else if (if r = 9 ∨ r = 10 then decide (old < v ∧ totalOf s r < v) else decide (old < v ∧ quotaOf s 0 r - useOf s 0 r < v - old))
      then refuse .quota
    else if v < old ∧ v < useOf s p r then refuse .state
    else
      let s1 := putQuota p r v s
      .done .ok [] (if r = 7 then shed 0 (shed p s1) else s1)

def cmdGetQuota (c : Ctx) (s : State) : CmdOut :=
  let p := bf c 0 3 0
  let r := bf c 0 15 8
  if r = 0 ∨ 11 < r ∨ bn64 c 1 ≠ 0 then refuse .range
  else if c.page ≠ 0 ∧ p ≠ c.page then refuse .notOwner
  else
    let on := (box s p).active
    let q := if on then quotaOf s p r else 0
    let u := if on ∨ r = 8 ∨ r = 9 then useOf s p r else 0
    .done .ok [word q, word (q / 2 ^ 32), word u, word (u / 2 ^ 32)] s

/-! ### Creation and deletion (R62, R71, R74) -/

/-- A page at creation: pointers at 0, window and staged set empty, the next notification SEQ 0 (R74, R40). R74 names
nothing else: the rings keep their words, and MBX_CTRL, NTF_OVF, PTR_ERR, NTF_LOST and TAG_LAST are 0 as at reset
(DESIGN CHOICE, log entry 157). -/
def newPage (m : Mailbox) : Mailbox :=
  { active := true, ready := true, cmdRing := m.cmdRing, cplRing := m.cplRing, ntfRing := m.ntfRing }

def cmdCreatePartition (c : Ctx) (s : State) : CmdOut :=
  let p := bf c 0 3 0
  if p = 0 then refuse .range
  else if (box s p).active then refuse .state
  else if (tget s.parts p).isSome then refuse .busy
  else
    -- the page's event source changes owner (R374)
    .done .ok [] (changeOwner (195 + p) (setBox p (newPage (box s p)) { s with parts := tset s.parts p {} }))

/-- Sources, flows, outputs, exports and contexts of a partition go (R71, R130). -/
def freeObjects (p : Nat) (s : State) : State :=
  let s1 := cutSinks (fun _ k => match k with
    | .encoder h => decide (hPart h = p)
    | _ => false) (dropAudio p s)
  let s2 := { s1 with
    heads := tall s1.heads (fun _ x => { x with pendEpochs := x.pendEpochs.filter (fun e => decide (e.1 ≠ p)) })
    domino := { s1.domino with exports := s1.domino.exports.filter (fun e => decide (e.2.owner ≠ p)) } }
  let s3 := ((tkeys s2.decodes).filter (fun h => decide (hPart h = p))).foldl (fun s h => deleteDecode h s) s2
  let s4 := ((tkeys s3.pool.encodes).filter (fun h => decide (hPart h = p))).foldl (fun s h => deleteEncode h s) s3
  let s5 := ((tkeys s4.eth.entries).filter (fun h => decide (hPart h = p))).foldl (fun s h => deleteEntry h s) s4
  let live := (s5.sources.filter (fun e => decide (hPart e.1 = p) && !e.2.deleted)).map Prod.fst
  let s6 := live.foldl (fun s h => lossReport (portOf s (srcGet s h)) (deleteSource h s)) s5
  let s7 := dropFlows (fun _ f => decide (f.owner = p)) s6
  resizeRings (rehop (endRecorded s7))

/-- Keys of a partition, by slot. -/
def keysOf (s : State) (p : Nat) : List Nat :=
  (s.vault.slots.filter (fun e => e.2.key.isSome && decide (e.2.owner = p))).map Prod.fst

/-- DELETE_PARTITION in the order of R71. -/
def deletePartition (p : Nat) (s : State) : State :=
  let m := box s p
  -- step 1: no further command, completion or notification
  let s1 := setBox p { m with
    active := false, ready := false, cmdHead := 0, cmdTail := 0, cplHead := 0, cplTail := 0, ntfHead := 0, ntfTail := 0
    outstanding := [], applied := [] } s
  let s2 := resetPartition p s1
  let s3 := (s2.grants.filter (fun g => decide (hPart g.source = p ∨ g.grantee = p))).foldl (fun s g => revoke g.source g.grantee s) s2
  let s4 := (keysOf s3 p).foldl (fun s k => zeroise k s) s3
  let s5 := ((tkeys s4.pool.streams).filter (fun h => decide (hPart h = p))).foldl
    (fun s h => (reassign h 0 (closeStream h s)).2) s4
  let bits_ := [1, 2].flatMap (fun r => (members (quotaOf s5 p r) 64).map (fun b => (r, b)))
  let s6 := freeObjects p s5
  let s7 := { s6 with parts := tset s6.parts p { held := true } }
  changeOwner (195 + p) (bits_.foldl (fun s e => moveUnit e.1 e.2 s) s7)

def cmdDeletePartition (c : Ctx) (s : State) : CmdOut :=
  let p := bf c 0 3 0
  if p = 0 then refuse .range
  else if !(box s p).active ∨ (!bb c 0 4 ∧ !(keysOf s p).isEmpty) then refuse .state
  else .done .ok [] (deletePartition p s)

/-- No object of the index remains, and no page is charged to it. -/
def isFreed (s : State) (p : Nat) : Bool :=
  !s.objects.any (fun e => decide (hPart e.2.source = p)) && decide (tier1Use s p = 0 ∧ tier2Use s p = 0)

/-- The last object of a deleted partition has been freed (R71). -/
def execPartitionFreed (part : Fin 16) (s : State) : Host.Outcome State Fault Refusal :=
  match tget s.parts part.val with
  | some x =>
    if x.held && isFreed s part.val then
      .next (postNtf 0 0x0201 [word part.val] { s with parts := tdel s.parts part.val })
    else .next s
  | none => .next s

/-! ### The change log (R73, R78) -/

/-- Good records of the Music Box ring with a SEQ above n, in order of SEQ (R400). -/
def recordsAfter (s : State) (n : Nat) : List (List Word) :=
  sortBy (fun a b => decide ((wd a 3).toNat ≤ (wd b 3).toNat))
    ((s.persist.box.filter (fun e => e.2.crcGood && decide (n < (wd e.2.words 3).toNat))).map (fun e => e.2.words))

/-- Write records to a host buffer: how many, and the last SEQ, or FROM where none was written (R78). -/
def writeRecords (l : List (List Word)) (from_ addr len : Nat) (s : State) : CmdOut :=
  let out := l.take (len / 64)
  hostWrite s addr (bytesOf out.flatten) fun s1 =>
    .done (if out.length < l.length then .okPartial else .ok)
      [word out.length, (out.getLast?.map (fun r => wd r 3)).getD (word from_)] s1

def cmdReadChangeLog (c : Ctx) (s : State) : CmdOut :=
  let len := bn c 3
  if bn64 c 1 % 4 ≠ 0 ∨ len % 64 ≠ 0 ∨ len < 64 ∨ 16384 < len then refuse .range
  else
    let mine := (recordsAfter s (bn c 0)).filter (fun r =>
      decide (bits (wd r 4) 19 16 = 2 ∧ (c.page = 0 ∨ bits (wd r 4) 15 12 = c.page)))
    writeRecords mine (bn c 0) (bn64 c 1) len s

def specCreatePartition : OpSpec :=
  { op := 0x0200, p0 := true, maxLen := 4, rsv := within [field 3 0], log := always, run := cmdCreatePartition }

def specDeletePartition : OpSpec :=
  { op := 0x0201, p0 := true, maxLen := 4, rsv := within [field 4 0], log := always, bound := 100000, run := cmdDeletePartition }

def specSetQuota : OpSpec :=
  { op := 0x0202, p0 := true, maxLen := 12, rsv := within [field 3 0 ||| field 15 8], log := always, run := cmdSetQuota }

def specGetQuota : OpSpec := { op := 0x0203, maxLen := 12, rsv := within [field 3 0 ||| field 15 8], run := cmdGetQuota }

def specGrantSource : OpSpec :=
  { op := 0x0204, maxLen := 8, rsv := within [0xFFFFFFFF, field 5 0], log := always, named := nameWord 0, run := cmdGrantSource }

def specRevokeGrant : OpSpec :=
  { op := 0x0205, maxLen := 8, rsv := within [0xFFFFFFFF, field 3 0], log := always, named := nameWord 0, run := cmdRevokeGrant }

def specListGrants : OpSpec := { op := 0x0206, maxLen := 4, rsv := within [field 0 0 ||| field 31 16], run := cmdListGrants }

def specReadChangeLog : OpSpec := { op := 0x0207, maxLen := 16, run := cmdReadChangeLog }

def execCreatePartition (page : Fin 16) (d : Desc) (s : State) : Host.Outcome State Fault Refusal :=
  if d.Wf then .next (issue specCreatePartition page d s) else .fault .illFormed

def execDeletePartition (page : Fin 16) (d : Desc) (s : State) : Host.Outcome State Fault Refusal :=
  if d.Wf then .next (issue specDeletePartition page d s) else .fault .illFormed

def execSetQuota (page : Fin 16) (d : Desc) (s : State) : Host.Outcome State Fault Refusal :=
  if d.Wf then .next (issue specSetQuota page d s) else .fault .illFormed

def execGetQuota (page : Fin 16) (d : Desc) (s : State) : Host.Outcome State Fault Refusal :=
  if d.Wf then .next (issue specGetQuota page d s) else .fault .illFormed

def execGrantSource (page : Fin 16) (d : Desc) (s : State) : Host.Outcome State Fault Refusal :=
  if d.Wf then .next (issue specGrantSource page d s) else .fault .illFormed

def execRevokeGrant (page : Fin 16) (d : Desc) (s : State) : Host.Outcome State Fault Refusal :=
  if d.Wf then .next (issue specRevokeGrant page d s) else .fault .illFormed

def execListGrants (page : Fin 16) (d : Desc) (s : State) : Host.Outcome State Fault Refusal :=
  if d.Wf then .next (issue specListGrants page d s) else .fault .illFormed

def execReadChangeLog (page : Fin 16) (d : Desc) (s : State) : Host.Outcome State Fault Refusal :=
  if d.Wf then .next (issue specReadChangeLog page d s) else .fault .illFormed

end Sys2Proof.Machine
end

