-- ==== Sys2Proof/Machine/System.lean ====
section
/-! DEFINITION. The system class: identity, capabilities, versions, RESET and ECHO (R55–R59). -/

namespace Sys2Proof.Machine

open Sys2Proof

/-- DEV_STATUS (Table 2-2). -/
def devStatus (s : State) : Word :=
  pack [(b1 s.sys.fwReady, 0, 0), (b1 s.events.hub.fault, 1, 1), (b1 s.sys.debug, 2, 2), (b1 s.sys.maintTiming, 3, 3),
    (s.sys.bootSlot, 5, 4)]

/-- DEV_ID (Table 2-2). -/
def devId : Word := 0x4896B00D

def cmdIdentify (c : Ctx) (s : State) : CmdOut :=
  .done .ok [devId, word c.page, Config.uniqueNumber.extractLsb' 0 32, Config.uniqueNumber.extractLsb' 32 32,
    s.sys.bootCount, devStatus s] s

/-- Device totals (Table 2-10). -/
def capabilities (s : State) (page : Nat) : List Word :=
  let two := fun (a b : Nat) => pack [(a, 15, 0), (b, 31, 16)]
  if page = 0 then [two 64 512, two 48 768, two 16 256, two 8 256, two 8192 160, two 32 8]
  else [192, 720896, word (totalOf s 9), two 16 1024, two 64 4096, 262144]

def cmdGetCapabilities (c : Ctx) (s : State) : CmdOut :=
  if 1 < bf c 0 7 0 then refuse .range else .done .ok (capabilities s (bf c 0 7 0)) s

def cmdGetVersions (_ : Ctx) (s : State) : CmdOut :=
  .done .ok [s.sys.fwVersion, s.sys.cmdsetVersion, Config.romVersion, s.sys.klibVersion, word s.sys.bootSlot, 0] s

/-- The whole device resets 10 ms from now: a change record, a RESET record (Table 18-4), and a store that runs
before the reset (R58, R387). A reset that is already due, as after the watchdog's expiry, keeps its time and cause (R417). -/
def resetDevice (c : Ctx) (s : State) : State :=
  let s1 := changeRecord c.page 0x0103 c.tag .ok (box s c.page).epochStaged 0 s
  let s2 := record { kind := 6, part := c.page, code := 3, payload := [word c.page] } s1
  startStore { s2 with sys := { s2.sys with resetDue := some (s2.sys.resetDue.getD (1, now s + 10000)) } }

def cmdReset (c : Ctx) (s : State) : CmdOut :=
  let scope := bf c 0 1 0
  let t := bf c 0 11 8
  if scope = 0 ∨ (scope ≠ 2 ∧ t ≠ 0) then refuse .range
  else if c.page ≠ 0 ∧ (scope = 3 ∨ (scope = 2 ∧ t ≠ c.page)) then refuse .notOwner
  else if scope = 1 then .done .ok [] (zeroPointers c.page s)
  else if scope = 3 then .done .ok [] (resetDevice c s)
  else if !(box s t).active then refuse .range
  else if t = 0 then refuse .state
  else .wait (.quiet t) (resetPartition t s)

def cmdEcho (c : Ctx) (s : State) : CmdOut := .done .ok ((List.range 6).map (bw c)) s

/-- Its statuses are those of R38 steps 1–4 (R55): no epoch guard. -/
def specIdentify : OpSpec := { op := 0x0100, guard := false, run := cmdIdentify }

def specGetCapabilities : OpSpec := { op := 0x0101, maxLen := 4, rsv := within [field 7 0], run := cmdGetCapabilities }

/-- Its statuses are those of R38 steps 1–4 (R57): no epoch guard. -/
def specGetVersions : OpSpec := { op := 0x0102, guard := false, run := cmdGetVersions }

/-- The change record of scope DEVICE is written with its RESET record. -/
def specReset : OpSpec :=
  { op := 0x0103, maxLen := 4, rsv := within [field 1 0 ||| field 11 8], log := fun b => decide (bits (wd b 0) 1 0 ≠ 3)
    bound := 100000, run := cmdReset }

def specEcho : OpSpec := { op := 0x0104, maxLen := 24, run := cmdEcho }

def execIdentify (page : Fin 16) (d : Desc) (s : State) : Host.Outcome State Fault Refusal :=
  if d.Wf then .next (issue specIdentify page d s) else .fault .illFormed

def execGetCapabilities (page : Fin 16) (d : Desc) (s : State) : Host.Outcome State Fault Refusal :=
  if d.Wf then .next (issue specGetCapabilities page d s) else .fault .illFormed

def execGetVersions (page : Fin 16) (d : Desc) (s : State) : Host.Outcome State Fault Refusal :=
  if d.Wf then .next (issue specGetVersions page d s) else .fault .illFormed

def execReset (page : Fin 16) (d : Desc) (s : State) : Host.Outcome State Fault Refusal :=
  if d.Wf then .next (issue specReset page d s) else .fault .illFormed

def execEcho (page : Fin 16) (d : Desc) (s : State) : Host.Outcome State Fault Refusal :=
  if d.Wf then .next (issue specEcho page d s) else .fault .illFormed

/-- The partition is quiet: RESET completes, and RESET_DONE is posted to the target and, where P0 reset another
partition, to P0 (R58). -/
def execPartitionResetQuiet (s : State) : Host.Outcome State Fault Refusal :=
  match s.exec with
  | none => .next s
  | some e => match e.waits with
    | .quiet t =>
      if !isQuiet s t then .next s
      else .next (postAll [t, e.page] 0x0102 [word t] (complete e true 0 .ok [] s))
    | _ => .next s

end Sys2Proof.Machine
end

