-- ==== Sys2Proof/Machine/Persist.lean ====
section
/-! DEFINITION. Persistence: stores and their end (R385–R387), recall (R388), power fail (R389), powered time's
checkpoint (R390), the always-on domain (R395–R397) and the persistence-class commands (R398–R401). -/

namespace Sys2Proof.Machine

open Sys2Proof

/-! ### Stores (R386, R387) -/

/-- Time of n bytes at 655.36 bytes per µs (R386), in µs. -/
def storeUs (n : Nat) : Nat := divOpen (n * 100) 65536

/-- A row of which some bytes are new and the rest are another's; which is not fixed. -/
def mixedBytes (seed : Nat) (other new : List Byte) : List Byte :=
  (List.range new.length).map (fun i => if Config.tornTakes seed i then new.getD i 0 else other.getD i 0)

/-- The bytes of row r on the medium; a row that was never written reads 0. -/
def mediumRow (r : Nat) (s : State) : List Byte :=
  if 1024 ≤ r then bytesOf (((tget s.persist.boxMedium (r - 1024)).map (fun x => x.words)).getD (List.replicate 16 0))
  else pageBytes ((tget s.persist.medium r).getD {})

/-- A tag that does not fit: any word but the right one (Table 18-1, code 3). -/
def badTag (seed : Nat) (right : Word) : Word := right + word (1 + Config.freeNat seed % (2 ^ 32 - 1))

/-- Row r of the medium is part new, part `other`, and its tag does not fit (Table 18-1, code 3). -/
def spoilRow (r : Nat) (other : List Byte) (s : State) : State :=
  let p := s.persist
  let seed := Config.freeNat s.free
  let s1 := { s with free := s.free + 1 }
  if 1024 ≤ r then
    match tget p.box (r - 1024) with
    | some x =>
      let y := { x with words := wordsOf (mixedBytes seed other (bytesOf x.words)), dirty := false }
      setPersist { p with boxMedium := tset p.boxMedium (r - 1024) { y with tag := badTag seed (boxTag y) } } s1
    | none => s
  else
    match tget p.pages r with
    | some x =>
      let y := { x with bytes := memWrite 0 [] 0 (mixedBytes seed other (pageBytes x)), state := 0 }
      setPersist { p with medium := tset p.medium r { y with tag := badTag seed (pageTag y) } } s1
    | none => s

/-- A row read back wrong: it stays dirty, and the medium does not hold it. -/
def failRow (r : Nat) (s0 : State) : State :=
  let s := spoilRow r ((List.range (rowSize r)).map (Config.failedByte (Config.freeNat s0.free))) s0
  let p := s.persist
  if 1024 ≤ r then setPersist { p with box := tmod p.box (r - 1024) (fun x => { x with dirty := true }) } s
  else setPersist { p with pages := tmod p.pages r (fun x => { x with state := 1 }) } s

/-- The running store ends here, torn: STORE_MARK is not written, and a row it was writing is left part old, part new
(R388). -/
def tearStore (s : State) : State :=
  let s1 := match s.persist.storeRows[s.persist.storeCopied]? with
    | some r => if Config.freeNat s.free % 2 = 1 then spoilRow r (mediumRow r s) { s with free := s.free + 1 } else { s with free := s.free + 1 }
    | none => s
  setPersist { s1.persist with storing := none, storeRows := [], storeCopied := 0, storeAgain := false } s1

/-- The firmware clears the tamper latch once its record is stored; after a power fail the latch holds (R395). -/
def clearTamper (n : Nat) (s : State) : State :=
  match s.persist.tamperStore with
  | some k => if k ≤ n ∧ s.persist.powerFail = false then setPersist { s.persist with
      tamperValid := false, tamperFirst := 0, tamperCount := 0, tamperStore := none } s else s
  | none => s

/-- A command that waits for store n completes (R399, R401). -/
def storeWaiter (n total failed us : Nat) (s : State) : State :=
  match s.exec with
  | none => s
  | some e => match e.waits with
    | .store k =>
      if k ≠ n then s
      else complete e true 0 (if failed = 0 then .ok else .okPartial) [word n, word total, word failed, word us] s
    | .tamper k => if k ≤ n ∧ s.persist.powerFail = false then complete e true 0 .ok [] s else s
    | _ => s

/-- The running store ends with the rows that did not read back: every row is on the medium, STORE_MARK is written,
the end is raised, and a store that was asked for meanwhile starts (R386, R387). -/
def finishStore (failed : List Nat) (s : State) : State :=
  match s.persist.storing with
  | none => s
  | some n =>
    let rows := s.persist.storeRows
    let bad := (failed.filter (fun r => decide (r ∈ rows))).dedup
    let s1 := bad.foldl (fun s r => failRow r s) (copyTo rows.length s)
    let p := s1.persist
    let s2 := setPersist { p with
      markStore := n, markPtime := now s, markTag := Config.controlRowTag [n, now s, n], storesDone := p.storesDone + 1
      storing := none, storeRows := [], storeCopied := 0, storeAgain := false } s1
    let s3 := clearTamper n s2
    let s4 := storeWaiter n rows.length bad.length (storeUs ((rows.map rowSize).sum + 256)) s3
    let s5 := raise 229 0 (if bad.isEmpty then s4 else raise 229 1 s4)
    if p.storeAgain then startStore s5 else s5

/-- The store that has ended names the rows that failed: pages 0–1,023, then Music Box rows. -/
def execStoreDone (failed : List (Fin 13312)) (s : State) : Host.Outcome State Fault Refusal :=
  .next (finishStore (failed.map (fun r => r.val)) s)

/-- The number of the store that serves a cause arising now (R387). -/
def nextStore (s : State) : Nat := ((s.persist.storing.getD (topStore s)) + 1) % 2 ^ 32

/-! ### Recall (R388) -/

/-- The state of a row on the medium, where M is the store number of STORE_MARK (Table 18-1). -/
def rowState (s : State) (good : Bool) (store : Nat) : Nat :=
  if !good then 3 else if s.persist.markStore < store then 2 else 0

/-- The parameter store as recalled. -/
def recalledPages (s : State) : Tbl Page :=
  tall s.persist.medium (fun _ x => { x with state := rowState s (x.tag == pageTag x) x.store })

/-- The Music Box as recalled: a record whose CRC fails stays in its slot. -/
def recalledBox (s : State) : Tbl BoxRec :=
  tall s.persist.boxMedium (fun _ x => { x with dirty := false, crcGood := x.tag == boxTag x })

/-- Pages in a recall state. -/
def pagesIn (t : Tbl Page) (st : Nat) : List Nat := (t.filter (fun e => decide (e.2.state = st))).map Prod.fst

/-- RECALL_CRC and TORN_FOUND of a recall, each once. -/
def recallEvents (withBox : Bool) (s : State) : State :=
  let torn := !(pagesIn s.persist.pages 2).isEmpty
    || (withBox && s.persist.box.any (fun e => e.2.crcGood && decide (s.persist.markStore < e.2.store)))
  let s1 := if torn then raise 229 2 s else s
  let s2 := if (pagesIn s.persist.pages 3).isEmpty then s1 else raise 229 3 s1
  if withBox && s.persist.box.any (fun e => !e.2.crcGood) then raise 230 1 s2 else s2

/-! ### Power fail and powered time (R389, R390) -/

/-- The power-fail store: it joins the running one, which then writes every row dirty at the detection, in the order of
R386 (a row it has still to write is dirty); a second store that a cause waits for follows it (R387). Where VSTORE leaves
its range earlier, some number of rows is written and STORE_MARK is not (R388, R389). -/
def powerStore (completes : Bool) (failed : List Nat) (s : State) : State :=
  let p := s.persist
  let s1 := match p.storing with
    | none => startStore s
    | some _ => setPersist { p with storeRows := p.storeRows.take p.storeCopied ++ dirtyRows s } s
  if completes then finishStore failed s1
  else
    let n := s1.persist.storeRows.length
    tearStore (copyTo (Config.freeNat s.free % (n + 1)) { s1 with free := s.free + 1 })

/-- Power fail is detected (R389): parameter writes are refused from here on, POWER_FAIL is recorded by the hardware,
the counter stops, and a store runs. -/
def powerFail (cause : Nat) (completes : Bool) (failed : List Nat) (s0 : State) : State :=
  let s := storeAdvance s0
  let (s1, hit) := boxAppend {
    kind := 4, payload := [word (s.persist.storing.getD ((topStore s + 1) % 2 ^ 32)), word (dirtyRows s).length, word cause] } s
  let s2 := setPersist { s1.persist with powerFail := true } (if hit then raise 230 0 s1 else s1)
  powerStore completes failed { s2 with sys := { s2.sys with ptimeRuns := false } }

/-- CHECKPOINT takes the powered time and the boot count; no store writes it, so that its tag keeps the store number it
holds (R385, R390; log entry 139). -/
def writeCheck (t : Nat) (boot : Word) (p : Persist) : Persist :=
  { p with checkPtime := t, checkBoot := boot, checkTag := Config.controlRowTag [t, boot.toNat, p.checkStore] }

/-- Every 2^30 µs of powered time the firmware writes CHECKPOINT (R390). -/
def execCheckpointTimer (s : State) : Host.Outcome State Fault Refusal :=
  if fwRuns s = true ∧ s.persist.checkPtime + 2 ^ 30 ≤ now s then
    .next (setPersist (writeCheck (now s) s.sys.bootCount s.persist) s)
  else .next s

/-! ### The always-on domain (R395–R397) -/

/-- The KIND 5 record of the latch (Table 18-4). -/
def tamperRecord (s : State) (unknown : Bool) : RecordOf :=
  { kind := 5, code := s.persist.tamperFirst, unknown := unknown
    payload := [word s.persist.tamperCount, s.persist.lastBoot] }

/-- Record the latch and store it; the latch is cleared when that store ends. -/
def reportTamper (unknown : Bool) (s : State) : State :=
  let s1 := record (tamperRecord s unknown) s
  let n := nextStore s1
  startStore (setPersist { s1.persist with tamperStore := some n } s1)

/-- An edge at a tamper input: an enabled active one is latched and counted, and reported while firmware is ready. -/
def execTamperEdge (input : Fin 4) (high : Bool) (s : State) : Host.Outcome State Fault Refusal :=
  let p := s.persist
  let i := input.val
  if !(p.tamperEn.getLsbD i) || (p.tamperPol.getLsbD i != high) then .next s
  else
    let s1 := setPersist { p with
      tamperValid := true, tamperFirst := if p.tamperValid then p.tamperFirst else i
      tamperCount := sat 65535 p.tamperCount 1 } s
    .next (if fwRuns s then reportTamper false (raise 243 0 s1) else s1)

/-- Once a second the domain compares VBAT with 2.2 V while main power is present (R397). -/
def execVbatCheck (millivolts : BitVec 16) (s : State) : Host.Outcome State Fault Refusal :=
  if s.sys.brownOut || held s then .next s
  else
    let low := decide (millivolts.toNat < 2200)
    let s1 := setPersist { s.persist with vbatMv := millivolts.toNat, vbatLow := low } s
    .next (if low then raise 244 0 s1 else s1)

/-! ### Commands (R398–R401) -/

def pageGet (s : State) (k : Nat) : Page := (tget s.persist.pages k).getD {}

def cmdWriteParamPage (c : Ctx) (s : State) : CmdOut :=
  let k := bf c 0 9 0
  let off := bf c 0 23 16
  let len := bn c 1
  if len = 0 ∨ 1024 < len then refuse .range
  else if (if c.bulk then decide (c.len ≠ 8 + 4 * cdiv len 4) else decide (40 < len)) then refuse .length
  else if s.persist.powerFail then refuse .state
  else
    let n := min len (256 - off)
    let s1 := storeAdvance s
    let x := pageGet s1 k
    let bs := ((bytesOf c.body).drop 8).take n
    .done (if n < len then .okPartial else .ok) [word n] (setPersist { s1.persist with
      pages := tset s1.persist.pages k { x with bytes := memWrite 0 x.bytes off bs, state := 1 } } s1)

def cmdReadParamPage (c : Ctx) (s0 : State) : CmdOut :=
  let s := storeAdvance s0
  let x := pageGet s (bf c 0 9 0)
  if bn64 c 1 % 4 ≠ 0 then refuse .range
  else hostWrite s (bn64 c 1) (memRead 0 x.bytes 0 256) fun s1 => .done .ok [word x.state, word x.store] s1

/-- A STORE that meets a running store is served by the one after it (R387). -/
def cmdStore (_ : Ctx) (s : State) : CmdOut := .wait (.store (nextStore s)) (startStore (storeAdvance s))

def cmdRecallParams (_ : Ctx) (s : State) : CmdOut :=
  let s0 := storeAdvance s
  let s1 := recallEvents false (setPersist { s0.persist with
    pages := recalledPages s0, storeRows := s0.persist.storeRows.take s0.persist.storeCopied
      ++ (s0.persist.storeRows.drop s0.persist.storeCopied).filter (fun r => decide (1024 ≤ r)) } s0)
  let new := pagesIn s1.persist.pages 2
  let bad := pagesIn s1.persist.pages 3
  let first := (s1.persist.pages.find? (fun e => decide (2 ≤ e.2.state))).map Prod.fst
  .done .ok [word new.length, word bad.length, word (first.getD 0xFFFFFFFF)] s1

/-- Records of the image after a SEQ, in order of SEQ: of the pinned area alone where asked. -/
def boxAfter (s : State) (n : Nat) (pinned : Bool) : List BoxRec :=
  sortBy (fun a b => decide ((wd a.words 3).toNat ≤ (wd b.words 3).toNat))
    ((s.persist.box.filter (fun e => (!pinned || decide (e.1 < 64)) && decide (n < (wd e.2.words 3).toNat))).map Prod.snd)

/-- The records that fit the buffer, and those skipped on the way to them: the buffer, the last SEQ, how many were
skipped, and whether the buffer filled first. -/
def boxTake : Nat → Word → Nat → List BoxRec → List (List Word) × Word × Nat × Bool
  | _, last, k, [] => ([], last, k, false)
  | n, last, k, r :: t =>
    if !r.crcGood then boxTake n (wd r.words 3) (k + 1) t
    else match n with
      | 0 => ([], last, k, true)
      | n + 1 =>
        let q := boxTake n (wd r.words 3) k t
        (r.words :: q.1, q.2)

def cmdReadMusicBox (c : Ctx) (s : State) : CmdOut :=
  let len := bn c 4
  if bn64 c 2 % 4 ≠ 0 ∨ len % 64 ≠ 0 ∨ len < 64 ∨ 16384 < len then refuse .range
  else
    let q := boxTake (len / 64) (bw c 0) 0 (boxAfter s (bn c 0) (bb c 1 0))
    hostWrite s (bn64 c 2) (bytesOf q.1.flatten) fun s1 =>
      .done (if q.2.2.2 then .okPartial else .ok) [word q.1.length, q.2.1, word q.2.2.1] s1

def cmdWriteNote (c : Ctx) (s : State) : CmdOut :=
  .done .ok [word s.persist.nextSeq] (record { kind := 7, code := bf c 0 15 0, payload := (List.range 8).map (fun i => bw c (1 + i)) } s)

def cmdGetPersistStatus (_ : Ctx) (s0 : State) : CmdOut :=
  let s := storeAdvance s0
  let p := s.persist
  let dp := (p.pages.filter (fun e => decide (e.2.state = 1))).length
  let db := (p.box.filter (fun e => e.2.dirty)).length
  .done .ok [word p.storesDone, word p.markStore, pack [(dp, 15, 0), (db, 31, 16)], word p.nextSeq,
    word (p.box.filter (fun e => decide (e.1 < 64))).length, s.sys.bootCount] s

def cmdGetTamper (_ : Ctx) (s : State) : CmdOut :=
  let p := s.persist
  .done .ok [pack [(b1 p.tamperValid, 0, 0), (p.tamperFirst, 2, 1), (b1 p.vbatLow, 3, 3)], word p.tamperCount,
    word p.vbatMv, pack [(p.tamperEn.toNat, 3, 0), (p.tamperPol.toNat, 7, 4)]] s

/-- CLEAR waits for the store of a latch that is not yet recorded and stored (R401). -/
def cmdSetTamper (c : Ctx) (s : State) : CmdOut :=
  let s1 := setPersist { s.persist with
    tamperEn := (bw c 0).extractLsb' 0 4, tamperPol := (bw c 0).extractLsb' 4 4 } s
  if !bb c 0 8 ∨ !s.persist.tamperValid then .done .ok [] s1
  else
    let s2 := if s1.persist.tamperStore.isSome then s1 else reportTamper false s1
    .wait (.tamper (s2.persist.tamperStore.getD 0)) s2

def specWriteParamPage : OpSpec :=
  { op := 0x1100, p0 := true, maxLen := 1032, rsv := within [field 9 0 ||| field 23 16, field 10 0], log := always, run := cmdWriteParamPage }

def specReadParamPage : OpSpec := { op := 0x1101, p0 := true, maxLen := 12, rsv := within [field 9 0], run := cmdReadParamPage }

def specStore : OpSpec := { op := 0x1102, p0 := true, log := always, run := cmdStore }

def specRecallParams : OpSpec := { op := 0x1103, p0 := true, log := always, run := cmdRecallParams }

def specReadMusicBox : OpSpec := { op := 0x1104, p0 := true, maxLen := 20, rsv := within [0xFFFFFFFF, 1], run := cmdReadMusicBox }

def specWriteNote : OpSpec := { op := 0x1105, p0 := true, maxLen := 36, rsv := within [field 15 0], log := always, run := cmdWriteNote }

def specGetPersistStatus : OpSpec := { op := 0x1106, p0 := true, run := cmdGetPersistStatus }

def specGetTamper : OpSpec := { op := 0x1107, p0 := true, run := cmdGetTamper }

def specSetTamper : OpSpec := { op := 0x1108, p0 := true, maxLen := 4, rsv := within [field 8 0], log := always, run := cmdSetTamper }

def execWriteParamPage (page : Fin 16) (d : Desc) (s : State) : Host.Outcome State Fault Refusal :=
  if d.Wf then .next (issue specWriteParamPage page d s) else .fault .illFormed

def execReadParamPage (page : Fin 16) (d : Desc) (s : State) : Host.Outcome State Fault Refusal :=
  if d.Wf then .next (issue specReadParamPage page d s) else .fault .illFormed

def execStore (page : Fin 16) (d : Desc) (s : State) : Host.Outcome State Fault Refusal :=
  if d.Wf then .next (issue specStore page d s) else .fault .illFormed

def execRecallParams (page : Fin 16) (d : Desc) (s : State) : Host.Outcome State Fault Refusal :=
  if d.Wf then .next (issue specRecallParams page d s) else .fault .illFormed

def execReadMusicBox (page : Fin 16) (d : Desc) (s : State) : Host.Outcome State Fault Refusal :=
  if d.Wf then .next (issue specReadMusicBox page d s) else .fault .illFormed

def execWriteNote (page : Fin 16) (d : Desc) (s : State) : Host.Outcome State Fault Refusal :=
  if d.Wf then .next (issue specWriteNote page d s) else .fault .illFormed

def execGetPersistStatus (page : Fin 16) (d : Desc) (s : State) : Host.Outcome State Fault Refusal :=
  if d.Wf then .next (issue specGetPersistStatus page d s) else .fault .illFormed

def execGetTamper (page : Fin 16) (d : Desc) (s : State) : Host.Outcome State Fault Refusal :=
  if d.Wf then .next (issue specGetTamper page d s) else .fault .illFormed

def execSetTamper (page : Fin 16) (d : Desc) (s : State) : Host.Outcome State Fault Refusal :=
  if d.Wf then .next (issue specSetTamper page d s) else .fault .illFormed

end Sys2Proof.Machine
end

