-- ==== Sys2Proof/Machine/Health.lean ====
section
/-! DEFINITION. Ageing, margins and health: the margin planner (R402–R405, R437), temperature and throttling
(R406–R408), rails (R409), the monitor ADC (R410–R413) and the health-class commands (R414). -/

namespace Sys2Proof.Machine

open Sys2Proof

def setHealth (x : Health) (s : State) : State := { s with health := x }

/-! ### The margin planner (R402–R405, R437) -/

/-- Slowdown of a monitor in ppm. -/
def slowdownOf (s : State) (k : Nat) : Nat := (tget s.health.slowdown k).getD 0

/-- Monitors by slowdown, worst first; on a tie the lower number. -/
def worstMonitors (s : State) : List Nat :=
  sortBy (fun a b => decide (slowdownOf s b < slowdownOf s a ∨ (slowdownOf s a = slowdownOf s b ∧ a ≤ b))) (List.range 96)

def worstSlowdown (s : State) : Nat := ((List.range 96).map (slowdownOf s)).foldl max 0

/-- N_MV (R402). -/
def needMv (s : State) : Nat := 5 * cdiv (worstSlowdown s) 1000

/-- The highest offset: the envelope, and VDD_CORE at 0.85 V (R403). -/
def boundMv (s : State) : Nat := min s.health.envelopeMv (850 - Config.avsSetpoint)

/-- Ask the regulator for an offset: a NACK leaves O_MV as it was (R437). -/
def askMv (mv : Nat) (nack : Bool) (s : State) : State :=
  let s1 := send (.pmbus (Config.avsSetpoint + mv)) s
  if nack then raise 252 0 s1 else setHealth { s1.health with oMv := mv } s1

/-- ENVELOPE_USED when O_MV reaches a bound, rising to it or falling to a lowered envelope (R403). -/
def boundReached (old : Nat) (s : State) : State :=
  let o := s.health.oMv
  if (old < o ∧ boundMv s ≤ o) ∨ (s.health.envelopeMv < old ∧ o ≤ s.health.envelopeMv) then raise 233 1 s else s

/-- The voltage part of a planner run (R403, R405). -/
def stepMv (nack : Bool) (s : State) : State :=
  let o := s.health.oMv
  let s1 :=
    if s.health.envelopeMv < o then boundReached o (askMv (o - 5) nack s)
    else if o < needMv s ∧ o + 5 ≤ boundMv s then
      let s2 := askMv (o + 5) nack s
      boundReached o (if nack then s2 else raise 233 0 s2)
    else s
  if boundMv s < needMv s ∧ (match s.health.exceededAt with
      | some t => decide (t + 3600000000 ≤ now s)
      | none => true) = true then
    raise 233 2 (setHealth { s1.health with exceededAt := some (now s) } s1)
  else s1

/-- Move a phase by at most 1/64 UI within ±env: the phase, and whether the lane is held at the edge (R404). -/
def movePhase (env : Nat) (phase : Int) (up : Bool) : Int × Bool :=
  if (env : Int) < phase then (phase - 1, false)
  else if phase < -(env : Int) then (phase + 1, false)
  else
    let p := if up then phase + 1 else phase - 1
    if p < -(env : Int) ∨ (env : Int) < p then (phase, true) else (p, false)

/-- Re-centre one receive lane: kind 0 names a link port, kind 1 + b sub-port b of an Ethernet port (R404). -/
def recentre (s : State) (m : Fin 5 × Fin 32 × Fin 4 × Bool) : State :=
  let env := s.health.linkEnv
  let lane := m.2.2.1.val
  if m.1.val = 0 then
    let p := m.2.1.val
    let x := portGet s p
    if !isRx p ∨ x.state ≠ 5 ∨ lane ∉ lanesOf x then s
    else
      let (v, edge) := movePhase env ((tget x.phase lane).getD 0) m.2.2.2
      let s1 := portPut p { x with
        phase := tset x.phase lane v, phaseUsed := if edge then x.phaseUsed ||| BitVec.ofNat 4 (2 ^ lane) else x.phaseUsed } s
      if edge && !x.phaseUsed.getLsbD lane then raise 233 1 s1 else s1
  else
    let k := ethKey (m.2.1.val % 8) (m.1.val - 1)
    let x := ethGet s k
    if !x.linkUp then s
    else
      let (v, edge) := movePhase env ((tget x.phase lane).getD 0) m.2.2.2
      let s1 := ethMod k (fun x => { x with
        phase := tset x.phase lane v, phaseUsed := if edge then x.phaseUsed ||| BitVec.ofNat 4 (2 ^ lane) else x.phaseUsed }) s
      if edge && !x.phaseUsed.getLsbD lane then raise 233 1 s1 else s1

/-- The lane a measurement is of: a port's, or a sub-port's of an Ethernet port. -/
def laneKey (m : Fin 5 × Fin 32 × Fin 4 × Bool) : Nat × Nat × Nat :=
  (m.1.val, if m.1.val = 0 then m.2.1.val else m.2.1.val % 8, m.2.2.1.val)

/-- One measurement of each lane: a lane moves once in a run (R404). -/
def onceALane : List (Fin 5 × Fin 32 × Fin 4 × Bool) → List (Nat × Nat × Nat) → List (Fin 5 × Fin 32 × Fin 4 × Bool)
  | [], _ => []
  | m :: t, seen => if laneKey m ∈ seen then onceALane t seen else m :: onceALane t (laneKey m :: seen)

/-- A planner run, every 60 s of powered time: what the 96 monitors read, whether the regulator refuses, and where
each lane's monitor sampler finds its phase. -/
def execPlannerRun (slowdowns : List (BitVec 24)) (nack : Bool) (edges : List (Fin 5 × Fin 32 × Fin 4 × Bool)) (s : State) :
    Host.Outcome State Fault Refusal :=
  if slowdowns.length ≠ 96 then .fault .illFormed
  else if !fwRuns s ∨ now s < s.health.lastPlan + 60000000 then .next s
  else
    let s1 := setHealth { s.health with
      slowdown := (List.range 96).map (fun i => (i, (slowdowns.getD i 0).toNat)), lastPlan := now s } s
    .next ((onceALane edges []).foldl recentre (stepMv nack s1))

/-! ### Temperature (R406–R408) -/

/-- LIMIT of the grade, in tenths of a degree (Table 0-1). -/
def tjLimit : Int := if Config.gradeE then 1000 else 1050

/-- WARN in tenths: as set, or LIMIT − 10 °C. -/
def tjWarn (s : State) : Int := (s.health.warn.map (fun (w : Nat) => (10 * w : Int))).getD (tjLimit - 100)

/-- The engine clock changes, and with it the capacity (R407, R156); an engine lost in the same cycle is covered by the
one new capacity (R407). -/
def setClock (mhz : Nat) (lost : Option (Fin 512 × Bool)) (s : State) : State :=
  let s1 := setEngines { s.engines with clockMHz := mhz } s
  match lost with
  | some (e, trap) => if e.val ∈ s.engines.offline then capacityCheck s1 else dispatch (capacityCheck (engineOff e trap s1))
  | none => if mhz = s.engines.clockMHz then s else capacityCheck s1

/-- The 16 die sensors are read; Tj is the highest reading (R406, R407). `lost` is an engine lost in the same cycle. At
LIMIT the clock's first step is to 1.2 GHz, taken at this reading also where THROTTLE has been set since LIMIT was reached
(DEDUCED, log entry 154); the second to the next step runs from it. -/
def execThermalSample (readings : List Int) (s : State) (lost : Option (Fin 512 × Bool) := none) : Host.Outcome State Fault Refusal :=
  if readings.length ≠ 16 then .fault .illFormed
  else if held s then .next s
  else
  let h := s.health
  let t := readings.foldl max (readings.headD 0)
  let warm := decide (tjWarn s ≤ t)
  let hot := decide (tjLimit ≤ t)
  let lower := hot && h.throttle && (!h.atLimit || decide (1200 < s.engines.clockMHz))
  let s1 := setHealth { h with
    sensors := readings, tj := t
    warned := if warm then true else if t ≤ tjWarn s - 30 then false else h.warned
    atLimit := hot
    hotSince := if !hot then none else if h.atLimit && !lower then h.hotSince else some (now s)
    coolSince := if t < tjLimit - 50 then some (h.coolSince.getD (now s)) else none } s
  let s2 := if warm && !h.warned then raise 231 0 s1 else s1
  let s3 := if hot && !h.atLimit then raise 231 1 s2 else s2
  .next (setClock (if lower then min 1200 s3.engines.clockMHz else s3.engines.clockMHz) lost s3)

/-- A second at LIMIT, or ten seconds below LIMIT − 5 °C, has passed (R407). `lost` is an engine lost in the same
cycle. -/
def execThrottleHoldExpiry (s : State) (lost : Option (Fin 512 × Bool) := none) : Host.Outcome State Fault Refusal :=
  let h := s.health
  let c := s.engines.clockMHz
  let hot := h.atLimit && h.throttle && (match h.hotSince with
    | some t => decide (t + 1000000 ≤ now s)
    | none => false)
  let cool := match h.coolSince with
    | some t => decide (t + 10000000 ≤ now s)
    | none => false
  if held s then .next s
  else if hot && decide (800 < c ∧ c ≤ 1200) then .next (setClock 800 lost (setHealth { h with hotSince := none } s))
  else if cool && decide (c < 1600) then
    .next (setClock (if c < 1200 then 1200 else 1600) lost (setHealth { h with coolSince := some (now s) } s))
  else .next (setClock c lost s)

/-- A bit of a two-bit set, set or cleared. -/
def markStack (v : BitVec 2) (k : Nat) (b : Bool) : BitVec 2 :=
  if b then v ||| BitVec.ofNat 2 (2 ^ k) else v &&& ~~~ (BitVec.ofNat 2 (2 ^ k))

/-- An HBM stack reports its temperature (R408): refresh is doubled while one of them is at LIMIT. -/
def execHbmTemperature (tenths : Int) (s : State) (stack : Fin 2 := 0) : Host.Outcome State Fault Refusal :=
  let h := s.health
  let k := stack.val
  let warm := decide (850 ≤ tenths)
  let hot := decide (950 ≤ tenths)
  let limited := markStack h.hbmLimited k hot
  if held s then .next s
  else
  let s1 := setHealth { h with
    hbmTemps := h.hbmTemps.set k tenths, hbmWarned := markStack h.hbmWarned k warm, hbmLimited := limited
    doubledRefresh := decide (limited ≠ 0) } s
  let s2 := if warm && !h.hbmWarned.getLsbD k then raise 236 0 s1 else s1
  .next (if hot && !h.hbmLimited.getLsbD k then raise 236 1 s2 else s2)

/-! ### Rails (R409) -/

/-- A rail of Table 21-5, in its order from VDD_CORE to VBAT, has been out of its range for 10 µs, after `back` µs within it: raised again only after it has been back for
1 s. -/
def execRailExcursion (rail : Fin 10) (above : Bool) (s : State) (back : Nat := 0) : Host.Outcome State Fault Refusal :=
  let k := 2 * rail.val + b1 above
  if held s then .next s
  else
  let s1 := setHealth { s.health with rails := tset s.health.rails k (now s) } s
  match tget s.health.rails k with
  | some t => .next (if 1000000 ≤ back ∧ t + 1000000 ≤ now s then raise 232 (b1 above) s1 else s1)
  | none => .next (raise 232 (b1 above) s1)

/-! ### The monitor ADC (R410–R413) -/

def adcGet (s : State) (i : Nat) : Adc := (tget s.health.adc i).getD {}

def adcPut (i : Nat) (x : Adc) (s : State) : State := setHealth { s.health with adc := tset s.health.adc i x } s

/-- What a conversion returns: its samples where they agree (R410). -/
def adcRead (a b : Nat) : Nat := if a = b then a else Config.adcResult a b % 4096

/-- A biased conversion: the wire check (R411). -/
def wireCheck (i v : Nat) (x : Adc) (s : State) : State :=
  if 4064 ≤ v ∨ x.value + x.owDelta < v then
    raise 235 0 (adcPut i { x with isOpen := true, passes := 0 } s)
  else if x.isOpen ∧ x.passes = 1 then raise 235 1 (adcPut i { x with isOpen := false, passes := 0 } s)
  else adcPut i { x with passes := if x.isOpen then x.passes + 1 else 0 } s

/-- An unbiased conversion: VALUE, and its thresholds unless the input is OPEN (R411, R413). -/
def takeValue (i v : Nat) (x : Adc) (s : State) : State :=
  if x.isOpen then adcPut i { x with value := v } s
  else
    let out := decide (v < x.lo ∨ x.hi < v)
    let s1 := adcPut i { x with value := v, outside := out } s
    if out && !x.outside then raise 234 0 s1 else s1

/-- Slots of the present scan that have ended; the inputs take them in order (R410). -/
def slotsEnded (s : State) : Nat := (now s - s.health.scanAt) / s.health.convUs

/-- A slot of this input has just ended, and its conversion has not been taken yet. -/
def adcDue (s : State) (i : Nat) : Bool :=
  decide (s.health.adcSlots < slotsEnded s ∧ (slotsEnded s - 1) % 8 = i)

/-- A slot of an enabled input ends (R410, R412). A conversion that a change of CONV_US met is discarded: the new scan has
no slot that has ended (R414). -/
def execAdcConversionDone (input : Fin 8) (startCode endCode : BitVec 12) (s : State) : Host.Outcome State Fault Refusal :=
  let i := input.val
  let x := adcGet s i
  let a := startCode.toNat
  let b := endCode.toNat
  if !adcDue s i || held s then .next s
  else
  let s := setHealth { s.health with adcSlots := slotsEnded s } s
  if !x.enable then .next s
  else if a + 16 < b ∨ b + 16 < a then
    .next (raise 234 1 (adcPut i { x with suspect := true, biasedNext := x.owEn } s))
  else
    let biased := x.owEn && x.biasedNext
    let y := { x with suspect := false, biasedNext := x.owEn && !biased }
    .next (if biased then wireCheck i (adcRead a b) y s else takeValue i (adcRead a b) y s)

/-! ### Commands (R405, R414) -/

def cmdSetEnvelope (c : Ctx) (s : State) : CmdOut :=
  let mv := bf c 0 5 0
  let env := bf c 0 12 8
  if 50 < mv ∨ mv % 5 ≠ 0 ∨ 16 < env then refuse .range
  else .done .ok [] (setHealth { s.health with envelopeMv := mv, linkEnv := env } s)

/-- WARN runs from 60 °C to LIMIT − 1 °C (R406). -/
def cmdSetThermal (c : Ctx) (s : State) : CmdOut :=
  let w := bf c 0 6 0
  if w < 60 ∨ tjLimit - 10 < 10 * (w : Int) then refuse .range
  else .done .ok [] (setHealth { s.health with warn := some w, throttle := bb c 0 8 } s)

def cmdSetAdc (c : Ctx) (s : State) : CmdOut :=
  let i := bf c 0 2 0
  let us := bf c 0 25 16
  let lo := bf c 1 11 0
  let hi := bf c 1 27 16
  let d := bf c 2 11 0
  if us < 250 ∨ 1000 < us ∨ d < 16 ∨ 2000 < d then refuse .range
  else if hi < lo then refuse .inconsistent
  else
    let x := adcGet s i
    let ow := bb c 0 4
    .done .ok [] (setHealth { s.health with
      convUs := us, scanAt := if us = s.health.convUs then s.health.scanAt else now s
      adcSlots := if us = s.health.convUs then s.health.adcSlots else 0
      adc := tset s.health.adc i { x with
        enable := bb c 0 3, owEn := ow, lo := lo, hi := hi, owDelta := d
        isOpen := x.isOpen && ow, passes := if ow then x.passes else 0, biasedNext := x.biasedNext && ow } } s)

def adcHalf (s : State) (i : Nat) : Nat :=
  let x := adcGet s i
  x.value % 4096 + 4096 * b1 x.suspect + 8192 * b1 x.isOpen + 16384 * b1 x.enable

def cmdGetHealth (c : Ctx) (s : State) : CmdOut :=
  match bf c 0 1 0 with
  | 0 => .done .ok [word (twos s.health.tj 32), word (twos (s.health.hbmTemps.foldl max (s.health.hbmTemps.headD 0)) 32), word s.engines.clockMHz,
      pack [(s.health.oMv, 7, 0), (needMv s, 15, 8)], word (worstSlowdown s), word ((worstMonitors s).headD 0)] s
  | 1 => .done .ok ((List.range 4).map (fun k => pack [(adcHalf s (2 * k), 15, 0), (adcHalf s (2 * k + 1), 31, 16)])) s
  | 2 => .done .ok (((worstMonitors s).take 6).map (fun k => pack [(slowdownOf s k, 23, 0), (k, 31, 24)])) s
  | _ => refuse .range

def specSetEnvelope : OpSpec :=
  { op := 0x1200, p0 := true, dflt := [30 + 8 * 256], maxLen := 4, rsv := within [field 5 0 ||| field 12 8], log := always, run := cmdSetEnvelope }

def specSetThermal : OpSpec :=
  { op := 0x1201, p0 := true, dflt := [(if Config.gradeE then 90 else 95) + 256], maxLen := 4, rsv := within [field 6 0 ||| field 8 8], log := always, run := cmdSetThermal }

def specSetAdc : OpSpec :=
  { op := 0x1202, p0 := true, dflt := [16 + 1000 * 65536, 4095 * 65536, 200], maxLen := 12
    rsv := within [field 4 0 ||| field 25 16, field 11 0 ||| field 27 16, field 11 0], log := always, run := cmdSetAdc }

def specGetHealth : OpSpec := { op := 0x1203, p0 := true, maxLen := 4, rsv := within [field 1 0], run := cmdGetHealth }

def execSetEnvelope (page : Fin 16) (d : Desc) (s : State) : Host.Outcome State Fault Refusal :=
  if d.Wf then .next (issue specSetEnvelope page d s) else .fault .illFormed

def execSetThermal (page : Fin 16) (d : Desc) (s : State) : Host.Outcome State Fault Refusal :=
  if d.Wf then .next (issue specSetThermal page d s) else .fault .illFormed

def execSetAdc (page : Fin 16) (d : Desc) (s : State) : Host.Outcome State Fault Refusal :=
  if d.Wf then .next (issue specSetAdc page d s) else .fault .illFormed

def execGetHealth (page : Fin 16) (d : Desc) (s : State) : Host.Outcome State Fault Refusal :=
  if d.Wf then .next (issue specGetHealth page d s) else .fault .illFormed

end Sys2Proof.Machine
end

