-- ==== Sys2Proof/Machine/Startup.lean ====
section
/-! DEFINITION. Start-up and firmware: the resets (R415–R417), the boot flash and its image slots (R418–R421),
bring-up (R422, R423) and the firmware-class commands (R424–R427). -/

namespace Sys2Proof.Machine

open Sys2Proof

def setFlash (x : Flash) (s : State) : State := { s with flash := x }

/-! ### The boot flash (R418–R420) -/

def slotBase (k : Nat) : Nat := 0x10000 + k * 0x2000000

/-- The boot control copy in force: a good CRC and the higher SEQ (R419). -/
def bootNow (f : Flash) : BootCtl :=
  match f.copy0.good, f.copy1.good with
  | true, true => if f.copy0.seq < f.copy1.seq then f.copy1 else f.copy0
  | true, false => f.copy0
  | false, true => f.copy1
  | false, false => {}

/-- Rewrite the copy that is not in force, with SEQ one higher (R419). -/
def writeBoot (active : Nat) (trial : Option Nat) (s : State) : State :=
  let b := bootNow s.flash
  let n : BootCtl := { active := active, trial := trial, seq := (b.seq + 1) % 2 ^ 32, good := true }
  if s.flash.copy0.good && decide (b = s.flash.copy0) then setFlash { s.flash with copy1 := n } s
  else setFlash { s.flash with copy0 := n } s

/-- A byte of the flash; an erased byte reads 0xFF. -/
def flashByte (s : State) (a : Nat) : Byte :=
  if a < 0x10000 then
    let c := if a < 0x8000 then s.flash.copy0 else s.flash.copy1
    Config.bootControlByte [c.active, c.trial.getD 255, c.seq, b1 c.good] (a % 0x8000)
  else memGet 0xFF s.flash.bytes a

def flashBytes (s : State) (a n : Nat) : List Byte := (List.range n).map (fun i => flashByte s (a + i))

/-- Word i of a slot's header (Table 20-4). -/
def headerWord (s : State) (k i : Nat) : Word :=
  let at_ := fun j => flashByte s (slotBase k + 4 * i + j)
  word4 (at_ 0) (at_ 1) (at_ 2) (at_ 3)

/-- Bytes of header words i to j − 1. -/
def headerBytes (s : State) (k i j : Nat) : List Byte := flashBytes s (slotBase k + 4 * i) (4 * (j - i))

/-- Check 1 of R420; a slot beyond the flash is invalid (R418). -/
def headerGood (s : State) (k : Nat) : Bool :=
  decide (slotBase (k + 1) ≤ s.flash.sfdpBytes ∧ headerWord s k 0 = 0x4657494D ∧ bits (headerWord s k 1) 7 0 = 1)

/-- The first check of R420 that a slot fails, or 0; a slot that an operation left partly written fails (R425). -/
def slotCheck (s : State) (k : Nat) : Nat :=
  let root := bits (headerWord s k 1) 15 8
  let len := (headerWord s k 6).toNat
  if !headerGood s k then 1
  else if ¬ (root = 0 ∨ (root = 1 ∧ s.sys.debug = true)) then 2
  else if !Config.ecdsaVerify (Config.bootRoot root) (Config.sha384 (headerBytes s k 20 44)) (headerBytes s k 44 68) then 3
  else if !Config.ecdsaVerify (headerBytes s k 20 44) (Config.sha384 (headerBytes s k 0 68)) (headerBytes s k 68 92) then 4
  else if (headerWord s k 5).toNat < s.vault.minSvn.toNat then 5
  else if len < 4 ∨ 33550336 < len
      ∨ beBytes (Config.sha384 (flashBytes s (slotBase k + 4096) len)).toNat 48 ≠ headerBytes s k 8 20
      ∨ s.flash.torn.any (fun t => decide (slotBase k ≤ 4096 * t ∧ 4096 * t < slotBase (k + 1))) = true then 6
  else 0

/-! ### Reset of the whole device (R415, R416, R423) -/

/-- The sectors of an operation. -/
def opSectors (o : FlashOp) : List Nat :=
  (List.range ((o.addr + o.length - 1) / 4096 + 1 - o.addr / 4096)).map (fun i => o.addr / 4096 + i)

/-- A flash operation that a reset meets leaves the slot partly written (R425): how much is not fixed. -/
def tornFlash (s : State) : State :=
  match s.flash.op with
  | none => s
  | some o =>
    let n := Config.freeNat s.free
    let s1 := { s with free := s.free + 1 }
    let bytes := if o.opcode = 0x1302 then
        s.flash.bytes.filter (fun c => !decide (o.addr ≤ c.1 ∧ c.1 < o.addr + 4096 * (n % max 1 (o.length / 4096))))
      else memWrite 0xFF s.flash.bytes o.addr (o.data.take (n % max 1 o.data.length))
    setFlash { s1.flash with bytes := bytes, op := none, torn := s.flash.torn ++ opSectors o } s1

/-- What survives a reset (R423), with every other register at its reset value: the stores, the vault's slots, the
pool, the flash, powered time and boot count, the always-on domain, and what lies outside the device. -/
def cold (s0 : State) : State :=
  let s1 := tornFlash s0
  let s := if s1.sys.rpPerst = 0 then s1 else send (.rpPerst 0) s1
  let r := State.reset
  let p := s.persist
  { r with
    pending := s.pending, hostMem := s.hostMem, dmaFaults := s.dmaFaults, nextIndex := s.nextIndex
    free := s.free, out := s.out, bus := s.bus
    sys := { r.sys with
      ptime := s.sys.ptime, ptimeRuns := false, bootCount := s.sys.bootCount
      porstLow := s.sys.porstLow, brownOut := s.sys.brownOut, phase := .held, gpio := s.sys.gpio
      ethRefclk := s.sys.ethRefclk }
    persist := { r.persist with
      medium := p.medium, boxMedium := p.boxMedium, nextSeq := p.nextSeq, markStore := p.markStore
      markPtime := p.markPtime, markTag := p.markTag, checkStore := p.checkStore, checkTag := p.checkTag, checkPtime := p.checkPtime, checkBoot := p.checkBoot, storesDone := p.storesDone
      tamperEn := p.tamperEn, tamperPol := p.tamperPol, tamperValid := p.tamperValid, tamperFirst := p.tamperFirst
      tamperCount := p.tamperCount, vbatMv := p.vbatMv, lastBoot := p.lastBoot }
    pool := { medium := mediumOf s, formats := s.pool.formats, nextStreamId := s.pool.nextStreamId }
    vault := { r.vault with slots := s.vault.slots, nextKey := s.vault.nextKey, minSvn := s.vault.minSvn }
    health := { r.health with slowdown := s.health.slowdown, sensors := s.health.sensors, tj := s.health.tj, hbmTemps := s.health.hbmTemps }
    flash := { s.flash with op := none, trialRunning := false, checks := [15, 15, 15] } }

/-! ### Bring-up (R422) -/

/-- Step 1: the always-on domain (R397), the boot count (R391), recall (R388), CHECKPOINT and the counter (R390).
`stopped` says that the counter had stopped, so that it resumes from the stored value. -/
def recallStores (st : Straps) (stopped : Bool) (s : State) : State :=
  let p := s.persist
  let boot : Word := if s.sys.bootCount = 0xFFFFFFFF then s.sys.bootCount else s.sys.bootCount + 1
  let t := if stopped then max p.markPtime p.checkPtime else now s
  let s2 := setPersist { writeCheck t boot p with
    pages := recalledPages s, box := recalledBox s, lastBoot := s.sys.bootCount
    tamperEn := if st.patternKept then p.tamperEn else 0, tamperPol := if st.patternKept then p.tamperPol else 0
    tamperValid := p.tamperValid && st.patternKept, tamperFirst := if st.patternKept then p.tamperFirst else 0
    tamperCount := if st.patternKept then p.tamperCount else 0 } s
  recallEvents true (setSys { s2.sys with
    -- the ADC's scan starts with the counter (DESIGN CHOICE, log entry 155)
    perstDue := some (t + st.refOutUs + 100000), ptime := BitVec.ofNat 64 t, ptimeRuns := true, bootCount := boot, debug := st.debugEn, ethRefclk := st.ethRefclk, phase := .reset } { s2 with health := { s2.health with scanAt := t } })

/-- The BOOT record as the hardware appends it, without slot and version (R391). -/
def bootRecord (cause : Nat) (s : State) : State :=
  let (s1, hit) := boxAppend { kind := 3, payload := [0, pack [(b1 s.sys.debug, 2, 2)], word cause] } s
  if hit then raise 230 0 s1 else s1

/-- Bits written into word i of the record in slot k, and its CRC again: the boot ROM and the firmware complete the BOOT
record so (R391). -/
def completeRecord (k i : Nat) (w : Word) (s : State) : State :=
  let s1 := storeAdvance s
  setPersist { s1.persist with box := tmod s1.persist.box k (fun x =>
    let ws := (x.words.set i (wd x.words i ||| w)).take 15
    { x with words := ws ++ [crcWords ws], dirty := true }) } s1

/-- LOST, with the KIND 1 record that the device writes for it (R397). -/
def domainLost (s : State) : State :=
  let s1 := raise 244 1 s
  let (s2, hit) := boxAppend (eventRecord s1 244 1 (sevOf s1 244 1) 0) s1
  if hit then raise 230 0 s2 else s2

/-- Slots in the order in which the ROM tries them (R421). -/
def bootOrder (f : Flash) : List Nat :=
  let b := bootNow f
  let first := (b.trial.getD b.active) % 2
  [first, 1 - first, 2]

/-- Try slots in order: each that fails raises IMAGE_INVALID, and its check is recorded; the slot that boots (R421). -/
def trySlots (s : State) : List Nat → Option Nat × State
  | [] => (none, s)
  | k :: ks =>
    let c := slotCheck s k
    let s1 := setFlash { s.flash with checks := s.flash.checks.set k c } s
    if c = 0 then (some k, s1) else trySlots (raise 251 2 s1) ks

/-- Page 0 is ready, its pointers at 0 (R29). -/
def readyP0 (s : State) : State := setBox 0 { box s 0 with active := true, ready := true } s

/-- The rows that do not read back in a store that ends with a boot. -/
def failedRows (st : Straps) : List Nat := st.failedRows.map (fun r => r.val)

/-- A latch left set is recorded with TIME_UNKNOWN, stored, and cleared, before commands are accepted (R396). -/
def reportLatch (failed : List Nat) (s : State) : State :=
  if s.persist.tamperValid then finishStore failed (reportTamper true s) else s

/-- The vault's known-answer and entropy tests (R355), and the purge of debug keys with its record (R350). -/
def testVault (st : Straps) (s : State) : State :=
  let s1 := { s with vault := { s.vault with selfTest := st.selfTestOk, entropy := st.entropyOk } }
  let s2 := if st.selfTestOk then s1 else raise 227 0 s1
  let s3 := if st.entropyOk then s2 else raise 227 1 s2
  let (n, s4) := purgeDebug s3
  if n = 0 then s4 else record { kind := 1, src := 228, sev := sevOf s4 228 1, code := 1, count := n, payload := [word (causeOf s4 228).toNat] } s4

/-- In the first second after firmware ready O_MV goes to N_MV, within the bounds (R403, R437). -/
def firstMv (st : Straps) (s0 : State) : State :=
  let s := setHealth { s0.health with
    lastPlan := now s0
    slowdown := (List.range 96).map (fun k => (k, ((st.slowdowns[k]?).map (fun v => v.toNat)).getD (slowdownOf s0 k))) } s0
  boundReached 0 (askMv (min (needMv s) (boundMv s)) st.pmbusNack s)

/-- Steps 7–10: the firmware starts, writes its version into the BOOT record in slot `row` (R391), and starts the
watchdog; the versions are the image's (Table 20-4); the mode table is loaded, heads are OFF with the banks of Table 8-6,
and P0 is ready; the drives are enumerated and the pool is mounted (R422). -/
def startFirmware (st : Straps) (slot row : Nat) (s : State) : State :=
  let b := bootNow s.flash
  let trial := decide (b.trial = some slot)
  let s1 := if trial then writeBoot b.active none s else s
  let s2 := setFlash { s1.flash with trialRunning := trial } s1
  let s3 := completeRecord row 6 (headerWord s slot 2) (setSys { s2.sys with
    phase := .ready, watchdog := true, watchdogAt := now s2, maintTiming := false, bootSlot := slot, pcieUp := true
    fwVersion := headerWord s slot 2, cmdsetVersion := headerWord s slot 3, klibVersion := headerWord s slot 4 } s2)
  let s4 := { s3 with heads := (List.range 64).map (fun h => (h, { state := 0 })) }
  let s5 := testVault st (reportLatch (failedRows st) s4)
  mountPool st.drives (readyP0 (firstMv st (setSys { s5.sys with fwReady := true } s5)))

/-- No slot was accepted: ROM recovery (R421). -/
def romRecovery (s : State) : State :=
  readyP0 (setSys { s.sys with phase := .romRecovery, fwReady := true, bootSlot := 3, pcieUp := true } s)

/-- A store that a reset meets is torn: the rows it has copied stay (R388). -/
def tornStore (s : State) : State := if s.persist.storing.isSome then tearStore (storeAdvance s) else s

/-- A power fail that falls in this part of the bring-up: the store writes the BOOT record with the zeros it still holds
(R391). -/
def bootFails (st : Straps) (afterSlot : Bool) (s : State) : State :=
  match st.fails with
  | some f => if f.afterSlot = afterSlot then powerFail (b1 f.brownOut) f.completes (f.failed.map (fun r => r.val)) s else s
  | none => s

/-- The bring-up ends in a brown-out: the device is held in reset (R415). -/
def brownedOut (s : State) : State := cold (setSys { s.sys with brownOut := true } (tornStore s))

/-- Start-up from step 1, with the cause of the BOOT record (Table 18-4). The record is completed once when the slot is
chosen and once when the firmware starts (R391); a brown-out on the way breaks the bring-up off. -/
def boot (cause : Nat) (st : Straps) (s : State) : State :=
  let s1 := recallStores st (decide (cause = 0)) (setFlash { s.flash with sfdpBytes := st.sfdpBytes } s)
  let row := ringSlot s1
  let s2 := bootRecord cause s1
  let s3 := bootFails st false (if st.patternKept then s2 else domainLost s2)
  let (slot, s4) := trySlots s3 (bootOrder s3.flash)
  let s5 := bootFails st true (completeRecord row 7 (word (slot.getD 3)) s4)
  let up := match slot with
    | some k => startFirmware st k row s5
    | none => romRecovery s5
  match st.fails with
  | some f => if f.brownOut then brownedOut (if f.afterSlot then s5 else s3) else up
  | none => up

/-- Leave the reset, unless something still holds it; TEST_MODE high at PORST_N release holds the factory test state
(R415, R434). -/
def release (st : Straps) (s : State) : State :=
  if s.sys.porstLow ∨ s.sys.brownOut then s
  else if st.testMode then setSys { s.sys with phase := .factoryTest } s
  else boot 0 st (cold s)

/-- PORST_N is released. -/
def execPorstNRelease (st : Straps) (s : State) : Host.Outcome State Fault Refusal :=
  .next (if s.sys.porstLow then release st (setSys { s.sys with porstLow := false } s) else s)

/-- PORST_N is asserted: the counter stops, and the device is held in reset (R390, R415). -/
def execPorstNAssert (s : State) : Host.Outcome State Fault Refusal :=
  .next (if s.sys.porstLow then s else cold (setSys { s.sys with porstLow := true } (tornStore s)))

/-- The device resets as at PORST_N release, once its 10 ms have passed; a store that was running has ended (R58, R387,
R417). -/
def execDeviceResetDelay (st : Straps) (s : State) : Host.Outcome State Fault Refusal :=
  match s.sys.resetDue with
  | some (cause, t) =>
    if t ≤ now s then .next (boot cause st (cold (finishStore (failedRows st) (finishStore (failedRows st) s)))) else .next s
  | none => .next s

/-- EXPIRED is raised, and the device resets 10 ms later (R417); no period of 2 s has ended before 2 s have passed since
the watchdog started. A reset that is already due comes first. -/
def execWatchdogExpiry (s : State) : Host.Outcome State Fault Refusal :=
  if s.sys.watchdog = true ∧ s.sys.watchdogAt + 2000000 ≤ now s then
    .next (raise 248 0 (setSys { s.sys with
      watchdog := false, resetDue := some (s.sys.resetDue.getD (2, now s + 10000)) } s))
  else .next s

/-- Power fail is detected at PFAIL_N falling or a brown-out; where both fall in one cycle the cause is PFAIL_N (R389,
R436). A brown-out holds the device in reset (R415). -/
def execPowerFailDetect (brownOut pfail storeCompletes : Bool) (s : State) (failed : List (Fin 13312) := []) :
    Host.Outcome State Fault Refusal :=
  let live := decide (s.sys.phase = .ready ∨ s.sys.phase = .romRecovery)
  let s1 := if (brownOut || pfail) && live && !s.persist.powerFail then powerFail (if pfail then 0 else 1) storeCompletes (failed.map (fun r => r.val)) s else s
  .next (if brownOut && !s.sys.brownOut then cold (setSys { s1.sys with brownOut := true } (tornStore s1)) else s1)

/-- VDD_CORE is back above the threshold (R415). -/
def execVddCoreBrownOutEnd (st : Straps) (s : State) : Host.Outcome State Fault Refusal :=
  .next (if s.sys.brownOut then release st (setSys { s.sys with brownOut := false } s) else s)

/-! ### Firmware commands (R424–R427) -/

def cmdGetFwStatus (_ : Ctx) (s : State) : CmdOut :=
  let f := s.flash
  let version := fun k => if headerGood s k then headerWord s k 2 else 0
  .done .ok [pack [(s.sys.bootSlot, 1, 0), (b1 f.trialRunning, 2, 2), ((bootNow f).active, 5, 4), (b1 f.op.isSome, 8, 8)],
    version 0, version 1, version 2,
    pack [(f.checks.getD 0 15, 3, 0), (f.checks.getD 1 15, 7, 4), (f.checks.getD 2 15, 11, 8)], s.vault.minSvn] s

/-- A flash command while another operation runs. -/
def flashIdle (s : State) (k : CmdOut) : CmdOut := if s.flash.op.isSome then refuse .busy else k

def cmdFlashRead (c : Ctx) (s : State) : CmdOut :=
  let a := bn c 0
  let n := bn c 1
  if n < 4 ∨ 262144 < n ∨ s.flash.sfdpBytes < a + n then refuse .range
  else flashIdle s <| hostWrite s (bn64 c 2) (flashBytes s a n) fun s1 => .done .ok [] s1

/-- Erase and write reach only sectors inside slots 0–2, not the running slot, and slot 2 only with DEBUG = 1 (R424). -/
def areaFault (s : State) (a n : Nat) : Option Status :=
  if a < slotBase 0 ∨ slotBase 3 < a + n ∨ s.flash.sfdpBytes < a + n then some .range
  else
    let ks := (List.range 3).filter (fun k => decide (a < slotBase (k + 1) ∧ slotBase k < a + n))
    if ks.any (fun k => decide (k = s.sys.bootSlot) || (decide (k = 2) && !s.sys.debug)) then some .state else none

def cmdFlashErase (c : Ctx) (s : State) : CmdOut :=
  let a := bn c 0
  let n := bn c 1
  if a % 4096 ≠ 0 ∨ n = 0 ∨ 8192 < n then refuse .range
  else match areaFault s a (4096 * n) with
    | some e => refuse e
    | none => flashIdle s <| .done .ok [] (setFlash { s.flash with
        op := some { opcode := 0x1302, addr := a, length := 4096 * n, data := [] } } s)

def cmdFlashWrite (c : Ctx) (s : State) : CmdOut :=
  let a := bn c 0
  let data := (bytesOf c.body).drop 4
  if c.len < 8 then refuse .length
  else if a % 4 ≠ 0 then refuse .range
  else match areaFault s a data.length with
    | some e => refuse e
    | none => flashIdle s <|
      if (flashBytes s a data.length).any (fun b => decide (b ≠ 0xFF)) then refuse .notErased
      else .done .ok [] (setFlash { s.flash with
        op := some { opcode := 0x1303, addr := a, length := data.length, data := data } } s)

/-- A flash operation ends and is read back; where the read-back fails, the byte at the failing address is not what was
asked for (R425). -/
def execFlashDone (badAddress : Option (BitVec 32)) (s : State) : Host.Outcome State Fault Refusal :=
  match s.flash.op with
  | none => .next s
  | some o =>
    let done := if o.opcode = 0x1302 then s.flash.bytes.filter (fun c => !decide (o.addr ≤ c.1 ∧ c.1 < o.addr + o.length))
      else memWrite 0xFF s.flash.bytes o.addr o.data
    match badAddress with
    | none => .next (postNtf 0 0x1301 [word o.opcode, word (statusCode .ok), word o.addr]
        (raise 251 0 (setFlash { s.flash with
          bytes := done, op := none
          -- a sector erased anew holds nothing of the operation that was broken off
          torn := if o.opcode = 0x1302 then s.flash.torn.filter (fun t => !decide (t ∈ opSectors o)) else s.flash.torn } s)))
    | some bad =>
      if bad.toNat < o.addr ∨ o.addr + o.length ≤ bad.toNat then .next s
      else
        let want := memGet 0xFF done bad.toNat
        let got := want + BitVec.ofNat 8 (1 + Config.freeNat s.free % 255)
        .next (postNtf 0 0x1301 [word o.opcode, word (statusCode .state), bad]
          (raise 251 1 (setFlash { s.flash with bytes := memSet 0xFF done bad.toNat got, op := none } { s with free := s.free + 1 })))

def cmdFwActivate (c : Ctx) (s : State) : CmdOut :=
  let k := bf c 0 1 0
  if 1 < k then refuse .range
  else if k = s.sys.bootSlot then refuse .state
  else flashIdle s <|
    let f := slotCheck s k
    if f ≠ 0 then .fail .inconsistent [word f]
    else .done .ok [] (writeBoot (bootNow s.flash).active (some k) s)

def cmdFwConfirm (_ : Ctx) (s : State) : CmdOut :=
  if !s.flash.trialRunning then refuse .state
  else
    let svn := headerWord s s.sys.bootSlot 5
    let s1 := writeBoot s.sys.bootSlot none s
    let s2 := { s1 with vault := { s1.vault with minSvn := if s1.vault.minSvn.toNat < svn.toNat then svn else s1.vault.minSvn } }
    .done .ok [] (setFlash { s2.flash with trialRunning := false } s2)

def specGetFwStatus : OpSpec := { op := 0x1300, p0 := true, run := cmdGetFwStatus }

def specFlashRead : OpSpec := { op := 0x1301, p0 := true, maxLen := 16, run := cmdFlashRead }

def specFlashErase : OpSpec := { op := 0x1302, p0 := true, maxLen := 8, log := always, run := cmdFlashErase }

def specFlashWrite : OpSpec := { op := 0x1303, p0 := true, maxLen := 65540, bulkOnly := true, log := always, run := cmdFlashWrite }

def specFwActivate : OpSpec := { op := 0x1304, p0 := true, maxLen := 4, rsv := within [field 1 0], log := always, bound := 1000000, run := cmdFwActivate }

def specFwConfirm : OpSpec := { op := 0x1305, p0 := true, log := always, run := cmdFwConfirm }

def execGetFwStatus (page : Fin 16) (d : Desc) (s : State) : Host.Outcome State Fault Refusal :=
  if d.Wf then .next (issue specGetFwStatus page d s) else .fault .illFormed

def execFlashRead (page : Fin 16) (d : Desc) (s : State) : Host.Outcome State Fault Refusal :=
  if d.Wf then .next (issue specFlashRead page d s) else .fault .illFormed

def execFlashErase (page : Fin 16) (d : Desc) (s : State) : Host.Outcome State Fault Refusal :=
  if d.Wf then .next (issue specFlashErase page d s) else .fault .illFormed

def execFlashWrite (page : Fin 16) (d : Desc) (s : State) : Host.Outcome State Fault Refusal :=
  if d.Wf then .next (issue specFlashWrite page d s) else .fault .illFormed

def execFwActivate (page : Fin 16) (d : Desc) (s : State) : Host.Outcome State Fault Refusal :=
  if d.Wf then .next (issue specFwActivate page d s) else .fault .illFormed

def execFwConfirm (page : Fin 16) (d : Desc) (s : State) : Host.Outcome State Fault Refusal :=
  if d.Wf then .next (issue specFwConfirm page d s) else .fault .illFormed

end Sys2Proof.Machine
end

