-- ==== Sys2Proof/Machine/Take.lean ====
section
/-! DEFINITION. The opcodes (Table 2-8 and the chapters) and COMMAND_TAKE: Puppeteer takes the next command of a
mailbox round-robin (R31, R38). -/

namespace Sys2Proof.Machine

open Sys2Proof

/-- Opcodes of class 0x01. -/
def opcodes01 : List OpSpec := [
  specIdentify, specGetCapabilities, specGetVersions, specReset, specEcho, specCommit, specDiscardStaged,
  specGetEpoch]

/-- Opcodes of class 0x02. -/
def opcodes02 : List OpSpec := [
  specCreatePartition, specDeletePartition, specSetQuota, specGetQuota, specGrantSource, specRevokeGrant,
  specListGrants, specReadChangeLog]

/-- Opcodes of class 0x03. -/
def opcodes03 : List OpSpec := [
  specCreateLinkStream, specCreate2110Stream, specCreateSurfaceSource, specModifyStream, specStartStream,
  specStopStream, specDeleteStream, specGetStreamStatus, specReadAnc, specUploadSurface,
  specCreateDecodeContext, specDeleteDecodeContext, specGetDecodeStatus, specResyncDecode]

/-- Opcodes of class 0x04. -/
def opcodes04 : List OpSpec := [
  specAcquireObject, specReleaseObject, specGetObjectInfo, specReadObject, specSetPlacement,
  specCreateTimeshift, specSeekTimeshift, specDeleteTimeshift, specGetRingStatus, specGetToyboxStatus]

/-- Opcodes of class 0x05. -/
def opcodes05 : List OpSpec := [
  specCreateProcessedSource, specModifyProcessedSource, specDeleteProcessedSource, specLoadKernelData,
  specSetLadder, specSubmitJob, specCancelJob, specGetJobStatus, specGetEngineStatus, specGetKernelLibrary,
  specLoadKernel]

/-- Opcodes of class 0x06. -/
def opcodes06 : List OpSpec := [
  specAddRoute, specModifyRoute, specDeleteRoute, specStageSalvo, specGetRouteStatus, specGetDestination]

/-- Opcodes of class 0x07. -/
def opcodes07 : List OpSpec := [
  specSetLayer, specSetComposition, specSetMatrix, specLoadCoefficients, specReadCoefficients,
  specGetLayerStatus, specGetHeadBudget]

/-- Opcodes of class 0x08. -/
def opcodes08 : List OpSpec := [
  specSetHeadMode, specBindSink, specSetCrcRects, specGetHeadStatus]

/-- Opcodes of class 0x09. -/
def opcodes09 : List OpSpec := [
  specCreateAudioInput, specDeleteAudioInput, specCreateAudioOutput, specDeleteAudioOutput,
  specSetOutputChannels, specGetAudioStatus, specSetAudioClock]

/-- Opcodes of class 0x0A. -/
def opcodes0A : List OpSpec := [
  specSetCandidate, specSetSelection, specSetTimingDomain, specSetFramePulse, specGetTimingStatus]

/-- Opcodes of class 0x0B. -/
def opcodes0B : List OpSpec := [
  specSetLinkPort, specRetrain, specGetLinkStatus, specSetLinkTest, specGetLinkCaps]

/-- Opcodes of class 0x0C. -/
def opcodes0C : List OpSpec := [
  specSetEthPort, specCreateStreamEntry, specDeleteStreamEntry, specSetRelay, specCreateFlow, specDeleteFlow,
  specArmYoyo, specYoyoSwitch, specGetEthStatus, specSendAnc]

/-- Opcodes of class 0x0D. -/
def opcodes0D : List OpSpec := [
  specGetPoolDrives, specFormatPool, specGetPoolStatus, specCreateRecording, specCloseRecording,
  specAssignRecording, specExportSegments, specReadManifest, specMarkExported, specDeleteSegments,
  specGetRecordingStatus, specCreateEncodeContext, specDeleteEncodeContext, specGetEncodeStatus]

/-- Opcodes of class 0x0E. -/
def opcodes0E : List OpSpec := [
  specGenerateKey, specZeroiseKey, specGetAttestation, specGetIdentity, specSignDigest, specCryptData,
  specGetVaultStatus]

/-- Opcodes of class 0x0F. -/
def opcodes0F : List OpSpec := [
  specSetDomino, specGetDominoStatus, specCreateExport, specDeleteExport, specCreateImport, specDominoQuery]

/-- Opcodes of class 0x10. -/
def opcodes10 : List OpSpec := [
  specSetEventDelivery, specReadEvents, specSetSeverity, specGetFaultStatus, specSetQuietPeriod,
  specAckFault, specSetEventTimer]

/-- Opcodes of class 0x11. -/
def opcodes11 : List OpSpec := [
  specWriteParamPage, specReadParamPage, specStore, specRecallParams, specReadMusicBox, specWriteNote,
  specGetPersistStatus, specGetTamper, specSetTamper]

/-- Opcodes of class 0x12. -/
def opcodes12 : List OpSpec := [
  specSetEnvelope, specSetThermal, specSetAdc, specGetHealth]

/-- Opcodes of class 0x13. -/
def opcodes13 : List OpSpec := [
  specGetFwStatus, specFlashRead, specFlashErase, specFlashWrite, specFwActivate, specFwConfirm]

/-- Every opcode. -/
def opcodes : List OpSpec :=
  opcodes01 ++ opcodes02 ++ opcodes03 ++ opcodes04 ++ opcodes05 ++ opcodes06 ++ opcodes07 ++ opcodes08 ++
    opcodes09 ++ opcodes0A ++ opcodes0B ++ opcodes0C ++ opcodes0D ++ opcodes0E ++ opcodes0F ++ opcodes10 ++ opcodes11 ++ opcodes12 ++ opcodes13

/-- The command an opcode names; none where it is unknown (R38 step 3). -/
def specOf (op : Nat) : Option OpSpec := opcodes.find? (fun sp => decide (sp.op = op))

/-- A command waits in page p: the host has moved CMD_TAIL past it (R30). -/
def cmdWaits (s : State) (p : Nat) : Bool := decide ((box s p).cmdHead ≠ (box s p).cmdTail)

/-- The page Puppeteer serves next, round-robin from the one after the last served (R31). -/
def nextPage (s : State) : Option Nat :=
  ((List.range 16).map (fun i => (s.lastServed + 1 + i) % 16)).find? (fun p => canTake s p && cmdWaits s p)

/-- The sixteen words of slot k of page p's command ring. -/
def slotWords (s : State) (p : Nat) (k : Nat) : List Word :=
  (List.range 16).map (fun i => (tget (box s p).cmdRing (16 * k + i)).getD 0)

/-- COMMAND_TAKE (R38): the next command is taken from its ring, checked, executed and completed; nothing happens
while no mailbox has a command that may be taken. -/
def execCommandTake (s : State) : Host.Outcome State Fault Refusal :=
  match nextPage s with
  | none => .next s
  | some p =>
    let m := box s p
    let (op, d) := descOf (slotWords s p m.cmdHead.toNat)
    .next (runCommand (specOf op) p op d (setBox p { m with cmdHead := m.cmdHead + 1 } s))

end Sys2Proof.Machine
end

