-- ==== Sys2Proof/Machine/Window.lean ====
section
/-! DEFINITION. What a read of the register window answers (R21–R28, R242, R375, R376, Tables 2-1 to 2-4, 9-5, 17-2,
17-3). The table's rows for reads are the two with a side effect, PTIME_LO and NTF_LOST; `readWindow` is every
aligned 32-bit read, with what it changes. -/

namespace Sys2Proof.Machine

open Sys2Proof

/-- A register of the global block (Table 2-2). -/
def readGlobal (o : Nat) (s : State) : Word :=
  match o with
  | 0x000 => devId
  | 0x004 => s.sys.cmdsetVersion
  | 0x008 => s.sys.fwVersion
  | 0x00C => devStatus s
  | 0x010 => s.sys.ptime.extractLsb' 0 32
  | 0x014 => s.sys.ptimeHold
  | 0x018 => s.sys.bootCount
  | 0x01C => pack [(s.sys.errOffset.toNat, 22, 0)]
  | 0x020 => pack [(s.sys.errFunc.toNat, 3, 0), (b1 s.sys.errWrite, 4, 4), (s.sys.errSize.toNat, 7, 5),
      (b1 s.sys.errMore, 30, 30), (b1 s.sys.errValid, 31, 31)]
  | 0x024 => s.sys.scratch
  | _ => 0

/-- MBX_STATUS of page p (Table 2-4). -/
def mbxStatus (p : Nat) (s : State) : Word :=
  let m := box s p
  let busy := match s.exec with
    | some e => decide (e.page = p)
    | none => false
  pack [(b1 m.active, 0, 0), (b1 m.ready, 1, 1), (b1 busy, 2, 2), (b1 (cplStall m), 3, 3), (b1 m.ntfOvf, 4, 4),
    (b1 m.ptrErr, 5, 5)]

/-- A word of a ring of eight-word slots; a slot nothing was posted in reads 0. -/
def ringWord (t : Tbl (List Word)) (i : Nat) : Word := wd ((tget t (i / 8)).getD []) (i % 8)

/-- A word of mailbox page p (Tables 2-3 and 2-4). -/
def readPage (p o : Nat) (s : State) : Word :=
  let m := box s p
  if 0xC000 ≤ o then ringWord m.ntfRing ((o - 0xC000) / 4)
  else if 0x8000 ≤ o then ringWord m.cplRing ((o - 0x8000) / 4)
  else if 0x4000 ≤ o then (tget m.cmdRing ((o - 0x4000) / 4)).getD 0
  else match o with
    | 0x00 => word p
    | 0x04 => mbxStatus p s
    | 0x08 => pack [(b1 m.cplIE, 0, 0), (b1 m.ntfIE, 1, 1), (b1 m.stallIE, 2, 2)]
    | 0x10 => m.cmdHead.zeroExtend 32
    | 0x14 => m.cmdTail.zeroExtend 32
    | 0x18 => m.cplHead.zeroExtend 32
    | 0x1C => m.cplTail.zeroExtend 32
    | 0x20 => m.ntfHead.zeroExtend 32
    | 0x24 => m.ntfTail.zeroExtend 32
    | 0x28 => m.epochStaged
    | 0x2C => appliedMin m
    | 0x30 => word m.ntfLost
    | 0x34 => m.tagLast.zeroExtend 32
    | _ => 0

/-- A word of the event aggregator (Table 17-2). -/
def readAggregator (o : Nat) (s : State) : Word :=
  if 0xC00 ≤ o then word (evOwner s ((o - 0xC00) / 4))
  else if 0x800 ≤ o then
    let e := evGet s ((o - 0x800) / 4)
    pack [(e.enable.toNat, 15, 0), (e.vector.toNat, 21, 16), (b1 e.int, 22, 22)]
  else if 0x400 ≤ o then (causeOf s ((o - 0x400) / 4)).zeroExtend 32
  else if o < 0x020 then
    word (bitmap ((List.range 32).filter (fun b => isPending s (32 * (o / 4) + b))))
  else 0

/-- A word of the fault hub (Table 17-3). -/
def readHub (o : Nat) (s : State) : Word :=
  let h := s.events.hub
  if 0x400 ≤ o ∧ o < 0x800 then
    let e := evGet s ((o - 0x400) / 4)
    pack [(e.severity, 1, 0), (e.sevCauses.toNat, 31, 16)]
  else match o with
    | 0x000 => pack [(b1 h.fault, 0, 0), (b1 h.firstValid, 1, 1), (b1 h.overflow, 2, 2)]
    | 0x004 => pack [(h.firstSource, 7, 0), (h.firstSub, 11, 8), (h.overflowCount, 31, 16)]
    | 0x008 => h.firstPtime.extractLsb' 0 32
    | 0x00C => h.firstHold
    | 0x010 => word h.recoveries
    | 0x014 => pack [(h.quietMs, 19, 0)]
    | 0x018 => word h.entries
    | 0x01C => pack [(quietLeft s, 19, 0)]
    | _ => 0

/-- The word at an aligned offset of the PF's BAR0 (Table 2-1). -/
def readBar0 (o : Nat) (s : State) : Word :=
  if o < 0x1000 then readGlobal o s
  else if o < 0x2000 then readAggregator (o - 0x1000) s
  else if o < 0x3000 then readHub (o - 0x2000) s
  else if o < 0x10000 then 0
  else if o < 0x110000 then readPage (o / 0x10000 - 1) (o % 0x10000) s
  else if 0x200000 ≤ o ∧ o < 0x240000 then headDiag s ((o - 0x200000) / 0x1000) (o % 0x1000)
  else 0

/-- What a read changes: PTIME_LO and FIRST_PTIME_LO copy their high word (R23, Table 17-3), NTF_LOST clears (R6). -/
def readEffect (o : Nat) (s : State) : State :=
  if o = 0x010 then { s with sys := { s.sys with ptimeHold := s.sys.ptime.extractLsb' 32 32 } }
  else if o = 0x2008 then setHub { s.events.hub with firstHold := s.events.hub.firstPtime.extractLsb' 32 32 } s
  else if 0x10000 ≤ o ∧ o < 0x110000 ∧ o % 0x10000 = 0x30 then
    modBox (o / 0x10000 - 1) (fun m => { m with ntfLost := 0 }) s
  else s

/-- The PF offset a function's access reaches: a virtual function has its own page alone (R21). -/
def pfOffset (fn o : Nat) : Option Nat :=
  if fn = 0 then some o else if o < 0x10000 then some (0x10000 + fn * 0x10000 + o) else none

/-- An aligned 32-bit read of BAR0: the word is on the bus, with what the read changes. -/
def readWindow (fn o : Nat) (s : State) : State :=
  match pfOffset fn o with
  | some k => { readEffect k s with bus := [readBar0 k s] }
  | none => { s with bus := [0] }

/-- An aligned read of 32 bits, or of 64 as two reads at ascending addresses (R25). -/
def readAccess (fn o bytes : Nat) (s : State) : State :=
  let s1 := readWindow fn o s
  if bytes = 8 then
    let s2 := readWindow fn (o + 4) s1
    { s2 with bus := s1.bus ++ s2.bus }
  else s1

/-- A word of a function's BAR2: the MSI-X table at 0, the pending-bit array at 0x1000 (R376). -/
def readBar2 (fn o : Nat) (s : State) : Word :=
  if o < 0x400 then wd (vecGet s fn (o / 16)).words (o / 4 % 4)
  else if 0x1000 ≤ o ∧ o < 0x1008 then
    word (bitmap ((List.range 32).filter (fun b => (vecGet s fn ((o - 0x1000) / 4 * 32 + b)).pending)))
  else 0

/-- A read of BAR2: aligned ones of 32 and 64 bits work, any other is refused without an event and without capture
(R376). -/
def accessBar2 (a : Access) (s : State) : State :=
  let n := a.bytes.val
  let o := a.offset.toNat
  let f := a.fn.val
  { s with bus :=
      if accessBad a then allOnes n else readBar2 f o s :: (if n = 8 then [readBar2 f (o + 4) s] else []) }

/-- BAR2 refuses without an event and without capture; a read that is not refused works normally (R376). -/
def execBar2AccessRefused (a : Access) (s : State) : Host.Outcome State Fault Refusal :=
  if a.bytes.val = 0 then .fault .illFormed
  else .next (awake (fun s => if a.write then s else accessBar2 a s) s)

/-- R25, R26: a refused write is dropped and a refused read returns all ones; a read that is not refused works
normally. -/
def execAccessRefused (a : Access) (s : State) : Host.Outcome State Fault Refusal :=
  if a.bytes.val = 0 then .fault .illFormed
  else .next (awake (fun s =>
    if accessBad a then { refuseAccess a s with bus := if a.write then s.bus else allOnes a.bytes.val }
    else if a.write then s
    else readAccess a.fn.val a.offset.toNat a.bytes.val s) s)

end Sys2Proof.Machine
end

