-- ==== Sys2Proof/Machine/Dispatch.lean ====
section
/-! DEFINITION. One arm per command: a direct call of its meaning. -/

namespace Sys2Proof.Machine

/-- The effect of a command on everything but the queue of waiting commands. -/
def exec (i : Instr) (s : State) : Host.Outcome State Fault Refusal :=
  match i with
  | .cmdTailWrite page value => Sys2Proof.Machine.execCmdTailWrite page value s
  | .cplHeadWrite page value => Sys2Proof.Machine.execCplHeadWrite page value s
  | .ntfHeadWrite page value => Sys2Proof.Machine.execNtfHeadWrite page value s
  | .ntfOvfClear page again => Sys2Proof.Machine.execNtfOvfClear page again s
  | .ptrErrClear page again => Sys2Proof.Machine.execPtrErrClear page again s
  | .ntfLostRead page again => Sys2Proof.Machine.execNtfLostRead page again s
  | .ptimeLoRead wide => Sys2Proof.Machine.execPtimeLoRead wide s
  | .errValidClear rival => Sys2Proof.Machine.execErrValidClear rival s
  | .errMoreClear rival => Sys2Proof.Machine.execErrMoreClear rival s
  | .accessRefused a => Sys2Proof.Machine.execAccessRefused a s
  | .causeClear source clear raised => Sys2Proof.Machine.execCauseClear source clear raised s
  | .severityWrite source value => Sys2Proof.Machine.execSeverityWrite source value s
  | .firstValidClear rival => Sys2Proof.Machine.execFirstValidClear rival s
  | .overflowClear rival => Sys2Proof.Machine.execOverflowClear rival s
  | .quietMsWrite value => Sys2Proof.Machine.execQuietMsWrite value s
  | .registerWrite fn offset value high => Sys2Proof.Machine.execRegisterWrite fn offset value s high
  | .msixUnmask fn w => Sys2Proof.Machine.execMsixUnmask fn w s
  | .bar2AccessRefused a => Sys2Proof.Machine.execBar2AccessRefused a s
  | .commandTake => Sys2Proof.Machine.execCommandTake s
  | .lateCompletion page => Sys2Proof.Machine.execLateCompletion page s
  | .commitHandOff => Sys2Proof.Machine.execCommitHandOff s
  | .identify page d => Sys2Proof.Machine.execIdentify page d s
  | .getCapabilities page d => Sys2Proof.Machine.execGetCapabilities page d s
  | .getVersions page d => Sys2Proof.Machine.execGetVersions page d s
  | .reset page d => Sys2Proof.Machine.execReset page d s
  | .partitionResetQuiet => Sys2Proof.Machine.execPartitionResetQuiet s
  | .deviceResetDelay st => Sys2Proof.Machine.execDeviceResetDelay st s
  | .echo page d => Sys2Proof.Machine.execEcho page d s
  | .commit page d => Sys2Proof.Machine.execCommit page d s
  | .discardStaged page d => Sys2Proof.Machine.execDiscardStaged page d s
  | .getEpoch page d => Sys2Proof.Machine.execGetEpoch page d s
  | .createPartition page d => Sys2Proof.Machine.execCreatePartition page d s
  | .deletePartition page d => Sys2Proof.Machine.execDeletePartition page d s
  | .partitionFreed part => Sys2Proof.Machine.execPartitionFreed part s
  | .setQuota page d => Sys2Proof.Machine.execSetQuota page d s
  | .getQuota page d => Sys2Proof.Machine.execGetQuota page d s
  | .grantSource page d => Sys2Proof.Machine.execGrantSource page d s
  | .revokeGrant page d => Sys2Proof.Machine.execRevokeGrant page d s
  | .listGrants page d => Sys2Proof.Machine.execListGrants page d s
  | .readChangeLog page d => Sys2Proof.Machine.execReadChangeLog page d s
  | .createLinkStream page d => Sys2Proof.Machine.execCreateLinkStream page d s
  | .create2110Stream page d => Sys2Proof.Machine.execCreate2110Stream page d s
  | .createSurfaceSource page d => Sys2Proof.Machine.execCreateSurfaceSource page d s
  | .modifyStream page d => Sys2Proof.Machine.execModifyStream page d s
  | .startStream page d => Sys2Proof.Machine.execStartStream page d s
  | .stopStream page d => Sys2Proof.Machine.execStopStream page d s
  | .deleteStream page d => Sys2Proof.Machine.execDeleteStream page d s
  | .getStreamStatus page d => Sys2Proof.Machine.execGetStreamStatus page d s
  | .readAnc page d => Sys2Proof.Machine.execReadAnc page d s
  | .uploadSurface page d => Sys2Proof.Machine.execUploadSurface page d s
  | .surfaceDone source pcieError => Sys2Proof.Machine.execSurfaceDone source pcieError s
  | .createDecodeContext page d => Sys2Proof.Machine.execCreateDecodeContext page d s
  | .deleteDecodeContext page d => Sys2Proof.Machine.execDeleteDecodeContext page d s
  | .getDecodeStatus page d => Sys2Proof.Machine.execGetDecodeStatus page d s
  | .resyncDecode page d => Sys2Proof.Machine.execResyncDecode page d s
  | .frameStart source bottom => Sys2Proof.Machine.execFrameStart source bottom s
  | .frameClose source => Sys2Proof.Machine.execFrameClose source s
  | .patchCopyDone source => Sys2Proof.Machine.execPatchCopyDone source s
  | .streamStallTimeout source => Sys2Proof.Machine.execStreamStallTimeout source s
  | .st2110Packet flow p => Sys2Proof.Machine.execSt2110Packet flow p s
  | .ancPacket source a => Sys2Proof.Machine.execAncPacket source a s
  | .streamEntryPacket entry p => Sys2Proof.Machine.execStreamEntryPacket entry p s
  | .decodePictureDone ctx pic => Sys2Proof.Machine.execDecodePictureDone ctx pic s
  | .decodeBudgetExpiry ctx pic => Sys2Proof.Machine.execDecodeBudgetExpiry ctx s pic
  | .acquireObject page d rivals => Sys2Proof.Machine.execAcquireObject page d s rivals
  | .releaseObject page d => Sys2Proof.Machine.execReleaseObject page d s
  | .getObjectInfo page d => Sys2Proof.Machine.execGetObjectInfo page d s
  | .readObject page d => Sys2Proof.Machine.execReadObject page d s
  | .setPlacement page d => Sys2Proof.Machine.execSetPlacement page d s
  | .createTimeshift page d => Sys2Proof.Machine.execCreateTimeshift page d s
  | .seekTimeshift page d => Sys2Proof.Machine.execSeekTimeshift page d s
  | .deleteTimeshift page d => Sys2Proof.Machine.execDeleteTimeshift page d s
  | .getRingStatus page d => Sys2Proof.Machine.execGetRingStatus page d s
  | .getToyboxStatus page d => Sys2Proof.Machine.execGetToyboxStatus page d s
  | .spillCopyDone source failed => Sys2Proof.Machine.execSpillCopyDone source failed s
  | .spillLate source => Sys2Proof.Machine.execSpillLate source s
  | .recallStart source => Sys2Proof.Machine.execRecallStart source s
  | .recallDone source failed => Sys2Proof.Machine.execRecallDone source failed s
  | .timeshiftPresentation source => Sys2Proof.Machine.execTimeshiftPresentation source s
  | .createProcessedSource page d => Sys2Proof.Machine.execCreateProcessedSource page d s
  | .modifyProcessedSource page d => Sys2Proof.Machine.execModifyProcessedSource page d s
  | .deleteProcessedSource page d => Sys2Proof.Machine.execDeleteProcessedSource page d s
  | .loadKernelData page d => Sys2Proof.Machine.execLoadKernelData page d s
  | .setLadder page d => Sys2Proof.Machine.execSetLadder page d s
  | .submitJob page d rivals => Sys2Proof.Machine.execSubmitJob page d s rivals
  | .cancelJob page d => Sys2Proof.Machine.execCancelJob page d s
  | .getJobStatus page d => Sys2Proof.Machine.execGetJobStatus page d s
  | .getEngineStatus page d => Sys2Proof.Machine.execGetEngineStatus page d s
  | .getKernelLibrary page d => Sys2Proof.Machine.execGetKernelLibrary page d s
  | .loadKernel page d => Sys2Proof.Machine.execLoadKernel page d s
  | .jobRelease route same more => Sys2Proof.Machine.execJobRelease route s same more
  | .workItemDone engine => Sys2Proof.Machine.execWorkItemDone engine s
  | .deadlineMiss job => Sys2Proof.Machine.execDeadlineMiss job s
  | .engineFault engine trap => Sys2Proof.Machine.execEngineFault engine trap s
  | .lmEccCorrected engine => Sys2Proof.Machine.execLmEccCorrected engine s
  | .capacityRiseHold => Sys2Proof.Machine.execCapacityRiseHold s
  | .addRoute page d => Sys2Proof.Machine.execAddRoute page d s
  | .modifyRoute page d => Sys2Proof.Machine.execModifyRoute page d s
  | .deleteRoute page d => Sys2Proof.Machine.execDeleteRoute page d s
  | .stageSalvo page d => Sys2Proof.Machine.execStageSalvo page d s
  | .getRouteStatus page d => Sys2Proof.Machine.execGetRouteStatus page d s
  | .getDestination page d => Sys2Proof.Machine.execGetDestination page d s
  | .setLayer page d => Sys2Proof.Machine.execSetLayer page d s
  | .setComposition page d => Sys2Proof.Machine.execSetComposition page d s
  | .setMatrix page d => Sys2Proof.Machine.execSetMatrix page d s
  | .loadCoefficients page d => Sys2Proof.Machine.execLoadCoefficients page d s
  | .readCoefficients page d => Sys2Proof.Machine.execReadCoefficients page d s
  | .getLayerStatus page d => Sys2Proof.Machine.execGetLayerStatus page d s
  | .getHeadBudget page d => Sys2Proof.Machine.execGetHeadBudget page d s
  | .setHeadMode page d => Sys2Proof.Machine.execSetHeadMode page d s
  | .bindSink page d => Sys2Proof.Machine.execBindSink page d s
  | .setCrcRects page d => Sys2Proof.Machine.execSetCrcRects page d s
  | .getHeadStatus page d => Sys2Proof.Machine.execGetHeadStatus page d s
  | .headApplyLine head same more => Sys2Proof.Machine.execHeadApplyLine head s same more
  | .blankStart head rivals => Sys2Proof.Machine.execBlankStart head s rivals
  | .lineMatch head rivals => Sys2Proof.Machine.execLineMatch head s rivals
  | .headFetchStart head => Sys2Proof.Machine.execHeadFetchStart head s
  | .headLineZero head => Sys2Proof.Machine.execHeadLineZero head s
  | .layerUnderrun head layer line pixel => Sys2Proof.Machine.execLayerUnderrun head layer line pixel s
  | .domainFrameTick td same more => Sys2Proof.Machine.execDomainFrameTick td s same more
  | .createAudioInput page d => Sys2Proof.Machine.execCreateAudioInput page d s
  | .deleteAudioInput page d => Sys2Proof.Machine.execDeleteAudioInput page d s
  | .createAudioOutput page d => Sys2Proof.Machine.execCreateAudioOutput page d s
  | .deleteAudioOutput page d => Sys2Proof.Machine.execDeleteAudioOutput page d s
  | .setOutputChannels page d => Sys2Proof.Machine.execSetOutputChannels page d s
  | .getAudioStatus page d => Sys2Proof.Machine.execGetAudioStatus page d s
  | .setAudioClock page d => Sys2Proof.Machine.execSetAudioClock page d s
  | .audioClockMove => Sys2Proof.Machine.execAudioClockMove s
  | .audioPacket source p => Sys2Proof.Machine.execAudioPacket source p s
  | .audioPlayoutMissing source => Sys2Proof.Machine.execAudioPlayoutMissing source s
  | .audioBufferTarget source => Sys2Proof.Machine.execAudioBufferTarget source s
  | .srcUnlock source => Sys2Proof.Machine.execSrcUnlock source s
  | .audioRampEnd output channel => Sys2Proof.Machine.execAudioRampEnd output channel s
  | .setCandidate page d => Sys2Proof.Machine.execSetCandidate page d s
  | .setSelection page d => Sys2Proof.Machine.execSetSelection page d s
  | .setTimingDomain page d => Sys2Proof.Machine.execSetTimingDomain page d s
  | .setFramePulse page d => Sys2Proof.Machine.execSetFramePulse page d s
  | .getTimingStatus page d => Sys2Proof.Machine.execGetTimingStatus page d s
  | .selectorEvaluation => Sys2Proof.Machine.execSelectorEvaluation s
  | .candidateFault index => Sys2Proof.Machine.execCandidateFault index s
  | .qualTimeExpiry index => Sys2Proof.Machine.execQualTimeExpiry index s
  | .refinEdge refin falling phaseNs => Sys2Proof.Machine.execRefinEdge refin falling phaseNs s
  | .ptpMessage port m => Sys2Proof.Machine.execPtpMessage port m s
  | .slewDone => Sys2Proof.Machine.execSlewDone s
  | .holdoverDataValid => Sys2Proof.Machine.execHoldoverDataValid s
  | .setLinkPort page d => Sys2Proof.Machine.execSetLinkPort page d s
  | .retrain page d => Sys2Proof.Machine.execRetrain page d s
  | .getLinkStatus page d => Sys2Proof.Machine.execGetLinkStatus page d s
  | .setLinkTest page d => Sys2Proof.Machine.execSetLinkTest page d s
  | .getLinkCaps page d => Sys2Proof.Machine.execGetLinkCaps page d s
  | .linkCkDetected port => Sys2Proof.Machine.execLinkCkDetected port s
  | .trainBlock port b locked => Sys2Proof.Machine.execTrainBlock port b locked s
  | .linkLockHeld port => Sys2Proof.Machine.execLinkLockHeld port s
  | .alignBlock port b agree => Sys2Proof.Machine.execAlignBlock port b agree s
  | .alignInterval port lane => Sys2Proof.Machine.execAlignInterval port lane s
  | .capsBlock port b => Sys2Proof.Machine.execCapsBlock port b s
  | .capsMessage port m => Sys2Proof.Machine.execCapsMessage port m s
  | .statusMessage port m => Sys2Proof.Machine.execStatusMessage port m s
  | .statusPeriod port => Sys2Proof.Machine.execStatusPeriod port s
  | .backLost port => Sys2Proof.Machine.execBackLost port s
  | .lpBlock port b => Sys2Proof.Machine.execLpBlock port b s
  | .lpAck port m => Sys2Proof.Machine.execLpAck port m s
  | .lpNak port m => Sys2Proof.Machine.execLpNak port m s
  | .low2IdleExpiry port => Sys2Proof.Machine.execLow2IdleExpiry port s
  | .fsBlock port b => Sys2Proof.Machine.execFsBlock port b s
  | .lsBlock port b data full => Sys2Proof.Machine.execLsBlock port b data s full
  | .feBlock port b => Sys2Proof.Machine.execFeBlock port b s
  | .ancBlock port b data => Sys2Proof.Machine.execAncBlock port b data s
  | .audBlock port b data => Sys2Proof.Machine.execAudBlock port b data s
  | .linkLos port => Sys2Proof.Machine.execLinkLos port s
  | .linkLol port => Sys2Proof.Machine.execLinkLol port s
  | .linkStateTimeout port => Sys2Proof.Machine.execLinkStateTimeout port s
  | .linkErrorHold port => Sys2Proof.Machine.execLinkErrorHold port s
  | .linkActiveHold port => Sys2Proof.Machine.execLinkActiveHold port s
  | .setEthPort page d => Sys2Proof.Machine.execSetEthPort page d s
  | .createStreamEntry page d => Sys2Proof.Machine.execCreateStreamEntry page d s
  | .deleteStreamEntry page d => Sys2Proof.Machine.execDeleteStreamEntry page d s
  | .setRelay page d => Sys2Proof.Machine.execSetRelay page d s
  | .createFlow page d => Sys2Proof.Machine.execCreateFlow page d s
  | .deleteFlow page d => Sys2Proof.Machine.execDeleteFlow page d s
  | .armYoyo page d => Sys2Proof.Machine.execArmYoyo page d s
  | .yoyoSwitch page d => Sys2Proof.Machine.execYoyoSwitch page d s
  | .getEthStatus page d => Sys2Proof.Machine.execGetEthStatus page d s
  | .sendAnc page d => Sys2Proof.Machine.execSendAnc page d s
  | .ethPacket port p => Sys2Proof.Machine.execEthPacket port p s
  | .ethLinkDown port sub => Sys2Proof.Machine.execEthLinkDown port s sub
  | .ethLinkUp port sub => Sys2Proof.Machine.execEthLinkUp port s sub
  | .yoyoEvaluation pair => Sys2Proof.Machine.execYoyoEvaluation pair s
  | .silenceTimeout pair => Sys2Proof.Machine.execSilenceTimeout pair s
  | .nexthopProbe pair => Sys2Proof.Machine.execNexthopProbe pair s
  | .nexthopTimeout pair => Sys2Proof.Machine.execNexthopTimeout pair s
  | .arpReply port address mac sub => Sys2Proof.Machine.execArpReply port address mac s sub
  | .nexthopRefresh => Sys2Proof.Machine.execNexthopRefresh s
  | .holdoffExpiry pair => Sys2Proof.Machine.execHoldoffExpiry pair s
  | .holdoffRestore pair => Sys2Proof.Machine.execHoldoffRestore pair s
  | .bothLostNexthopHold pair portB => Sys2Proof.Machine.execBothLostNexthopHold pair portB s
  | .getPoolDrives page d => Sys2Proof.Machine.execGetPoolDrives page d s
  | .formatPool page d => Sys2Proof.Machine.execFormatPool page d s
  | .poolDone => Sys2Proof.Machine.execPoolDone s
  | .getPoolStatus page d => Sys2Proof.Machine.execGetPoolStatus page d s
  | .createRecording page d => Sys2Proof.Machine.execCreateRecording page d s
  | .closeRecording page d => Sys2Proof.Machine.execCloseRecording page d s
  | .assignRecording page d => Sys2Proof.Machine.execAssignRecording page d s
  | .exportSegments page d => Sys2Proof.Machine.execExportSegments page d s
  | .readManifest page d => Sys2Proof.Machine.execReadManifest page d s
  | .markExported page d => Sys2Proof.Machine.execMarkExported page d s
  | .deleteSegments page d => Sys2Proof.Machine.execDeleteSegments page d s
  | .getRecordingStatus page d => Sys2Proof.Machine.execGetRecordingStatus page d s
  | .createEncodeContext page d => Sys2Proof.Machine.execCreateEncodeContext page d s
  | .deleteEncodeContext page d => Sys2Proof.Machine.execDeleteEncodeContext page d s
  | .getEncodeStatus page d => Sys2Proof.Machine.execGetEncodeStatus page d s
  | .encodeFrameDone ctx bytes clipped => Sys2Proof.Machine.execEncodeFrameDone ctx bytes clipped s
  | .drivePresenceChange root d added => Sys2Proof.Machine.execDrivePresenceChange root d added s
  | .nvmeCompletion slot ok => Sys2Proof.Machine.execNvmeCompletion slot ok s
  | .nvmeTimeout slot => Sys2Proof.Machine.execNvmeTimeout slot s
  | .stallHeaderRetry slot ok => Sys2Proof.Machine.execStallHeaderRetry slot ok s
  | .smartPoll root warning => Sys2Proof.Machine.execSmartPoll root warning s
  | .segmentTimeLimit stream => Sys2Proof.Machine.execSegmentTimeLimit stream s
  | .postrollExpiry stream => Sys2Proof.Machine.execPostrollExpiry stream s
  | .manifestSigned => Sys2Proof.Machine.execManifestSigned s
  | .generateKey page d => Sys2Proof.Machine.execGenerateKey page d s
  | .zeroiseKey page d => Sys2Proof.Machine.execZeroiseKey page d s
  | .getAttestation page d => Sys2Proof.Machine.execGetAttestation page d s
  | .getIdentity page d => Sys2Proof.Machine.execGetIdentity page d s
  | .signDigest page d => Sys2Proof.Machine.execSignDigest page d s
  | .cryptData page d => Sys2Proof.Machine.execCryptData page d s
  | .getVaultStatus page d => Sys2Proof.Machine.execGetVaultStatus page d s
  | .entropyHealthChange healthy => Sys2Proof.Machine.execEntropyHealthChange healthy s
  | .setDomino page d => Sys2Proof.Machine.execSetDomino page d s
  | .getDominoStatus page d => Sys2Proof.Machine.execGetDominoStatus page d s
  | .createExport page d => Sys2Proof.Machine.execCreateExport page d s
  | .deleteExport page d => Sys2Proof.Machine.execDeleteExport page d s
  | .createImport page d => Sys2Proof.Machine.execCreateImport page d s
  | .dominoQuery page d => Sys2Proof.Machine.execDominoQuery page d s
  | .groupFrameStart => Sys2Proof.Machine.execGroupFrameStart s
  | .beaconBlock ring b dNs => Sys2Proof.Machine.execBeaconBlock ring b dNs s
  | .markBlock ring b dNs => Sys2Proof.Machine.execMarkBlock ring b dNs s
  | .stateBlock ring b => Sys2Proof.Machine.execStateBlock ring b s
  | .requestBlock ring b => Sys2Proof.Machine.execRequestBlock ring b s
  | .answerBlock ring b => Sys2Proof.Machine.execAnswerBlock ring b s
  | .importRequestTimeout => Sys2Proof.Machine.execImportRequestTimeout s
  | .subscriptionRenew source => Sys2Proof.Machine.execSubscriptionRenew source s
  | .renewExpired member xport ring => Sys2Proof.Machine.execRenewExpired member xport ring s
  | .leaderlessTimeout => Sys2Proof.Machine.execLeaderlessTimeout s
  | .formFail loopNs => Sys2Proof.Machine.execFormFail loopNs s
  | .divergencePersist => Sys2Proof.Machine.execDivergencePersist s
  | .setEventDelivery page d => Sys2Proof.Machine.execSetEventDelivery page d s
  | .readEvents page d => Sys2Proof.Machine.execReadEvents page d s
  | .setSeverity page d => Sys2Proof.Machine.execSetSeverity page d s
  | .getFaultStatus page d => Sys2Proof.Machine.execGetFaultStatus page d s
  | .setQuietPeriod page d => Sys2Proof.Machine.execSetQuietPeriod page d s
  | .ackFault page d => Sys2Proof.Machine.execAckFault page d s
  | .setEventTimer page d => Sys2Proof.Machine.execSetEventTimer page d s
  | .eventTimerExpiry timer => Sys2Proof.Machine.execEventTimerExpiry timer s
  | .hbmEccUncorrected rivals => Sys2Proof.Machine.execHbmEccUncorrected rivals s
  | .hbmEccCorrected => Sys2Proof.Machine.execHbmEccCorrected s
  | .faultExit rival => Sys2Proof.Machine.execFaultExit rival s
  | .musicBoxFoldExpiry source => Sys2Proof.Machine.execMusicBoxFoldExpiry source s
  | .firmwareException => Sys2Proof.Machine.execFirmwareException s
  | .writeParamPage page d => Sys2Proof.Machine.execWriteParamPage page d s
  | .readParamPage page d => Sys2Proof.Machine.execReadParamPage page d s
  | .store page d => Sys2Proof.Machine.execStore page d s
  | .recallParams page d => Sys2Proof.Machine.execRecallParams page d s
  | .readMusicBox page d => Sys2Proof.Machine.execReadMusicBox page d s
  | .writeNote page d => Sys2Proof.Machine.execWriteNote page d s
  | .getPersistStatus page d => Sys2Proof.Machine.execGetPersistStatus page d s
  | .getTamper page d => Sys2Proof.Machine.execGetTamper page d s
  | .setTamper page d => Sys2Proof.Machine.execSetTamper page d s
  | .storeDone failed => Sys2Proof.Machine.execStoreDone failed s
  | .powerFailDetect brownOut pfail storeCompletes failed => Sys2Proof.Machine.execPowerFailDetect brownOut pfail storeCompletes s failed
  | .checkpointTimer => Sys2Proof.Machine.execCheckpointTimer s
  | .tamperEdge input high => Sys2Proof.Machine.execTamperEdge input high s
  | .vbatCheck millivolts => Sys2Proof.Machine.execVbatCheck millivolts s
  | .setEnvelope page d => Sys2Proof.Machine.execSetEnvelope page d s
  | .setThermal page d => Sys2Proof.Machine.execSetThermal page d s
  | .setAdc page d => Sys2Proof.Machine.execSetAdc page d s
  | .getHealth page d => Sys2Proof.Machine.execGetHealth page d s
  | .plannerRun slowdowns nack edges => Sys2Proof.Machine.execPlannerRun slowdowns nack edges s
  | .thermalSample readings lost => Sys2Proof.Machine.execThermalSample readings s lost
  | .throttleHoldExpiry lost => Sys2Proof.Machine.execThrottleHoldExpiry s lost
  | .hbmTemperature tenths stack => Sys2Proof.Machine.execHbmTemperature tenths s stack
  | .railExcursion rail above back => Sys2Proof.Machine.execRailExcursion rail above s back
  | .adcConversionDone input startCode endCode => Sys2Proof.Machine.execAdcConversionDone input startCode endCode s
  | .getFwStatus page d => Sys2Proof.Machine.execGetFwStatus page d s
  | .flashRead page d => Sys2Proof.Machine.execFlashRead page d s
  | .flashErase page d => Sys2Proof.Machine.execFlashErase page d s
  | .flashWrite page d => Sys2Proof.Machine.execFlashWrite page d s
  | .flashDone badAddress => Sys2Proof.Machine.execFlashDone badAddress s
  | .fwActivate page d => Sys2Proof.Machine.execFwActivate page d s
  | .fwConfirm page d => Sys2Proof.Machine.execFwConfirm page d s
  | .porstNRelease st => Sys2Proof.Machine.execPorstNRelease st s
  | .porstNAssert => Sys2Proof.Machine.execPorstNAssert s
  | .watchdogExpiry => Sys2Proof.Machine.execWatchdogExpiry s
  | .lockedSequenceTimeout master target => Sys2Proof.Machine.execLockedSequenceTimeout master target s
  | .pcieLinkDown => Sys2Proof.Machine.execPcieLinkDown s
  | .pcieLinkUp => Sys2Proof.Machine.execPcieLinkUp s
  | .pcieHotReset => Sys2Proof.Machine.execPcieHotReset s
  | .vfFlr fn => Sys2Proof.Machine.execVfFlr fn s
  | .pfFlr => Sys2Proof.Machine.execPfFlr s
  | .gpioEdge pin => Sys2Proof.Machine.execGpioEdge pin s
  | .srcRelock source => Sys2Proof.Machine.execSrcRelock source s
  | .prbsSync port lane => Sys2Proof.Machine.execPrbsSync port lane s
  | .prbsSyncLost port lane errors blocks => Sys2Proof.Machine.execPrbsSyncLost port lane errors blocks s
  | .fecCodewordUncorrected port sub => Sys2Proof.Machine.execFecCodewordUncorrected port s sub
  | .resolveFail port address sub => Sys2Proof.Machine.execResolveFail port address s sub
  | .readObjectDone rows pcieError => Sys2Proof.Machine.execReadObjectDone rows pcieError s
  | .exportDone units pcieError => Sys2Proof.Machine.execExportDone units pcieError s
  | .digestSigned => Sys2Proof.Machine.execDigestSigned s
  | .hbmSleepExit => Sys2Proof.Machine.execHbmSleepExit s
  | .audioOutputPacket output => Sys2Proof.Machine.execAudioOutputPacket output s
  | .pcieAerError uncorrectable => Sys2Proof.Machine.execPcieAerError uncorrectable s
  | .debugAttach => Sys2Proof.Machine.execDebugAttach s
  | .debugDetach => Sys2Proof.Machine.execDebugDetach s
  | .debugHalt => Sys2Proof.Machine.execDebugHalt s
  | .vddCoreBrownOutEnd st => Sys2Proof.Machine.execVddCoreBrownOutEnd st s

end Sys2Proof.Machine
end

