-- ==== Sys2Proof/Machine/Tick.lean ====
section
/-! DEFINITION. What happens while no command waits: powered time passes (R9, R390). -/

namespace Sys2Proof.Machine

/-- RP_PERST_N0–3 rise when their time has come (R442). -/
def perstRise (s : State) : State :=
  match s.sys.perstDue with
  | some t => if t ≤ now s then send (.rpPerst 15) { s with sys := { s.sys with rpPerst := 15, perstDue := none } } else s
  | none => s

/-- A microsecond passes: the powered-time counter counts while it runs (R390), frame pulses that are due leave (R276),
lost link inputs enter GAP (R258), lanes under test send and check (R297), encode contexts and flows read the frames whose instant D has come (Table 7-2), HBM wakes when the lowest tolerance has fallen to its threshold (R227), a Domino window that is due opens (R361), and
RP_PERST_N0–3 rise 100 ms after the reference output is stable (R442). -/
def tick (s : State) : State :=
  perstRise <| openDue <| hbmWake <| readDue <| gapsDue <| prbsTick <| firePulses (if s.sys.ptimeRuns then { s with sys := { s.sys with ptime := s.sys.ptime + 1 } } else s)

end Sys2Proof.Machine
end

