-- ==== Sys2Proof/Safety.lean ====
section
/-! DEFINITION. The terms claims are made in: the safe states, the commands that pass the checks of R38, and
what a row of the table that is a mailbox opcode does when its own section executes it. -/

namespace Sys2Proof.Safety

open Sys2Proof Sys2Proof.Machine

/-- A safe state: host memory in its canonical form, the page served last one of the sixteen, and every waiting
command a command of the table. -/
def Safe (s : State) : Prop :=
  memWf 0 s.hostMem = true ∧ s.lastServed < 16 ∧ ∀ c ∈ s.pending, c.wf = true

/-! ### A descriptor under execution (R38) -/

/-- The state once tag lookup has been made on page p: TAG_LAST and the round-robin have moved. -/
def taken (page : Fin 16) (d : Desc) (s : State) : State :=
  modBox page.val (fun m => { m with tagLast := d.tag }) { s with lastServed := page.val }

/-- The body words a command's own section sees: a word that the body leaves out reads as its default (R36, R37). -/
def bodyOf (sp : OpSpec) (d : Desc) (s : State) : List Word := (bodyWords (some sp) d (fetchBulk (some sp) d s)).1

/-- The command as its own section sees it. -/
def ctxOf (sp : OpSpec) (page : Fin 16) (d : Desc) (s : State) : Ctx :=
  { page := page.val, tag := d.tag, epoch := d.epoch, body := bodyOf sp d s
    len := (bodyWords (some sp) d (fetchBulk (some sp) d s)).2, bulk := d.bulk }

/-- Nothing falls due at this microsecond: no frame pulse of its own (R276), no lane under test (R297), no audio input that
enters GAP (R258), no frame of an encode context or flow (Table 7-2), no HBM exit (R227), no Domino window (R361), no rise of
RP_PERST_N (R442). -/
def NothingDue (s : State) : Prop :=
  (∀ e ∈ s.time.pulses, e.2.flywheel = false ∧ ∀ d, e.2.due = some d → clockNow s < d) ∧
  (∀ e ∈ s.ports, e.2.test = false) ∧ (∀ e ∈ s.audio.inputs, ∀ t, e.2.gapDue = some t → now s < t) ∧
  (∀ e ∈ s.dests, ∀ t, e.2.readAt = some t → now s < t) ∧
  (s.health.hbmSleep = 0 ∨ hbmIdle s = true ∧ (if s.health.hbmSleep = 2 then 3000 else 1050) < lowestTolerance s) ∧
  (∀ t, s.domino.opensAt = some t → now s < t) ∧ ∀ t, s.sys.perstDue = some t → now s < t

/-- A microsecond of powered time later, while the counter runs (R390). -/
def microsecond (s : State) : State :=
  if s.sys.ptimeRuns then { s with sys := { s.sys with ptime := s.sys.ptime + 1 } } else s

/-- Page p's mailbox has the descriptor taken: the page can have a command taken, and no tag in its window is
the descriptor's (R31, R32, R41). -/
def Fresh (page : Fin 16) (d : Desc) (s : State) : Prop :=
  d.Wf ∧ canTake s page.val = true ∧ (box s page.val).window.find? (fun e => decide (e.tag = d.tag)) = none

/-- The descriptor is taken, passes steps 1–7 of R38, and its own section executes it: a device that runs from its
ROM accepts the opcode (R421). -/
def Admitted (sp : OpSpec) (page : Fin 16) (d : Desc) (s : State) : Prop :=
  Fresh page d s ∧ (s.sys.phase = .romRecovery → romAccepts sp.op (bodyOf sp d s) = true)
    ∧ checkDesc page.val sp.op (some sp) d (fetchBulk (some sp) d s) (bodyOf sp d s) (box s page.val) = none

/-- The completion of a descriptor: it enters the window, is posted, and leaves a change record where its
section says so (R39, R41, R72). -/
def completion (sp : OpSpec) (page : Fin 16) (d : Desc) (s : State) (h : Nat) (st : Status) (res : List Word)
    (t : State) : State :=
  finish page.val sp.op d.tag (digestOf sp.op d (fetchBulk (some sp) d s)) true (sp.log (bodyOf sp d s)) h st res t

/-- A row of the table that is an opcode executes: where its descriptor is admitted and `pre` holds of the
command and of the state that its section sees, the next state is `post` of them, with the completion that has
the status `st` and the result words `res`. -/
def Row (i : Fin 16 → Desc → Instr) (sp : OpSpec) (pre : Ctx → State → Prop) (st : Status)
    (res : Ctx → State → List Word) (post : Ctx → State → State) : Prop :=
  ∀ (page : Fin 16) (d : Desc) (s : State), Admitted sp page d s →
    pre (ctxOf sp page d s) (taken page d s) →
    exec (i page d) s = .next (completion sp page d s
      (sp.named (bodyOf sp d s) (res (ctxOf sp page d s) (taken page d s))) st
      (res (ctxOf sp page d s) (taken page d s)) (post (ctxOf sp page d s) (taken page d s)))

/-- A row that completes later (R31): Puppeteer executes it on, and nothing is posted yet. -/
def RowWaits (i : Fin 16 → Desc → Instr) (sp : OpSpec) (pre : Ctx → State → Prop)
    (wait : Ctx → State → Waiting) (post : Ctx → State → State) : Prop :=
  ∀ (page : Fin 16) (d : Desc) (s : State), Admitted sp page d s →
    pre (ctxOf sp page d s) (taken page d s) →
    exec (i page d) s = .next { post (ctxOf sp page d s) (taken page d s) with
      exec := some {
        page := page.val, opcode := sp.op, tag := d.tag, epoch := d.epoch
        digest := digestOf sp.op d (fetchBulk (some sp) d s), firstHandle := sp.named (bodyOf sp d s) []
        takenAt := now (taken page d s), bound := sp.bound
        waits := wait (ctxOf sp page d s) (taken page d s) } }

/-- A row whose own section turns the command away: the state that the section sees is left as it is (R54). -/
def RowRefuses (i : Fin 16 → Desc → Instr) (sp : OpSpec) (pre : Ctx → State → Prop) (st : Status) : Prop :=
  ∀ (page : Fin 16) (d : Desc) (s : State), Admitted sp page d s →
    pre (ctxOf sp page d s) (taken page d s) →
    exec (i page d) s = .next (completion sp page d s 0 st [] (taken page d s))

/-- No condition beyond the checks of R38. -/
def Always (_ : Ctx) (_ : State) : Prop := True

/-- No result word. -/
def nothing (_ : Ctx) (_ : State) : List Word := []

/-- The state that the section sees, unchanged. -/
def same (_ : Ctx) (s : State) : State := s

/-- No PCIe error meets an access to the n bytes of host memory from an address up (R37). -/
def Reaches (s : State) (a n : Nat) : Prop := n ≤ dmaReach s a n

/-- Host memory with a block written; nothing else changes. -/
def wrote (a : Nat) (bs : List Byte) (s : State) : State := { s with hostMem := memWrite 0 s.hostMem a bs }

/-! ### Handles of a command (R11, R69) -/

/-- Body word 0 names a live source that the issuer may read: its own, one granted to it, or any for P0. -/
def Reads (c : Ctx) (s : State) (x : Source) : Prop :=
  handleFault c.page s (bn c 0) [1] = none ∧ liveSource s (bn c 0) = some x

/-- Body word 0 names a live source of the issuer, or any for P0. -/
def Owns (c : Ctx) (s : State) (x : Source) : Prop := Reads c s x ∧ (c.page = 0 ∨ x.owner = c.page)

/-- Body word 0 is a handle of type `type` that the issuer may name. -/
def Names (c : Ctx) (s : State) (type : Nat) : Prop := handleFault c.page s (bn c 0) [type] = none

/-! ### Staging (R46) -/

/-- The staged set of page p with an item staged: it replaces the item it supersedes and takes its place, or goes to
the end. -/
def restaged (p : Nat) (supersedes : Staged → Bool) (item : Staged) (s : State) : List Staged :=
  if (box s p).staged.any supersedes then (box s p).staged.map (fun i => if supersedes i then item else i)
  else (box s p).staged ++ [item]

/-- The item fits: it supersedes one, or the set holds fewer than 4,096. -/
def HasRoom (p : Nat) (supersedes : Staged → Bool) (s : State) : Prop :=
  (box s p).staged.any supersedes = true ∨ (box s p).staged.length < 4096

/-- The state with the item staged. -/
def withStaged (p : Nat) (supersedes : Staged → Bool) (item : Staged) (s : State) : State :=
  setBox p { box s p with staged := restaged p supersedes item s } s

/-! ### Sources that are made (R103, R107) -/

/-- The results of a command that makes a source on IC unit u: the handle, the unit and the pages of its ring. -/
def madeWords (u : Nat) (m : Handle × State) : List Word := [word m.1, word u, word (ringPages m.2 m.1)]

/-- A stream on an IC unit fits: quota 4, a unit with room, the object limit, and admission (R91, R103). -/
def StreamFits (c : Ctx) (k : SrcKind) (f : Format) (u : Nat) (s : State) : Prop :=
  quotaUse s c.page 4 < quotaOf s c.page 4 ∧
  (if f.ic = 15 then chooseIc s f = some u else icStreams s f.ic < 32 ∧ u = f.ic) ∧
  (makeSource c.page k f u s).2.objects.length ≤ 262144 ∧ shortfall s (makeSource c.page k f u s).2 = none

/-- Fields of CREATE_DECODE_CONTEXT with their defaults: DPB and RING_DEPTH. -/
def decodeDpb (c : Ctx) : Nat := if bf c 1 15 11 = 0 then 3 else bf c 1 15 11
def decodeRing (c : Ctx) : Nat := if bf c 1 24 20 = 0 then 4 else bf c 1 24 20

/-- The ranges of CREATE_DECODE_CONTEXT (R107). -/
def DecodeInRange (c : Ctx) : Prop :=
  (bf c 1 7 0 ≤ 47 ∨ bf c 1 7 0 = 255) ∧ 2 ≤ decodeDpb c ∧ decodeDpb c ≤ 17 ∧ rate1001 (bf c 1 19 16) ≠ 0 ∧
  2 ≤ decodeRing c ∧ decodeRing c ≤ 16 ∧ 64 ≤ bf c 2 12 0 ∧ bf c 2 12 0 ≤ 4096 ∧ 64 ≤ bf c 2 27 16 ∧
  bf c 2 27 16 ≤ 2304 ∧ bf c 2 12 0 * bf c 2 27 16 ≤ 8912896 ∧ 4096 ≤ bn c 3 ∧ bn c 3 ≤ 8388608

/-- A decode context on core k and its source: their handles, and the state with both. -/
def makeDecode (c : Ctx) (k : Nat) (s : State) : Handle × Handle × State :=
  let f : Format := { width := bf c 2 12 0, height := bf c 2 27 16, rate := bf c 1 19 16, sampling := 2
                      depth := b1 (bb c 1 9), store := if bb c 1 9 then 2 else 3, ringDepth := decodeRing c }
  let m := makeSource c.page (.decoded (newHandle c.page 8 s).1) f 15 (newHandle c.page 8 s).2
  ((newHandle c.page 8 s).1, m.1, { m.2 with decodes := tset m.2.decodes (newHandle c.page 8 s).1 {
    owner := c.page, input := bn c 0, source := m.1, core := k, h265 := bb c 1 8, depth10 := bb c 1 9
    conceal := bb c 1 10, dpb := decodeDpb c, rate := bf c 1 19 16, maxW := bf c 2 12 0, maxH := bf c 2 27 16
    maxAu := bn c 3, refUnits := refUnitsOf (bf c 2 12 0) (bf c 2 27 16) (decodeDpb c) (bb c 1 9) } })

/-- The rectangle of UPLOAD_SURFACE: the whole surface where it is empty (R101). -/
def uploadRect (c : Ctx) (s : State) : Rect :=
  if bf c 5 15 0 ≤ bf c 4 15 0 ∨ bf c 5 31 16 ≤ bf c 4 31 16 then
    ⟨0, 0, (nextFmt s (bn c 0)).width, (nextFmt s (bn c 0)).height⟩
  else ⟨bf c 4 15 0, bf c 4 31 16, bf c 5 15 0, bf c 5 31 16⟩

/-- An upload that has been accepted: its slot is taken by an object of the surface's format, and the transfer of the
rectangle runs. -/
def uploading (c : Ctx) (id : Nat) (r : Rect) (s : State) (t : Nat) : State :=
  let y := srcGet s (bn c 0)
  let s1 := takeSlot (bn c 0) id (stamp s {
    format := 1, variant := variantOf y.fmt, w := y.fmt.width, h := y.fmt.height, colour := y.fmt.colour
    freeOrder := (objGet s id).freeOrder }) s
  { s1 with uploads := tset s1.uploads (bn c 0) {
      issuer := c.page, addr := bn64 c 1, pitch := bf c 3 15 0, rect := r, slot := id, capture := t } }

/-- A transfer that has ended: the rectangle over what the surface showed, closed as its latest frame (R102). -/
def uploaded (h : Handle) (u : Upload) (s : State) : State :=
  let pixel := fun (w : Word) =>
    if (objGet s u.slot).variant = 1 then (bits w 7 0, bits w 15 8, bits w 23 16, bits w 31 24)
    else (bits w 9 0, bits w 19 10, bits w 29 20, bits w 31 30)
  let row := fun (y : Nat) => memRead 0 s.hostMem (u.addr + y * u.pitch + 4 * u.rect.x0) (4 * (u.rect.x1 - u.rect.x0))
  let runs := ((List.range (u.rect.y1 - u.rect.y0)).map (fun i => u.rect.y0 + i)).map
    (fun y => (⟨y, u.rect.x0, (wordsOf (row y)).map pixel⟩ : Run))
  let below := match (srcGet s h).latest with
    | some l => if patchable (objGet s l) (objGet s u.slot) then (objGet s l).content else .black
    | none => .black
  afterClose h u.slot (srcMod h (fun x => { x with frames := sat 0xFFFFFFFF x.frames 1 })
    (closeObj h u.slot (fun o => { o with content := .rows below runs }) { s with uploads := tdel s.uploads h }))

/-! ### Objects, time shift and jobs (R129–R137, R159–R164) -/

/-- The rectangle of body words i and i + 1: all of w × h where it is empty. -/
def askedRect (c : Ctx) (i w h : Nat) : Rect :=
  if bf c (i + 1) 15 0 ≤ bf c i 15 0 ∨ bf c (i + 1) 31 16 ≤ bf c i 31 16 then ⟨0, 0, w, h⟩
  else ⟨bf c i 15 0, bf c i 31 16, bf c (i + 1) 15 0, bf c (i + 1) 31 16⟩

/-- KEEP_EVERY of CREATE_TIMESHIFT with its default. -/
def shiftEvery (c : Ctx) : Nat := if bf c 1 7 0 = 0 then 1 else bf c 1 7 0

/-- A time-shift buffer on source x, and the handle of its delayed source (R135). -/
def makeShift (c : Ctx) (x : Source) (s : State) : Handle × State :=
  let dh := (newHandle x.owner 1 s).1
  let s2 := addSlots dh (footprint x.fmt) x.owner false 4
    (srcPut dh { owner := x.owner, kind := .delayed, fmt := { x.fmt with ringDepth := 4 } } (newHandle x.owner 1 s).2)
  (dh, resizeRings { s2 with shifts := tset s2.shifts dh {
    source := bn c 0, keepEvery := shiftEvery c, frames := bn c 2, delayMs := bn c 3, tier2 := bn c 2 * footprint x.fmt } })

/-- The time-shift buffer of body word 0 with a new delay (R136). -/
def sought (c : Ctx) (x : Shift) (s : State) : State :=
  { s with shifts := tset s.shifts (bn c 0) { x with
    delayMs := bn c 1
    kept := x.kept.map (fun k => { k with recalling := 0, shown := decide (k.capture + bn c 1 * 1000 < now s) }) } }

/-- The parameters of a processed source in body words 1 to 3. -/
def askedProc (c : Ctx) : ProcParams := procParams (bw c 1) (bw c 2) (bw c 3)

/-- CREATE_PROCESSED_SOURCE on the source of body word 0: its handle and the state with it. -/
def processed (c : Ctx) (s : State) : Handle × State :=
  makeProc c.page (bn c 0) (askedProc c) (derived s c.page (bn c 0)) none s

/-- The rungs of SET_LADDER. -/
def askedRungs (c : Ctx) : List (Nat × Nat) :=
  (List.range (bf c 1 6 4)).map (fun i => (bf c (2 + i) 7 0, bf c (2 + i) 15 8))

/-- A job of body word 0 (R163). -/
def HasJob (c : Ctx) (s : State) (x : Job) : Prop :=
  Names c s 5 ∧ tget s.engines.jobs (bn c 0) = some x ∧ x.stream = none

/-- The object that a one-shot job reads, its size and whether it is a field (Table 6-10). -/
def JobReads (c : Ctx) (s : State) (id w h : Nat) (field : Bool) : Prop :=
  (bn c 1 = 0 ∧ bf c 0 7 0 = 8 ∧ (srcGet s (bn c 2)).latest = some id ∧ w = (srcGet s (bn c 2)).fmt.width ∧
    h = (srcGet s (bn c 2)).fmt.height ∧ field = false) ∨
  (¬ (bn c 1 = 0 ∧ bf c 0 7 0 = 8) ∧ handleFault c.page s (bn c 1) [1, 2] = none ∧ w = (objGet s id).w ∧
    h = (objGet s id).h ∧ field = decide ((objGet s id).parity ≠ 0) ∧
    (hType (bn c 1) = 1 ∧ mayRead s c.page (bn c 1) = true ∧ handleFault c.page s (bn c 1) [1] = none ∧
      (∃ x, liveSource s (bn c 1) = some x ∧ isFrames x = true ∧ x.latest = some id) ∨
    hType (bn c 1) ≠ 1 ∧ hPart (bn c 1) = c.page ∧ objOfHandle s (bn c 1) = some id))

/-- The parameters of a one-shot job (R163). -/
def jobParams (c : Ctx) : ProcParams :=
  { kernel := bf c 0 7 0, variant := bf c 0 15 8, slot := bf c 0 19 16, outColour := bf c 5 7 0, strength := bf c 5 11 8 }

/-- The ranges and agreements of SUBMIT_JOB on target y with output rectangle r (R163, R164). -/
def JobFits (c : Ctx) (s : State) (y : Source) (r : Rect) (w h : Nat) (field : Bool) : Prop :=
  y.kind = .surface ∧ y.owner = c.page ∧
  (bf c 0 7 0 ∈ [1, 4, 5, 6, 7, 8] ∧ kernelK (bf c 0 7 0) (bf c 0 15 8) ≠ 0 ∧ 1000 ≤ bn c 6 ∧ bn c 6 ≤ 10000000 ∧
    (bf c 0 7 0 = 5 → colourGood (bf c 5 7 0) = true) ∧ r.x1 ≤ y.fmt.width ∧ r.y1 ≤ y.fmt.height) ∧
  procApplies (jobParams c) = true ∧ (bf c 0 7 0 = 4 → field = true) ∧
  sizeFault (bf c 0 7 0) w h (r.x1 - r.x0) (r.y1 - r.y0) = none ∧
  slotGood s c.page (bf c 0 7 0) (bf c 0 19 16) = true ∧ targetBusy s (bn c 2) = false ∧ oneShots s c.page < 1024

/-- The cost of the job in µs of an engine. -/
def jobCost (c : Ctx) (r : Rect) : Frac :=
  costC (kernelK (bf c 0 7 0) (bf c 0 15 8)) ((r.x1 - r.x0) * (r.y1 - r.y0))

/-- A row whose own section turns the command away with result words (R35, R54). -/
def RowFails (i : Fin 16 → Desc → Instr) (sp : OpSpec) (pre : Ctx → State → Prop) (st : Status)
    (res : Ctx → State → List Word) : Prop :=
  ∀ (page : Fin 16) (d : Desc) (s : State), Admitted sp page d s →
    pre (ctxOf sp page d s) (taken page d s) →
    exec (i page d) s = .next (completion sp page d s 0 st (res (ctxOf sp page d s) (taken page d s)) (taken page d s))

/-- A row that stages an item: where `pre` holds and the item fits, it is staged, and the result is the number of
staged items (R46). -/
def RowStages (i : Fin 16 → Desc → Instr) (sp : OpSpec) (pre : Ctx → State → Prop) (supersedes : Ctx → Staged → Bool)
    (item : Ctx → State → Staged) : Prop :=
  Row i sp (fun c s => pre c s ∧ HasRoom c.page (supersedes c) s) .ok
    (fun c s => [word (restaged c.page (supersedes c) (item c s) s).length])
    (fun c s => withStaged c.page (supersedes c) (item c s) s)

/-! ### Routes and heads (R166–R188, R189–R244) -/

/-- A route of the issuer, or any for P0. -/
def HasRoute (c : Ctx) (s : State) (r : Route) : Prop := Names c s 3 ∧ tget s.routes (bn c 0) = some r

/-- The issuer holds head h, or is P0; on the odd half of a pair only where the command is one that it takes. -/
def HasHead (c : Ctx) (s : State) (h : Nat) (half : Bool) : Prop :=
  (c.page = 0 ∨ holder s 0 h = c.page) ∧ (oddPaired s h = false ∨ half = true)

/-- Body word 0 is a layer of a head that the issuer holds. -/
def HasLayer (c : Ctx) (s : State) : Prop :=
  destGood (bn c 0) = true ∧ dKind (bn c 0) = 1 ∧ HasHead c s (dHead (bn c 0)) false

/-- ADD_ROUTE of body words 0 to 2: the route's handle, and the state with it staged. -/
def added (c : Ctx) (s : State) : Handle × State := addOne c.page (bn c 0) (bn c 1) (bw c 2) s

/-- The composition of SET_COMPOSITION. -/
def askedComp (c : Ctx) : Comp :=
  { order := (bw c 1).extractLsb' 0 24, background := (bw c 2).extractLsb' 0 30
    transfer := bf c 3 1 0, primaries := bf c 3 3 2, outPreset := bf c 3 7 4 }

/-- The custom timing of SET_HEAD_MODE (R214). -/
def customTiming (c : Ctx) : Timing :=
  { hactive := bf c 3 15 0, htotal := bf c 3 31 16, hfront := bf c 4 15 0, hsync := bf c 4 31 16
    vactive := bf c 5 15 0, vtotal := bf c 5 31 16, vfront := bf c 6 15 0, vsync := bf c 6 31 16
    hback := bf c 7 15 0, vback := bf c 7 31 16, hpol := bb c 8 0, vpol := bb c 8 1 }

/-- SET_HEAD_MODE gives timing t: a listed one, or a good custom one where FORMAT is 0. -/
def AsksTiming (c : Ctx) (t : Timing) : Prop :=
  bf c 0 15 8 ≤ 8 ∧ rate1001 (bf c 0 19 16) ≠ 0 ∧
  (bf c 0 15 8 = 0 ∧ customFault (customTiming c) (bf c 0 19 16) = none ∧ t = customTiming c ∨
    bf c 0 15 8 ≠ 0 ∧ modeTiming (bf c 0 15 8) (bf c 0 19 16) = some t ∧ ∀ i < 6, bw c (3 + i) = 0)

/-- APPLY_LINE of SET_HEAD_MODE with its default. -/
def askedLine (c : Ctx) (t : Timing) : Nat := if bf c 1 15 0 = 65535 then t.vactive else bf c 1 15 0

/-- The mode of SET_HEAD_MODE with timing t. -/
def askedMode (c : Ctx) (t : Timing) : HeadMode :=
  { enable := bb c 0 6, sr := bb c 0 7, format := bf c 0 15 8, rate := bf c 0 19 16, td := bf c 0 23 20
    applyLine := askedLine c t, lineMatch := bf c 1 31 16, srFrames := if bf c 2 7 0 = 0 then 4 else bf c 2 7 0
    timing := t }

/-- A command of the event registers runs, and changes nothing but them, what they send, and the records and stores that a
raise in its cycle starts (R375, R380). -/
def EventsAlone (s : State) (i : Instr) : Prop :=
  ∃ e o q, exec i s = .next { s with events := e, out := o, persist := q }

/-- An unpaired head that is not OFF, of a device not held in reset, comes to a line with the event `code`, which no
other event has served; x is its state. -/
def AloneAt (s : State) (h code : Nat) (x : Head) : Prop :=
  held s = false ∧ x = headGet s h ∧ x.state ≠ 0 ∧ lineHeads s h = [h] ∧ wasServed s h code = false

/-- The other events of the line that have been served with the one that came. -/
def servedWith (h : Nat) (codes : List Nat) (s : State) : State := headPut h { headGet s h with served := codes } s

/-- Two underrun counters in one word, each held at 65,535 (R232). -/
def twoCounts (x : Head) (l : Nat) : Word :=
  pack [(min 65535 (x.underruns.getD l 0), 15, 0), (min 65535 (x.underruns.getD (l + 1) 0), 31, 16)]

/-! ### Audio and reference timing (R245–R277) -/

/-- The fields of CREATE_AUDIO_INPUT are in range and agree, its flow is the issuer's and free, and there is room
(R246, R247, R259). -/
def InputFits (c : Ctx) (s : State) : Prop :=
  inputRange (bf c 1 2 0) (bf c 1 10 4) (bf c 1 12 11) (bf c 2 15 0) (bb c 1 13) (bb c 1 14) = true ∧
  inputAgrees (bf c 1 2 0) (bf c 1 12 11) (bf c 2 15 0) (bb c 1 13) (bn c 0) = true ∧
  ((bf c 1 2 0 = 2 ∨ bf c 1 2 0 = 3) → ownsFlow s c.page (bf c 2 15 0) = true ∧ rxFlow s (bf c 2 15 0) 1 = true) ∧
  (inTaken s).foldl (fun n e => n + e.2) (bf c 1 10 4) ≤ 2048 ∧ inGet s (bn c 0) = none ∧
  ∀ e ∈ s.audio.inputs, e.2.flow ≠ some (bf c 2 15 0)

/-- The state with an audio input on source h at first channel f; outputs that name it hear it (R262). -/
def withInput (c : Ctx) (owner : Nat) (h : Handle) (f : Nat) (s : State) : State :=
  refresh (fun _ k => decide (k.sel = 1 ∧ k.src = h)) 0
    { s with audio := { s.audio with inputs := tset s.audio.inputs h (newInput c owner f) } }

/-- A source of its own for a stand-alone audio flow (R246). -/
def flowSource (c : Ctx) (s : State) : Handle × State :=
  ((newHandle c.page 1 s).1, srcPut (newHandle c.page 1 s).1 {
    owner := c.page, kind := .audio (bf c 2 15 0), state := .running } (newHandle c.page 1 s).2)

/-- Body word 0 names an audio output of the issuer, or any for P0. -/
def HasOutput (c : Ctx) (s : State) (o : AudioOut) : Prop :=
  outputGood (bn c 0) = true ∧ (c.page = 0 ∨ outputOwner s (bn c 0) = c.page) ∧ outGet s (bn c 0) = some o

/-- CREATE_AUDIO_OUTPUT names a port or a transmit audio flow of the issuer, with channels that it carries (R249). -/
def OutputFits (c : Ctx) (s : State) : Prop :=
  outputGood (bn c 0) = true ∧ 1 ≤ bf c 1 6 0 ∧ bf c 1 6 0 ≤ 64 ∧
  (if bn c 0 / 2 ^ 28 = 1 then holder s 1 (bn c 0 % 32) = c.page ∧ bf c 1 6 0 ≤ 16 ∧ bb c 1 8 = false
    else ownsFlow s c.page (bn c 0 % 65536) = true ∧ (bn c 0 / 2 ^ 28 = 2 → ∃ f, tget s.eth.flows (bn c 0 % 65536) = some f ∧
      f.tx = true ∧ f.essence = 1)) ∧
  (outTaken s).foldl (fun k e => k + e.2) (bf c 1 6 0) ≤ 2048 ∧ outGet s (bn c 0) = none

/-- The output that CREATE_AUDIO_OUTPUT makes at first channel f. -/
def newOutput (c : Ctx) (f : Nat) (s : State) : AudioOut :=
  { owner := outputOwner s (bn c 0), channels := bf c 1 6 0, ptime125 := bb c 1 8, first := f
    chans := (List.range (bf c 1 6 0)).map (fun i => (i, {})), rtp := if bn c 0 / 2 ^ 28 = 2 then firstRtp s else 0 }

/-- The channels of an output run for one packet. -/
def packetRuns (s : State) (o : AudioOut) : List (Nat × List Int × Nat × Chan) :=
  o.chans.map (fun e => (e.1, chanRun s (48 * now s / 1000) (if o.ptime125 then 6 else 48) e.2))

/-- The fields of SET_CANDIDATE are in range, agree, and name no input that another entry names (R264). -/
def CandidateFits (c : Ctx) (s : State) : Prop :=
  bf c 0 6 4 ≤ 5 ∧ ((bf c 0 6 4 = 1 ∨ bf c 0 6 4 = 2) → bf c 1 3 0 ≤ 3) ∧
  (bf c 0 6 4 = 3 → bf c 1 3 0 ≤ 7 ∧ bf c 1 23 16 ≤ 127) ∧ (bf c 0 6 4 = 1 → rate1001 (bf c 1 7 4) ≠ 0) ∧
  candAgrees c = true ∧ candClash s (bf c 0 2 0) (bf c 0 6 4) (bf c 1 3 0) (bf c 1 23 16) = false ∧
  (bf c 0 6 4 = 4 → handleFault c.page s (bn c 2) [1] = none ∧ ∃ x, liveSource s (bn c 2) = some x ∧
    ((∃ p a w, x.kind = .link p a w) ∨ ∃ n b a, x.kind = .st2110 n b a))

/-- The entry of SET_CANDIDATE. -/
def askedCandidate (c : Ctx) (s : State) : Candidate :=
  { enable := bb c 0 3, kind := bf c 0 6 4, port := bf c 1 3 0, rate := bf c 1 7 4, falling := bb c 1 8
    ptpDomain := bf c 1 23 16, source := bn c 2, cleanSince := now s
    pendQual := decide (bf c 0 6 4 = 5) && bb c 0 3 }

/-- The list with the entry of SET_CANDIDATE set, or with its index empty for KIND 0; outputs that followed the old
entry's pulses flywheel, and those on the new entry's REFIN take its rate (R276). -/
def candidateSet (c : Ctx) (s : State) : State :=
  let u := renewRate (bf c 0 6 4) (bf c 1 3 0) (bf c 1 7 4) (flyOutputs (candGet s (bf c 0 2 0)) s)
  if bf c 0 6 4 = 0 then { u with time := { u.time with list := tdel u.time.list (bf c 0 2 0) } }
  else candPut (bf c 0 2 0) (askedCandidate c s) u

/-- A field with its default. -/
def orDefault (v d : Nat) : Nat := if v = 0 then d else v

/-- The frame-pulse output of SET_FRAME_PULSE in place of y: a change of OFFSET alone is slewed from where it stands
(R276). -/
def askedPulse (c : Ctx) (s : State) (y : Pulse) : Pulse :=
  { source := bf c 0 8 4, activeHigh := bb c 0 9, offset := sbits (bw c 1) 31 0, width := bf c 2 15 0
    flywheel := decide (17 ≤ bf c 0 8 4) && !((pulseEntry s (bf c 0 8 4 - 17)).map (fun e => e.qualified)).getD true
    rate := ((if bf c 0 8 4 = 0 then none else if bf c 0 8 4 ≤ 16 then some (domainGet s (bf c 0 8 4 - 1)).rate
      else (pulseEntry s (bf c 0 8 4 - 17)).map (fun e => e.rate)) : Option Nat).getD 0
    offsetFrom := if y.source = bf c 0 8 4 then pulseOffset s y else sbits (bw c 1) 31 0, offsetAt := now s
    lastPulse := y.lastPulse, due := if y.source = bf c 0 8 4 then y.due else none
    follow := if y.source = bf c 0 8 4 then y.follow else none }

/-- The rate that a frame-pulse output follows (R276). -/
def pulseRate (c : Ctx) (s : State) : Option Nat :=
  if bf c 0 8 4 = 0 then none
  else if bf c 0 8 4 ≤ 16 then some (domainGet s (bf c 0 8 4 - 1)).rate
  else (pulseEntry s (bf c 0 8 4 - 17)).map (fun e => e.rate)

/-! ### Ports (R278–R324) -/

/-- Body word 0 names port p, which the issuer holds, or any for P0. -/
def HasPort (c : Ctx) (s : State) (p : Nat) : Prop := p = bf c 0 4 0 ∧ (c.page = 0 ∨ holder s 1 p = c.page)

/-- Receive port p takes a good control block of a type that its mode knows (R284, R285). -/
def Hears (s : State) (p : Nat) (b : CtlBlock) (type : Nat) : Prop :=
  (portGet s p).mode ≠ 0 ∧ isRx p = true ∧ b.header = 2 ∧ ctlCrcGood b = true ∧
  knownType (decide ((portGet s p).mode = 2)) (pb b 0) = true ∧ pb b 0 = type

/-- Transmit port p takes a good message of its back channel (R289). -/
def HearsMsg (s : State) (p : Nat) (m : BackMsg) : Prop :=
  (portGet s p).mode ≠ 0 ∧ isRx p = false ∧ msgGood m = true

/-- The port once a message has been taken. -/
def heardMsg (p : Nat) (s : State) : State := portPut p { portGet s p with backValid := true, lastBack := now s } s

/-- A stream block of a type on an ACTIVE receive port belongs to source h. -/
def Carries (s : State) (p : Nat) (b : CtlBlock) (type : Nat) (h : Handle) : Prop :=
  Hears s p b type ∧ (portGet s p).state = 5 ∧ (portGet s p).test = false ∧ (portGet s p).mode ≠ 2 ∧
  streamOn s p (pb b 1 % 4) b.lane.val = some h

/-- SET_LINK_PORT changes what the port is. -/
def portMoves (c : Ctx) (s : State) (p : Nat) : Prop :=
  (portGet s p).mode ≠ bf c 0 6 5 ∨ (portGet s p).rate ≠ bf c 0 9 8 ∨ (portGet s p).lanes ≠ (bw c 0).extractLsb' 12 4

/-- The fields of SET_LINK_PORT set on port p. -/
def portSet (c : Ctx) (p : Nat) (s : State) : State :=
  configure p (bf c 0 6 5) (bf c 0 9 8) ((bw c 0).extractLsb' 12 4) (bw c 0) (bw c 1) s

/-- The fields of SET_LINK_TEST are in range for a port with these lanes (R303). -/
def TestFits (c : Ctx) (x : Port) (p : Nat) : Prop :=
  bf c 0 7 6 ≠ 3 ∧ (bw c 0).extractLsb' 8 4 &&& ~~~ x.lanes = 0 ∧ (isRx p = true → bf c 0 13 12 = 0) ∧
  (bf c 0 13 12 = 2 ↔ bf c 1 7 0 ≠ 0) ∧ (bf c 0 13 12 = 3 → 3 ≤ bf c 1 11 8 ∧ bf c 1 11 8 ≤ 12) ∧
  (bf c 0 13 12 ≠ 3 → bf c 1 11 8 = 0)

/-- One half of the ten words of a record (R292). -/
def recordPart (c : Ctx) (r : List Word) : List Word := if bb c 0 8 then (r.drop 6).take 4 else r.take 6

/-- What a lane's checker has counted (R303). -/
def prbsCount (s : State) (p l : Nat) : Word := word ((tget (portGet s p).prbsErrs l).getD 0)

/-- The status words of a port's page 0, 1 or 2 (R302, R303). -/
def linkWords (s : State) (p page : Nat) : List Word :=
  let x := portGet s p
  if page = 0 then
    [pack [(x.state, 3, 0), (x.locked.toNat, 7, 4), (b1 x.record.isSome, 8, 8), (b1 x.backValid, 9, 9), (b1 x.test, 10, 10),
        (b1 (decide (x.mode ≠ 0)), 11, 11)],
      pack [(x.attempts, 15, 0), (x.failures, 31, 16)], pack [(x.los, 15, 0), (x.lol, 31, 16)],
      pack [(x.lastFailState, 3, 0), (x.lastCause, 15, 8)], word x.skewNs, word x.low2Missed]
  else if page = 1 then
    [word x.headerErrs, word x.crcErrs, word x.protoErrs, word x.dropped, word x.low1Entries, word x.low2Entries]
  else [prbsCount s p 0, prbsCount s p 1, prbsCount s p 2, prbsCount s p 3,
    pack [(x.prbsSync.toNat, 3, 0), (x.resyncs, 31, 16)],
    word (sat 0xFFFFFFFF (x.bitsChecked / 2 ^ 20) 0)]

/-- The port with the counters of one page cleared. -/
def linkCleared (x : Port) (page : Nat) : Port :=
  if page = 0 then { x with failures := 0, los := 0, lol := 0, low2Missed := 0 }
  else if page = 1 then
    { x with headerErrs := 0, crcErrs := 0, protoErrs := 0, dropped := 0, low1Entries := 0, low2Entries := 0 }
  else { x with prbsErrs := [], resyncs := 0, bitsChecked := 0 }

/-- The stream entry of CREATE_STREAM_ENTRY. -/
def askedEntry (c : Ctx) : Entry :=
  { h265 := bb c 0 0, videoPt := bf c 0 7 1, audioPt := bf c 0 14 8, audioEn := bb c 0 16, fallback := bb c 0 15
    addr := addrOf c 1, src := bn128 c 7, maxKbps := bn c 11 }

/-- The state with that entry, and its group joined: the entry's handle beside it (R306). -/
def withAskedEntry (c : Ctx) (s : State) : Handle × State :=
  ((newHandle c.page 1 s).1,
    groupNow true (addrOf c 1) (bn128 c 7) (setEth { (newHandle c.page 1 s).2.eth with
        entries := tset (newHandle c.page 1 s).2.eth.entries (newHandle c.page 1 s).1 (askedEntry c) }
      (srcPut (newHandle c.page 1 s).1 { owner := c.page, kind := .entry } (newHandle c.page 1 s).2)))

/-- The fields of CREATE_STREAM_ENTRY are in range and agree (R306). -/
def EntryFits (c : Ctx) (s : State) : Prop :=
  96 ≤ bf c 0 7 1 ∧ (bb c 0 16 = true → bf c 0 14 8 = 0 ∨ bf c 0 14 8 = 8 ∨ 96 ≤ bf c 0 14 8) ∧ addrFault c 1 s = none ∧
  64 ≤ bn c 11 ∧ bn c 11 ≤ 400000 ∧ (bb c 0 16 = true → bf c 0 14 8 ≠ bf c 0 7 1) ∧ (bb c 0 16 = false → bf c 0 14 8 = 0) ∧
  v4Good (addrOf c 1).ipv6 (bn128 c 7) = true ∧
  (isMulticast (addrOf c 1).ipv6 (addrOf c 1).dst = true ∨ (addrOf c 1).dst = ownAddress s
    ((runsOn s (addrOf c 1).port).getD (2 * ((addrOf c 1).port - 8))) (addrOf c 1).subport (addrOf c 1).ipv6)

/-- The state with the relay targets l of the entry of body word 0. -/
def relayed (c : Ctx) (e : Entry) (l : Tbl Addr) (s : State) : State :=
  rehop (setEth { s.eth with entries := tset s.eth.entries (bn c 0) { e with relays := l } } s)

/-- The target of SET_RELAY; an encode context's goes out on its OUT_PORT (R342). -/
def askedRelay (c : Ctx) (e : Entry) : Addr :=
  if e.encoder.isSome then { addrOf c 2 with port := e.addr.port } else addrOf c 2

/-- CREATE_FLOW of each kind has its fields in range and in agreement (R307, R310–R312). -/
def FlowFits (c : Ctx) (s : State) : Prop :=
  bf c 0 12 11 ≠ 3 ∧ addrFault c 1 s = none ∧ tget s.eth.flows (bf c 0 9 0) = none ∧
  (bb c 0 10 = false → (bf c 0 12 11 = 0 → bf c 0 9 0 ≤ 159) ∧ bb c 0 13 = false ∧ bf c 0 19 16 = 0 ∧
    v4Good (addrOf c 1).ipv6 (bn128 c 7) = true) ∧
  (bb c 0 10 = true → bf c 0 12 11 = 0 → formatRange (formatOf (bw c 7) (bw c 8) (bw c 9)) = true ∧
    formatAgrees (.st2110 0 false none) (formatOf (bw c 7) (bw c 8) (bw c 9)) = true ∧
    (formatOf (bw c 7) (bw c 8) (bw c 9)).store = 0 ∧ bn c 9 = 0) ∧
  (bb c 0 10 = true → bf c 0 12 11 = 1 → bb c 0 13 = false ∧ bn c 7 = 0 ∧ bn c 8 = 0 ∧ bn c 9 = 0) ∧
  (bb c 0 10 = true → bf c 0 12 11 = 2 → bb c 0 13 = false ∧ 96 ≤ bf c 10 6 0 ∧ bn c 9 = 0 ∧
    (∃ v, tget s.eth.flows (bf c 7 9 0) = some v ∧ v.tx = true ∧ v.essence = 0 ∧ v.owner = c.page) ∧
    (bn c 8 ≠ 0 → destGood (bn c 8) = true ∧ dKind (bn c 8) = 1 ∧ sinkHead s (bf c 7 9 0) = some (dHead (bn c 8))))

/-- The flow of CREATE_FLOW (R307–R312). -/
def askedFlow (c : Ctx) (s : State) : Flow :=
  { owner := c.page, tx := bb c 0 10, essence := bf c 0 12 11, wide := bb c 0 13, td := bf c 0 19 16, addr := addrOf c 1
    src := if bb c 0 10 then 0 else bn128 c 7
    fmt := if bb c 0 10 && decide (bf c 0 12 11 = 0) then formatOf (bw c 7) (bw c 8) (bw c 9) else {}
    pt := if bb c 0 10 then bf c 10 6 0 else 0
    pair := if bb c 0 10 && decide (bf c 0 12 11 = 2) then bf c 7 9 0 else 0
    fromLayer := if bb c 0 10 && decide (bf c 0 12 11 = 2) then bn c 8 else 0, since := now s }

/-- The state with that flow; a receive flow joins its group. -/
def withAskedFlow (c : Ctx) (s : State) : State :=
  rehop (if bb c 0 10 then setEth { s.eth with flows := tset s.eth.flows (bf c 0 9 0) (askedFlow c s) } s
    else groupNow true (addrOf c 1) (bn128 c 7)
      (setEth { s.eth with flows := tset s.eth.flows (bf c 0 9 0) (askedFlow c s) } s))

/-- The issuer's flow n, or any for P0. -/
def HasFlow (c : Ctx) (s : State) (n : Nat) (f : Flow) : Prop :=
  tget s.eth.flows n = some f ∧ (c.page = 0 ∨ f.owner = c.page)

/-- The packets of SEND_ANC (R311). -/
def askedAnc (c : Ctx) : List Anc := (List.range (bf c 0 19 16)).map (ancAt c)

/-! ### The pool, the vault and Domino groups (R325–R371) -/

/-- A recorded stream of the issuer, or any for P0. -/
def HasRecording (c : Ctx) (s : State) (x : Recording) : Prop := Names c s 6 ∧ recGet s (bn c 0) = some x

/-- An encode context of the issuer, or any for P0. -/
def HasEncode (c : Ctx) (s : State) (x : EncodeCtx) : Prop := Names c s 9 ∧ tget s.pool.encodes (bn c 0) = some x

/-- The drive slots that FORMAT_POOL names. -/
def askedSlots (c : Ctx) : List Nat := (List.range 256).filter (fun k => bb c (k / 32) (k % 32))

/-- The drives in those slots. -/
def askedDrives (c : Ctx) (s : State) : List Drive := (askedSlots c).map (fun k => (tget s.pool.drives k).getD {})

/-- The word of GET_POOL_DRIVES for a slot (R328). -/
def driveWord (s : State) (k : Nat) : Word :=
  pack [(((tget s.pool.drives k).getD {}).state, 2, 0), (((tget s.pool.drives k).getD {}).root, 5, 4),
    (((tget s.pool.drives k).getD {}).member, 15, 8), (min 65535 (((tget s.pool.drives k).getD {}).slots / 1024), 31, 16)]

/-- The pool with the slots l as its members and a new identity, nothing kept in it (R328). -/
def emptied (l : List Nat) (gib : Nat) (s : State) : State :=
  setPool { s.pool with
    formatting := none, identity := Config.poolIdentity (s.pool.formats - 1), mounted := true, medium := none
    members := l, tier2 := 16 * cdiv (gib * 1024) l.length * l.length, segments := [], manifests := [], queue := []
    abandoned := [], ops := [], redo := [] } s

/-- Former members that are not members any more: FOREIGN, or gone where their drive was missing. -/
def foreigners (l : List Nat) (s t : State) : State :=
  ((s.pool.drives.filter (fun e => decide (3 ≤ e.2.state ∧ e.2.state ≤ 5) && !decide (e.1 ∈ l))).map Prod.fst).foldl
    (fun t k => if ((tget t.pool.drives k).map (fun x => x.state)).getD 0 = 5 then
      setPool { t.pool with drives := tdel t.pool.drives k } (driveState k 0 t) else driveState k 6 t) t

/-- A drive that the pool has formatted is there: it has not gone before POOL_DONE. -/
def driveHere (s : State) (k : Nat) : Bool := decide (((tget s.pool.drives k).map (fun x => x.state)).getD 0 ≠ 0)

/-- The new members, with their headers: MEMBER, or MISSING where the drive has gone. -/
def membered (l : List Nat) (gib : Nat) (s t : State) : State :=
  l.foldl (fun t k => driveState k (if driveHere s k then 3 else 5) (driveMod k (fun x => { x with
    member := l.idxOf k, firstSeg := segArea x.slots gib l.length, segs := x.slots - segArea x.slots gib l.length
    used := [], header := some (headerOf s l gib k) }) t)) t

/-- SEG_MAX_MS of CREATE_RECORDING with its default. -/
def askedSegMs (c : Ctx) : Nat := if bf c 2 15 0 = 0 then 2000 else bf c 2 15 0

/-- PREROLL and POSTROLL of CREATE_RECORDING: the defaults of words that BODY_LEN leaves out are those of FALLBACK. -/
def askedPreroll (c : Ctx) : Nat := if bb c 1 0 = false ∧ c.len < 12 then 0 else bf c 2 31 16
def askedPostroll (c : Ctx) : Nat := if bb c 1 0 = false ∧ c.len < 16 then 0 else bf c 3 15 0

/-- The stream of CREATE_RECORDING. -/
def askedRecording (c : Ctx) (s : State) : Recording :=
  { owner := c.page, streamId := s.pool.nextStreamId, key := bn c 0, fallback := bb c 1 0, roll := bb c 1 1
    segMaxMs := askedSegMs c, preroll := askedPreroll c, postroll := askedPostroll c, state := if bb c 1 0 then 0 else 1 }

/-- The ranges of CREATE_ENCODE_CONTEXT (R342). -/
def EncodeInRange (c : Ctx) : Prop :=
  (bf c 0 7 0 ≤ 15 ∨ bf c 0 7 0 = 255) ∧ rate1001 (bf c 0 19 16) ≠ 0 ∧ 64 ≤ bf c 1 12 0 ∧ bf c 1 12 0 ≤ 3840 ∧
  bf c 1 12 0 % 2 = 0 ∧ 64 ≤ bf c 1 28 16 ∧ bf c 1 28 16 ≤ 2160 ∧ bf c 1 28 16 % 2 = 0 ∧ 64 ≤ bn c 2 ∧ bn c 2 ≤ 400000 ∧
  bf c 3 3 0 ≤ 11 ∧ 96 ≤ bf c 3 10 4

/-- An encode context on core k with its stream entry: the two handles, and the state with both (R342). -/
def makeEncode (c : Ctx) (k : Nat) (s : State) : Handle × Handle × State :=
  let ctx := newHandle c.page 9 s
  let en := newHandle c.page 1 ctx.2
  let t := srcPut en.1 { owner := c.page, kind := .entry } en.2
  let u := setEth { t.eth with entries := tset t.eth.entries en.1 {
    h265 := bb c 0 8, videoPt := bf c 3 10 4, addr := { port := bf c 3 3 0 }, maxKbps := bn c 2, encoder := some ctx.1 } } t
  (ctx.1, en.1, setPool { u.pool with encodes := tset u.pool.encodes ctx.1 {
    owner := c.page, core := k, h265 := bb c 0 8, td := bf c 0 15 12, rate := bf c 0 19 16
    gop := if bf c 0 27 20 = 0 then 60 else bf c 0 27 20, w := bf c 1 12 0, h := bf c 1 28 16, kbps := bn c 2
    outPort := bf c 3 3 0, outPt := bf c 3 10 4, entry := en.1 } } u)

/-- The bytes that a frame encoded in n takes: no more than what BITRATE_KBPS leaves of the last second (R343). -/
def sentBytes (s : State) (x : EncodeCtx) (n : BitVec 32) : Nat := min n.toNat (rateRoom s x)

/-- The context x of handle h once a frame of n bytes has been encoded, and its input released. -/
def encodedFrame (h : Handle) (x : EncodeCtx) (n : Nat) (clip : Bool) (sent : Nat) (s : State) : State :=
  let t := giveRefs (ctxDest h) (.encode h) { s with free := s.free + 1 }
  let same := decide (x.second = second s)
  setPool { t.pool with encodes := tset t.pool.encodes h { x with
    busy := false, frames := sat 0xFFFFFFFF x.frames 1, clipped := sat 0xFFFFFFFF x.clipped (b1 clip)
    window := x.window.filter (fun w => decide (now s < w.1 + 1000000)) ++ [(now s, n)]
    seq := x.seq + BitVec.ofNat 16 sent, second := second s, secondBytes := (if same then x.secondBytes else 0) + n
    lastSecondKbps := lastRate x s } } t

/-- The key of body word 0, slot i: one that the issuer may use or, with `p0`, that P0 may name too; the vault has passed
its known-answer tests (R11, R347, R355). -/
def HasKey (c : Ctx) (s : State) (p0 : Bool) (i : Nat) (x : KeySlot) : Prop :=
  Names c s 7 ∧ (p0 = true ∨ hPart (bn c 0) = c.page) ∧ keySlot s (bn c 0) = some (i, x) ∧ s.vault.selfTest = true

/-- The key of GENERATE_KEY in slot k. -/
def madeKey (c : Ctx) (k : Nat) (s : State) : KeySlot :=
  { gen := (slotGet s k).gen, key := some s.vault.nextKey, type := bf c 0 1 0, policy := bf c 0 6 4, owner := c.page
    debug := s.sys.debug }

/-- A seal of n bytes under key slot x: nonce, ciphertext and tag (R351). -/
def sealedBytes (h : Handle) (x : KeySlot) (data : List Byte) (n : Nat) : List Byte :=
  let key := x.key.getD 0
  let nonce := sealNonce h x.seals
  let ct := (List.range n).map (fun i => (Config.gcmSeal key nonce (beBytes h 4) data).getD i 0)
  nonce ++ ct ++ (List.range 16).map (fun i => (Config.gcmTag key nonce (beBytes h 4) ct).getD i 0)

/-- The tag of a sealed block is the one that its key gives (R351). -/
def tagGood (h : Handle) (x : KeySlot) (data : List Byte) (n : Nat) : Bool :=
  decide (data.drop (n - 16) = (List.range 16).map (fun i =>
    (Config.gcmTag (x.key.getD 0) (data.take 12) (beBytes h 4) ((data.drop 12).take (n - 28))).getD i 0))

/-- The plain bytes of a sealed block. -/
def openedBytes (h : Handle) (x : KeySlot) (data : List Byte) (n : Nat) : List Byte :=
  (List.range (n - 28)).map (fun i =>
    (Config.gcmOpen (x.key.getD 0) (data.take 12) (beBytes h 4) ((data.drop 12).take (n - 28))).getD i 0)

/-- The receive ports of SET_DOMINO, ring by ring, and those of the rings in use. -/
def askedPorts (c : Ctx) : List Nat := (List.range 4).map (fun r => bf c 1 (4 * r + 3) (4 * r))
def usedPorts (c : Ctx) : List Nat := (members (bf c 0 11 8) 4).map (fun r => (askedPorts c).getD r 0)

/-- SET_DOMINO names a member of a group of 2 to 4 with its rings, or no group (R358). -/
def GroupFits (c : Ctx) : Prop :=
  (bf c 0 4 2 = 0 ∧ bf c 0 1 0 = 0 ∧ bf c 0 11 8 = 0 ∨ 2 ≤ bf c 0 4 2 ∧ bf c 0 4 2 ≤ 4 ∧ bf c 0 1 0 < bf c 0 4 2 ∧
    bf c 0 11 8 ≠ 0) ∧
  (∀ r < 4, tb (bf c 0 11 8) r = false → (askedPorts c).getD r 0 = 0) ∧ (usedPorts c).dedup = usedPorts c

/-- The group that SET_DOMINO makes. -/
def askedGroup (c : Ctx) (old : Domino) : Domino :=
  { member := bf c 0 1 0, count := bf c 0 4 2, rings := BitVec.ofNat 4 (bf c 0 11 8), rxPorts := askedPorts c
    body := [bw c 0, bw c 1], state := old.state
    epochs := if bf c 0 4 2 ≠ 0 ∧ bf c 0 1 0 = 0 then old.epochs + 1 else old.epochs
    epoch := if bf c 0 4 2 ≠ 0 ∧ bf c 0 1 0 = 0 then old.epochs + 1 else 0, lostTotal := old.lostTotal
    nextReq := old.nextReq }

/-- The state of the group and the member's place in it, in one word (R366). -/
def groupWord (s : State) : Word :=
  pack [(s.domino.state, 2, 0), (s.domino.member, 4, 3), (s.domino.count, 7, 5),
    (bitmap ((ringsOf s.domino).filter (ringUp s)), 15, 12)]

/-- RING_DEPTH of CREATE_IMPORT with its default. -/
def importDepth (c : Ctx) : Nat := if bf c 1 4 0 = 0 then 4 else bf c 1 4 0

/-- The member takes a control block of a type on ring r. -/
def RingHears (s : State) (r : Nat) (b : CtlBlock) (type : Nat) : Prop :=
  r ∈ ringsOf s.domino ∧ Hears s (ringPort s.domino r) b type ∧ (portGet s (ringPort s.domino r)).mode = 2

/-- The next group frame's number, and the comparison of the member's record with the leader's, or by the leader of each
member's with its own (R361, R367). -/
def nextFrame (s : State) : Domino :=
  let d1 := { s.domino with frame := s.domino.frame + 1 }
  if d1.member = 0 then { d1 with
    peers := (d1.heard.filter (fun e => decide (e.1 ≠ 0))).map (fun e =>
      (e.1, countPeer ((List.range 8).map (peerDiffers (setDomino d1 s) e.1 e.2)) ((tget d1.peers e.1).getD {}))) }
  else match tget d1.heard 0 with
    | none => d1
    | some l =>
      let ds := (List.range 8).map (itemDiffers (setDomino d1 s) l)
      { d1 with
        differs := (List.range 8).map (fun i => if ds.getD i false then d1.differs.getD i 0 + 1 else 0)
        agrees := if ds.any id then 0 else d1.agrees + 1 }

/-- What a member sends when its slot window opens: BEACON or MARK, and the four STATE fragments of its record
(R361, R365). -/
def windowFirst (s : State) : List (List Byte) :=
  (if s.domino.member = 0 then
      [0xB4, 0, 0, BitVec.ofNat 8 s.domino.count] ++ wordBytes s.domino.epoch ++ wordBytes s.domino.frame
    else [0xC3, 0, BitVec.ofNat 8 s.domino.member]) ::
  (List.range 4).map (fun i =>
    [0xD2, 0, BitVec.ofNat 8 s.domino.member, BitVec.ofNat 8 i] ++ ((ownRecord16 s).drop (10 * i)).take 10)

/-! ### COMMIT (R46–R51) -/

/-- The destinations of a commit's group. -/
def groupOf (c : Ctx) : List Nat := (List.range (bf c 0 7 0)).map (fun i => bn c (1 + i))

/-- The configuration a commit of the issuer's staged set would make. -/
def placed (c : Ctx) (s : State) : State := placeAll c.page c.epoch (box s c.page).staged s

/-- A commit that passes every check (R48, R60): its group, its epoch, each staged item, each head that they change,
the count limits and admission. -/
def CommitSound (c : Ctx) (s : State) : Prop :=
  (bf c 0 7 0 ≤ 64 ∧ (bf c 0 7 0 ≠ 0 → 4 + 4 * bf c 0 7 0 ≤ c.len) ∧ ∀ d ∈ groupOf c, destGood d = true) ∧
  (c.epoch ≠ 0 ∧ later c.epoch (box s c.page).epochStaged = true) ∧
  ((∀ d ∈ groupOf c, dKind d ≠ 3) ∧ ((groupOf c).map (destTd s)).dedup.length ≤ 1) ∧
  (box s c.page).staged.findSome? (itemFault c.page s (placed c s)) = none ∧
  (headsChecked (placed c s) (box s c.page).staged).findSome? (headFault c.page (placed c s)) = none ∧
  countsGood (planAll (headsOf (box s c.page).staged) (placed c s)) = true ∧
  shortfall s (planAll (headsOf (box s c.page).staged) (placed c s)) = none

/-- The slot of input `i` has just ended in the present scan (R410, R414), of an enabled input, outside reset. -/
def SlotEnds (i : Fin 8) (s : State) : Prop := adcDue s i.val = true ∧ (adcGet s i.val).enable = true ∧ held s = false

/-- The slot has been taken. -/
def slotTaken (s : State) : State := { s with health := { s.health with adcSlots := slotsEnded s } }

end Sys2Proof.Safety
end

