-- ==== Sys2Proof/Certificates/Slice0/Obligations.lean ====
section
/-! DEFINITION. The statements for the provers. Statements about the whole block come first: the queue, the tick,
the mailbox engine and the register window; then one statement or two for each chapter's commands and events, which
say when each row of the table completes and with what next state. -/

open Sys2Proof Sys2Proof.Machine Sys2Proof.Safety

/-! ### The queue and the tick -/

/-- The command at the front of the queue is executed with the queue's rest. -/
def Obligations.StepRunsFront : Prop :=
  ∀ (s : State) (c : Instr) (cs : List Instr), s.pending = c :: cs → step s = exec c { s with pending := cs }

/-- The model's choice (log entry 1): with no command waiting, a microsecond of powered time passes while the counter
runs. Where nothing is due at its end, nothing else changes; 100 ms after the root ports' reference output is stable
RP_PERST_N0–3 rise (R442). -/
def Obligations.StepIdles : Prop :=
  (∀ s : State, s.pending = [] → step s = .next (tick s)) ∧
  (∀ s : State, NothingDue (microsecond s) → tick s = microsecond s) ∧
  (∀ (s : State) (t : Nat), s.sys.perstDue = some t → t ≤ now (microsecond s) → s.time.pulses = [] →
    (∀ e ∈ s.ports, e.2.test = false) → (∀ e ∈ s.audio.inputs, e.2.gapDue = none) → (∀ e ∈ s.dests, e.2.readAt = none) →
    s.health.hbmSleep = 0 → s.domino.opensAt = none →
    tick s = send (.rpPerst 15) { microsecond s with
      sys := { (microsecond s).sys with rpPerst := 15, perstDue := none } })

/-- Every command of the table answers a next state, in every state; a term that is no command of the table, and only
such a term, stops, by name. -/
def Obligations.CommandsAnswer : Prop :=
  ∀ (c : Instr) (s : State), (c.wf = true → ∃ t, exec c s = .next t) ∧ (c.wf = false → exec c s = .fault .illFormed)

/-- The state after reset is safe. -/
def Obligations.ResetSafe : Prop := Safe State.reset

/-- What reset leaves (R22, Table 2-2, Table 2-4, R374, Table 17-2): no page active, pointers at 0, no source pending,
every general register at its reset value. -/
def Obligations.ResetLeaves : Prop :=
  (∀ p < 16, (box State.reset p).active = false ∧ (box State.reset p).ready = false
    ∧ (box State.reset p).cmdHead = 0 ∧ (box State.reset p).cmdTail = 0 ∧ (box State.reset p).epochStaged = 0
    ∧ (box State.reset p).staged = [] ∧ (box State.reset p).window = []) ∧
  (∀ n < 256, isPending State.reset n = false ∧ causeOf State.reset n = 0) ∧
  (∀ o, readGlobal o State.reset = match o with
    | 0x000 => 0x4896B00D
    | 0x00C => 8
    | _ => 0) ∧
  (∀ h < 64, (headGet State.reset h).state = 1 ∧ (headGet State.reset h).act.mode.timing.hactive = 1280) ∧
  State.reset.sys.rpPerst = 0 ∧ intAsserted State.reset = false ∧ faultAsserted State.reset = false ∧ State.reset.pending = []

/-! ### Descriptors and opcodes (R36, R38) -/

/-- A descriptor's sixteen words read back as its opcode and its fields, for every row that is an opcode and every
value of every field. -/
def Obligations.DescriptorRoundTrip : Prop :=
  ∀ (i : Instr) (p : Fin 16) (op : Nat) (d : Desc), i.command = some (p, op, d) → i.wf = true →
    (descWords op d).length = 16 ∧ descOf (descWords op d) = (op, d)

/-- Sixteen words and the descriptor they spell determine each other: no bit of them is dropped. -/
def Obligations.DescriptorWordsBack : Prop :=
  ∀ ws : List Word, ws.length = 16 → descWords (descOf ws).1 (descOf ws).2 = ws

/-- Every row that is an opcode is the command that Puppeteer finds under that opcode. -/
def Obligations.OpcodeNamesRow : Prop :=
  ∀ (i : Instr) (p : Fin 16) (op : Nat) (d : Desc), i.command = some (p, op, d) →
    ∃ sp, specOf op = some sp ∧ sp.op = op ∧ ∀ s, d.Wf → exec i s = .next (issue sp p d s)

/-- COMMAND_TAKE executes the row that the next descriptor of the served page spells, with CMD_HEAD moved past it. A
page that is not active, not READY or without a free completion slot takes no command, nor does any while a command
executes (R29, R31, R32): every row that is an opcode then leaves the state as it is. -/
def Obligations.TakeRunsRow : Prop :=
  (∀ (s : State) (i : Instr) (p : Fin 16) (op : Nat) (d : Desc), nextPage s = some p.val →
    descOf (slotWords s p.val (box s p.val).cmdHead.toNat) = (op, d) → i.command = some (p, op, d) →
    exec .commandTake s
      = exec i (setBox p.val { box s p.val with cmdHead := (box s p.val).cmdHead + 1 } s)) ∧
  (∀ (s : State) (p : Nat) (op : Nat) (d : Desc), nextPage s = some p →
    descOf (slotWords s p (box s p).cmdHead.toNat) = (op, d) →
    exec .commandTake s
      = .next (runCommand (specOf op) p op d (setBox p { box s p with cmdHead := (box s p).cmdHead + 1 } s))) ∧
  (∀ (i : Instr) (p : Fin 16) (op : Nat) (d : Desc) (s : State), i.command = some (p, op, d) → d.Wf →
    ((box s p.val).active = false ∨ (box s p.val).ready = false ∨ s.exec.isSome = true
      ∨ cplUnread (box s p.val) = 511) →
    exec i s = .next s)

/-- An opcode that no row has is refused with ERR_OPCODE at step 3, where its tag is new and its reserved descriptor
bits are 0. -/
def Obligations.UnknownOpcode : Prop :=
  ∀ (s : State) (p : Fin 16) (op : Nat) (d : Desc), nextPage s = some p.val →
    descOf (slotWords s p.val (box s p.val).cmdHead.toNat) = (op, d) → specOf op = none →
    d.rsvd1 = 0 → d.rsvd3 = 0 → (box s p.val).window.find? (fun e => decide (e.tag = d.tag)) = none →
    exec .commandTake s = .next (finish p.val op d.tag (digestOf op d none) true false 0 .opcode []
      (taken p d (setBox p.val { box s p.val with cmdHead := (box s p.val).cmdHead + 1 } s)))

/-- The page served is the next one, round-robin from the page after the last, that has a command which may be taken
(R31, R32). -/
def Obligations.RoundRobin : Prop :=
  ∀ s : State, s.lastServed < 16 →
    (∀ p, nextPage s = some p → p < 16 ∧ canTake s p = true ∧ cmdWaits s p = true ∧
      ∀ q < 16, canTake s q = true → cmdWaits s q = true → (p + 15 - s.lastServed) % 16 ≤ (q + 15 - s.lastServed) % 16) ∧
    (nextPage s = none → (∀ q < 16, canTake s q = false ∨ cmdWaits s q = false) ∧ exec .commandTake s = .next s)

/-- The checks of R38 in their order, the first that fails giving the status: reserved descriptor bits, the opcode's
authority, the lengths, the BULK fetch, reserved body bits, the epoch (not for a command whose statuses are those of
steps 1 to 4 alone). -/
def Obligations.CheckOrder : Prop :=
  ∀ (sp : OpSpec) (p : Nat) (d : Desc) (block : Option (Option (List Byte))) (body : List Word) (m : Mailbox),
    let check := checkDesc p sp.op (some sp) d block body m
    let step2 := d.rsvd1 = 0 ∧ d.rsvd3 = 0
    let step3 := sp.p0 = true → p = 0
    let step4 := restZero d (if d.bulk then 12 else d.bodyLen.toNat) = true ∧
      (if d.bulk then bulkGood sp d = true
       else sp.bulkOnly = false ∧ sp.minLen ≤ d.bodyLen.toNat ∧ d.bodyLen.toNat ≤ min 48 sp.maxLen)
    let step6 := sp.rsv body = true
    let step7 := sp.guard = false ∨ sp.op = 0x0110 ∨ d.epoch = 0 ∨ d.epoch = m.epochStaged
    (¬step2 → check = some (.range, 2)) ∧
    (step2 → ¬step3 → check = some (.notOwner, 3)) ∧
    (step2 → step3 → ¬step4 → check = some (.length, 4)) ∧
    (step2 → step3 → step4 → block = some none → check = some (.hostDma, 5)) ∧
    (step2 → step3 → step4 → block ≠ some none → ¬step6 → check = some (.range, 6)) ∧
    (step2 → step3 → step4 → block ≠ some none → step6 → ¬step7 → check = some (.state, 7)) ∧
    (step2 → step3 → step4 → block ≠ some none → step6 → step7 → check = none)

/-- A descriptor that fails a check of R38 completes with that status and no result; one that fails at step 4 or 5
does not enter the window (R41). -/
def Obligations.FailedCheckCompletes : Prop :=
  ∀ (i : Instr) (p : Fin 16) (op : Nat) (d : Desc) (s : State) (sp : OpSpec) (st : Status) (k : Nat),
    i.command = some (p, op, d) → specOf op = some sp → Fresh p d s →
    checkDesc p.val op (some sp) d (fetchBulk (some sp) d s) (bodyOf sp d s) (box s p.val) = some (st, k) →
    exec i s = .next (finish p.val op d.tag (digestOf op d (fetchBulk (some sp) d s))
      (decide (k ≠ 4 ∧ k ≠ 5)) false 0 st [] (taken p d s))

/-- An admitted descriptor ends as its own section says: executed, refused, with a failed transfer, or waiting. -/
def Obligations.SectionRuns : Prop :=
  ∀ (i : Instr) (p : Fin 16) (op : Nat) (d : Desc) (s : State) (sp : OpSpec),
    i.command = some (p, op, d) → specOf op = some sp → Admitted sp p d s →
    match sp.run (ctxOf sp p d s) (taken p d s) with
    | .done st res t => exec i s = .next (completion sp p d s (sp.named (bodyOf sp d s) res) st res t)
    | .fail st res => exec i s = .next (completion sp p d s 0 st res (taken p d s))
    | .dma m => exec i s = .next (completion sp p d s 0 .hostDma []
        { taken p d s with hostMem := m, free := s.free + 1 })
    | .wait w t => exec i s = .next { t with exec := some {
        page := p.val, opcode := op, tag := d.tag, epoch := d.epoch
        digest := digestOf op d (fetchBulk (some sp) d s), firstHandle := sp.named (bodyOf sp d s) []
        takenAt := now (taken p d s), bound := sp.bound, waits := w } }

/-- Steps 1 to 7 of R38 turned away, or refused by its own section: a command that ends with an error status and no
transfer leaves every part of the device as it was but its page, the round-robin and the event registers (R54). -/
def Obligations.RefusedChangesNothing : Prop :=
  ∀ (i : Instr) (p : Fin 16) (op : Nat) (d : Desc) (s : State) (sp : OpSpec),
    i.command = some (p, op, d) → specOf op = some sp → Fresh p d s →
    ((∃ st k, checkDesc p.val op (some sp) d (fetchBulk (some sp) d s) (bodyOf sp d s) (box s p.val) = some (st, k)) ∨
      (Admitted sp p d s ∧ ∃ st res, sp.run (ctxOf sp p d s) (taken p d s) = .fail st res)) →
    ∃ b e o r, exec i s = .next { s with lastServed := p.val, boxes := b, events := e, out := o, persist := r } ∧
      ∀ q, q ≠ p.val → box { s with boxes := b } q = box s q

/-- What a completion does: it is posted at CPL_TAIL and enters the window, the oldest of 64 leaving (R32, R39, R41);
no other page, register, object or byte of host memory changes. -/
def Obligations.CompletionFrame : Prop :=
  ∀ (p op : Nat) (tag : BitVec 16) (dg : BitVec 128) (enters logs : Bool) (h : Nat) (st : Status) (res : List Word)
    (s : State),
    let t := finish p op tag dg enters logs h st res s
    let ws := cplWords st tag (box s p).epochStaged res
    box t p = { box s p with
      cplRing := tset (box s p).cplRing (box s p).cplTail.toNat ws, cplTail := (box s p).cplTail + 1
      window := if enters then pushWindow (box s p).window ⟨tag, dg, ws⟩ else (box s p).window } ∧
    (∀ q, q ≠ p → box t q = box s q) ∧
    (∃ b e o r, t = { s with boxes := b, events := e, out := o, persist := r }) ∧
    (pushWindow (box s p).window ⟨tag, dg, ws⟩).length ≤ max 64 (box s p).window.length

/-- R39: the eight words of a completion. -/
def Obligations.CompletionWords : Prop :=
  ∀ (st : Status) (tag : BitVec 16) (epoch : Word) (res : List Word), res.length ≤ 6 →
    let ws := cplWords st tag epoch res
    ws.length = 8 ∧ bits (wd ws 0) 15 0 = statusCode st ∧ bits (wd ws 0) 31 16 = tag.toNat ∧ wd ws 1 = epoch ∧
    (∀ i < 6, wd ws (2 + i) = wd res i) ∧ (∀ i, res.length ≤ i → i < 6 → wd ws (2 + i) = 0)

/-- R42: a command whose tag is in the window is answered from it and not executed; the window is left as it is. A tag
that is not in the window is new. -/
def Obligations.ReplayFromWindow : Prop :=
  ∀ (i : Instr) (p : Fin 16) (op : Nat) (d : Desc) (s : State) (sp : OpSpec),
    i.command = some (p, op, d) → specOf op = some sp → d.Wf → canTake s p.val = true →
    let block := fetchBulk (some sp) d s
    let m := box s p.val
    (∀ e : WinEntry, m.window.find? (fun e => decide (e.tag = d.tag)) = some e →
      let ws :=
        if block = some none then cplWords .hostDma d.tag m.epochStaged []
        else if e.digest = digestOf op d block then
          (if bits (wd e.completion 0) 15 0 = statusCode .ok ∨ bits (wd e.completion 0) 15 0 = statusCode .okPartial
           then pack [(statusCode .okReplayed, 15, 0), (d.tag.toNat, 31, 16)] :: e.completion.drop 1
           else e.completion)
        else cplWords .tagConflict d.tag m.epochStaged []
      ∃ t, exec i s = .next t ∧
        box t p.val = { m with tagLast := d.tag, cplRing := tset m.cplRing m.cplTail.toNat ws, cplTail := m.cplTail + 1 } ∧
        ∃ b v o r, t = { s with lastServed := p.val, boxes := b, events := v, out := o, persist := r }) ∧
    (m.window.find? (fun e => decide (e.tag = d.tag)) = none →
      exec i s = .next (match checkDesc p.val op (some sp) d block (bodyOf sp d s) m with
        | some (st, k) => finish p.val op d.tag (digestOf op d block) (decide (k ≠ 4 ∧ k ≠ 5)) false 0 st [] (taken p d s)
        | none => runBody sp p.val d (digestOf op d block) (ctxOf sp p d s) (taken p d s)))

/-- R33: a notification is posted at NTF_TAIL; where 511 are unread it is lost, NTF_OVF sets and NTF_LOST counts, up to
its width; no slot that is unread is written. -/
def Obligations.NotificationPosted : Prop :=
  ∀ (p type : Nat) (data : List Word) (s : State), (box s p).active = true →
    let m := box s p
    let t := postNtf p type data s
    ((m.ntfTail - m.ntfHead).toNat ≠ 511 →
      (box t p).ntfTail = m.ntfTail + 1 ∧ tget (box t p).ntfRing m.ntfTail.toNat = some (ntfWords s m type data) ∧
      (box t p).ntfOvf = m.ntfOvf ∧ (box t p).ntfLost = m.ntfLost) ∧
    ((m.ntfTail - m.ntfHead).toNat = 511 →
      (box t p).ntfTail = m.ntfTail ∧ (box t p).ntfRing = m.ntfRing ∧ (box t p).ntfOvf = true ∧
      (box t p).ntfLost = min 65535 (m.ntfLost + 1)) ∧
    (box t p).ntfHead = m.ntfHead ∧ (box t p).ntfSeq = m.ntfSeq + 1 ∧
    (∀ k : BitVec 9, (k - m.ntfHead).toNat < (m.ntfTail - m.ntfHead).toNat →
      tget (box t p).ntfRing k.toNat = tget m.ntfRing k.toNat) ∧
    (∃ b e o, t = { s with boxes := b, events := e, out := o }) ∧ ∀ q, q ≠ p → box t q = box s q

/-- R40: the words of a notification; none falls due for a page whose partition is not active. -/
def Obligations.NotificationWords : Prop :=
  ∀ (p type : Nat) (data : List Word) (s : State),
    ((box s p).active = false → postNtf p type data s = s) ∧
    (type < 65536 → data.length ≤ 4 →
      let ws := ntfWords s (box s p) type data
      ws.length = 8 ∧ bits (wd ws 0) 15 0 = type ∧ bits (wd ws 0) 31 16 = (box s p).ntfSeq.toNat ∧
      wd ws 1 = (box s p).epochStaged ∧ wide (wd ws 2) (wd ws 3) = now s ∧ ∀ i < 4, wd ws (4 + i) = wd data i)

/-- R47: epochs are compared by their difference modulo 2³²; a COMMIT whose group is in range and whose epoch is 0, or
not later than EPOCH_STAGED, is refused with ERR_STATE. -/
def Obligations.EpochOrder : Prop :=
  (∀ e1 e2 : Word, later e2 e1 = true ↔ 1 ≤ (e2 - e1).toNat ∧ (e2 - e1).toNat ≤ 2147483647) ∧
  (∀ e : Word, later e e = false) ∧ (∀ e1 e2 : Word, later e2 e1 = true → later e1 e2 = false) ∧
  RowRefuses .commit specCommit (fun c s =>
    bf c 0 7 0 ≤ 64 ∧ (bf c 0 7 0 ≠ 0 → 4 + 4 * bf c 0 7 0 ≤ c.len) ∧
    (∀ i < bf c 0 7 0, destGood (bn c (1 + i)) = true) ∧
    (c.epoch = 0 ∨ later c.epoch (box s c.page).epochStaged = false)) .state

/-- The four steps of R11 for a handle of one type: an unknown type, another type, an owner who has not granted it, an
object that does not exist; only a handle that passes all four reaches the command's own section. -/
def Obligations.HandleChecks : Prop :=
  ∀ (page : Nat) (s : State) (h : Handle) (type : Nat) (x : Option Source) (k : Source → CmdOut), type ∈ List.range 10 → type ≠ 0 →
    let known := 1 ≤ hType h ∧ hType h ≤ 9
    let granted := hPart h = page ∨ page = 0 ∨ (grantOf s h page).isSome = true
    (¬known → withHandle page s h type x k = refuse .noSuchHandle) ∧
    (known → hType h ≠ type → withHandle page s h type x k = refuse .range) ∧
    (known → hType h = type → ¬granted → withHandle page s h type x k = refuse .notOwner) ∧
    (known → hType h = type → granted → x = none → withHandle page s h type x k = refuse .noSuchHandle) ∧
    (known → hType h = type → granted → ∀ y, x = some y → withHandle page s h type x k = k y) ∧
    (∀ part i, part < 16 → i < 2 ^ 24 →
      hPart (handleOf part type i) = part ∧ hType (handleOf part type i) = type ∧ hIndex (handleOf part type i) = i)

/-! ### System and commit (R46–R60) -/

/-- IDENTIFY, GET_CAPABILITIES, GET_VERSIONS, ECHO and RESET (R55–R59): the results the tables give; only RESET changes
anything. RESET of a partition waits until the partition is quiet. -/
def Obligations.SystemCommands : Prop :=
  Row .identify specIdentify Always .ok
    (fun c s => [0x4896B00D, word c.page, Config.uniqueNumber.extractLsb' 0 32, Config.uniqueNumber.extractLsb' 32 32,
      s.sys.bootCount, readGlobal 0x00C s]) same ∧
  Row .getCapabilities specGetCapabilities (fun c _ => bf c 0 7 0 = 0) .ok
    (fun _ _ => [word (64 + 512 * 65536), word (48 + 768 * 65536), word (16 + 256 * 65536), word (8 + 256 * 65536),
      word (8192 + 160 * 65536), word (32 + 8 * 65536)]) same ∧
  Row .getCapabilities specGetCapabilities (fun c _ => bf c 0 7 0 = 1) .ok
    (fun _ s => [192, 720896, word (totalOf s 9), word (16 + 1024 * 65536), word (64 + 4096 * 65536), 262144]) same ∧
  RowRefuses .getCapabilities specGetCapabilities (fun c _ => 1 < bf c 0 7 0) .range ∧
  Row .getVersions specGetVersions Always .ok
    (fun _ s => [s.sys.fwVersion, s.sys.cmdsetVersion, Config.romVersion, s.sys.klibVersion, word s.sys.bootSlot, 0])
    same ∧
  Row .echo specEcho Always .ok (fun c _ => [bw c 0, bw c 1, bw c 2, bw c 3, bw c 4, bw c 5]) same ∧
  Row .reset specReset (fun c _ => bf c 0 1 0 = 1 ∧ bf c 0 11 8 = 0) .ok nothing
    (fun c s => modBox c.page (fun m => { m with
      cmdHead := 0, cmdTail := 0, cplHead := 0, cplTail := 0, ntfHead := 0, ntfTail := 0 }) s) ∧
  RowWaits .reset specReset
    (fun c s => bf c 0 1 0 = 2 ∧ bf c 0 11 8 ≠ 0 ∧ (box s (bf c 0 11 8)).active = true
      ∧ (c.page = 0 ∨ c.page = bf c 0 11 8))
    (fun c _ => .quiet (bf c 0 11 8)) (fun c s => resetPartition (bf c 0 11 8) s) ∧
  Row .reset specReset (fun c _ => bf c 0 1 0 = 3 ∧ bf c 0 11 8 = 0 ∧ c.page = 0) .ok nothing resetDevice

/-- The quiet partition completes RESET and RESET_DONE goes to its page and to the issuer's (R58); a device reset boots
once its 10 ms have passed. -/
def Obligations.ResetEnds : Prop :=
  (∀ (s : State) (e : Executing) (t : Nat), s.exec = some e → e.waits = .quiet t → isQuiet s t = true →
    exec .partitionResetQuiet s = .next (postAll [t, e.page] 0x0102 [word t] (complete e true 0 .ok [] s))) ∧
  (∀ (s : State) (e : Executing) (t : Nat), s.exec = some e → e.waits = .quiet t → isQuiet s t = false →
    exec .partitionResetQuiet s = .next s) ∧
  (∀ (s : State) (st : Straps) (cause t : Nat), s.sys.resetDue = some (cause, t) → t ≤ now s →
    exec (.deviceResetDelay st) s = .next (boot cause st (cold (finishStore (failedRows st) (finishStore (failedRows st) s))))) ∧
  (∀ (s : State) (st : Straps) (cause t : Nat), s.sys.resetDue = some (cause, t) → now s < t →
    exec (.deviceResetDelay st) s = .next s)

/-- COMMIT checks every staged item, the heads they change, the count limits and admission in that order (R48, R60),
and hands all of it off at once, outside the apply span of its group (R49, R51); DISCARD_STAGED and GET_EPOCH. A hand-off
of nothing sets EPOCH_STAGED to the commit's epoch and leaves no destination to wait for (R47, R52). -/
def Obligations.CommitCommands : Prop :=
  Row .commit specCommit (fun c s => CommitSound c s ∧ inSpan s (groupOf c) = false) .ok
    (fun c s => [word (box s c.page).staged.length, word (handOff c.page c.epoch s).1.length])
    (fun c s => (handOff c.page c.epoch s).2) ∧
  RowWaits .commit specCommit (fun c s => CommitSound c s ∧ inSpan s (groupOf c) = true)
    (fun c _ => .handOff c.epoch (groupOf c)) same ∧
  Row .discardStaged specDiscardStaged Always .ok (fun c s => [word (box s c.page).staged.length])
    (fun c s => (box s c.page).staged.foldl (fun s i => match i with
      | .route _ op => dropOp op s
      | _ => s) (setBox c.page { box s c.page with staged := [] } s)) ∧
  Row .getEpoch specGetEpoch Always .ok
    (fun c s => [(box s c.page).epochStaged, appliedMin (box s c.page), word (box s c.page).staged.length,
      word (outstandingKeys (box s c.page)).length]) same ∧
  (∀ (s : State) (e : Executing) (epoch : Word) (g : List Nat), s.exec = some e → e.waits = .handOff epoch g →
    inSpan s g = false →
    exec .commitHandOff s = .next (complete e true 0 .ok
      [word (box s e.page).staged.length, word (handOff e.page epoch s).1.length] (handOff e.page epoch s).2)) ∧
  (∀ (p : Nat) (e : Word) (s : State), (box s p).staged = [] →
    (handOff p e s).1 = [] ∧ (box (handOff p e s).2 p).epochStaged = e ∧ (box (handOff p e s).2 p).staged = [] ∧
    (box (handOff p e s).2 p).outstanding = (box (placeAll p e [] s) p).outstanding)

/-! ### Partitions (R62–R78) -/

/-- The partition class: partitions, quotas, grants and the change log. What a new page holds beyond R74 is the model's choice
(log entry 157). -/
def Obligations.PartitionCommands : Prop :=
  Row .createPartition specCreatePartition
    (fun c s => bf c 0 3 0 ≠ 0 ∧ (box s (bf c 0 3 0)).active = false ∧ tget s.parts (bf c 0 3 0) = none) .ok nothing
    (fun c s => changeOwner (195 + bf c 0 3 0) (setBox (bf c 0 3 0) (newPage (box s (bf c 0 3 0)))
      { s with parts := tset s.parts (bf c 0 3 0) {} })) ∧
  (∀ (p : Nat) (s : State), (evGet (changeOwner p s) p).cause = 0 ∧ (evGet (changeOwner p s) p).enable = 0 ∧
    (evGet (changeOwner p s) p).vector = 0 ∧ (evGet (changeOwner p s) p).int = false) ∧
  Row .deletePartition specDeletePartition
    (fun c s => bf c 0 3 0 ≠ 0 ∧ (box s (bf c 0 3 0)).active = true ∧ (bb c 0 4 = true ∨ keysOf s (bf c 0 3 0) = []))
    .ok nothing (fun c s => deletePartition (bf c 0 3 0) s) ∧
  RowRefuses .deletePartition specDeletePartition
    (fun c s => bf c 0 3 0 ≠ 0 ∧ ((box s (bf c 0 3 0)).active = false ∨ (bb c 0 4 = false ∧ keysOf s (bf c 0 3 0) ≠ [])))
    .state ∧
  Row .setQuota specSetQuota
    (fun c s => bf c 0 3 0 ≠ 0 ∧ 3 ≤ bf c 0 15 8 ∧ bf c 0 15 8 ≤ 11 ∧ (box s (bf c 0 3 0)).active = true
      ∧ (quotaOf s (bf c 0 3 0) (bf c 0 15 8) ≤ bn64 c 1 ∨ useOf s (bf c 0 3 0) (bf c 0 15 8) ≤ bn64 c 1)
      ∧ (if bf c 0 15 8 = 9 ∨ bf c 0 15 8 = 10 then bn64 c 1 ≤ quotaOf s (bf c 0 3 0) (bf c 0 15 8) ∨ bn64 c 1 ≤ totalOf s (bf c 0 15 8)
         else bn64 c 1 ≤ quotaOf s (bf c 0 3 0) (bf c 0 15 8)
           ∨ bn64 c 1 - quotaOf s (bf c 0 3 0) (bf c 0 15 8) ≤ quotaOf s 0 (bf c 0 15 8) - useOf s 0 (bf c 0 15 8)))
    .ok nothing
    (fun c s => if bf c 0 15 8 = 7 then shed 0 (shed (bf c 0 3 0) (putQuota (bf c 0 3 0) 7 (bn64 c 1) s))
      else putQuota (bf c 0 3 0) (bf c 0 15 8) (bn64 c 1) s) ∧
  RowRefuses .setQuota specSetQuota
    (fun c s => bf c 0 3 0 ≠ 0 ∧ 3 ≤ bf c 0 15 8 ∧ bf c 0 15 8 ≤ 11 ∧ (box s (bf c 0 3 0)).active = true
      ∧ bn64 c 1 < quotaOf s (bf c 0 3 0) (bf c 0 15 8) ∧ bn64 c 1 < useOf s (bf c 0 3 0) (bf c 0 15 8)) .state ∧
  Row .setQuota specSetQuota
    (fun c s => bf c 0 3 0 ≠ 0 ∧ (bf c 0 15 8 = 1 ∨ bf c 0 15 8 = 2 ∧ bn64 c 1 < 2 ^ 32)
      ∧ (box s (bf c 0 3 0)).active = true
      ∧ (∀ b ∈ members (bn64 c 1) 64, tb (quotaOf s (bf c 0 3 0) (bf c 0 15 8)) b = false →
          holder s (bf c 0 15 8 - 1) b = 0 ∧ tb (useOf s 0 (bf c 0 15 8)) b = false)
      ∧ (∀ b ∈ members (quotaOf s (bf c 0 3 0) (bf c 0 15 8)) 64, tb (bn64 c 1) b = false →
          tb (useOf s (bf c 0 3 0) (bf c 0 15 8)) b = false))
    .ok nothing
    (fun c s => ((members (bn64 c 1) 64).filter (fun b => !tb (quotaOf s (bf c 0 3 0) (bf c 0 15 8)) b)
      ++ (members (quotaOf s (bf c 0 3 0) (bf c 0 15 8)) 64).filter (fun b => !tb (bn64 c 1) b)).foldl
        (fun s b => moveUnit (bf c 0 15 8) b s) (putQuota (bf c 0 3 0) (bf c 0 15 8) (bn64 c 1) s)) ∧
  Row .getQuota specGetQuota
    (fun c s => bf c 0 15 8 ≠ 0 ∧ bf c 0 15 8 ≤ 11 ∧ bn64 c 1 = 0 ∧ (c.page = 0 ∨ bf c 0 3 0 = c.page)
      ∧ (box s (bf c 0 3 0)).active = true)
    .ok
    (fun c s =>
      let q := quotaOf s (bf c 0 3 0) (bf c 0 15 8)
      let u := useOf s (bf c 0 3 0) (bf c 0 15 8)
      [word q, word (q / 2 ^ 32), word u, word (u / 2 ^ 32)]) same ∧
  (∀ x : Source, Row .grantSource specGrantSource
    (fun c s => Owns c s x ∧ bf c 1 3 0 ≠ x.owner ∧ (box s (bf c 1 3 0)).active = true
      ∧ ((tget s.procs (bn c 0)).bind (fun p => p.granted)) = none
      ∧ ((grantOf s (bn c 0) (bf c 1 3 0)).isSome = true ∨ s.grants.length < 4096))
    .ok nothing (fun c s => putGrant (bn c 0) (bf c 1 3 0) (bb c 1 4) (bb c 1 5) s)) ∧
  (∀ x : Source, Row .revokeGrant specRevokeGrant
    (fun c s => Reads c s x ∧ (c.page = 0 ∨ c.page = x.owner ∨ c.page = bf c 1 3 0))
    .ok nothing (fun c s => revoke (bn c 0) (bf c 1 3 0) s)) ∧
  Row .listGrants specListGrants
    (fun c s => (s.grants.filter (fun g => if bb c 0 0 then decide (g.grantee = c.page)
      else decide (c.page = 0 ∨ hPart g.source = c.page))).length ≤ bf c 0 31 16 + 3) .ok
    (fun c s => ((sortBy grantLe (s.grants.filter (fun g => if bb c 0 0 then decide (g.grantee = c.page)
        else decide (c.page = 0 ∨ hPart g.source = c.page)))).drop (bf c 0 31 16)).flatMap
      (fun g => [word g.source, pack [(if bb c 0 0 then hPart g.source else g.grantee, 3, 0), (b1 g.allowRecord, 4, 4),
        (b1 g.allowEgress, 5, 5)]])) same ∧
  (∀ l : List (List Word), Row .readChangeLog specReadChangeLog
    (fun c s => bn64 c 1 % 4 = 0 ∧ bn c 3 % 64 = 0 ∧ 64 ≤ bn c 3 ∧ bn c 3 ≤ 16384
      ∧ (recordsAfter s (bn c 0)).filter (fun r =>
          decide (bits (wd r 4) 19 16 = 2 ∧ (c.page = 0 ∨ bits (wd r 4) 15 12 = c.page))) = l
      ∧ l.length ≤ bn c 3 / 64 ∧ Reaches s (bn64 c 1) (bytesOf l.flatten).length)
    .ok (fun c _ => [word l.length, (l.getLast?.map (fun r => wd r 3)).getD (word (bn c 0))])
    (fun c s => wrote (bn64 c 1) (bytesOf l.flatten) s)) ∧
  (∀ (p : Fin 16) (s : State) (x : Partition), tget s.parts p.val = some x → x.held = true → isFreed s p.val = true →
    exec (.partitionFreed p) s = .next (postNtf 0 0x0201 [word p.val] { s with parts := tdel s.parts p.val }))

/-! ### Ingress (R79–R107) -/

/-- The commands that make streams, surfaces and decode contexts (R103, R107): where the body is in range and agrees,
what it names is the issuer's and free, and quota and admission allow it, the source is made on the unit assigned, and
the result names it, the unit and its pages. -/
def Obligations.IngressCreates : Prop :=
  (∀ (k : SrcKind) (f : Format) (u : Nat), Row .createLinkStream specCreateLinkStream
    (fun c s => (∃ w, k = .link (bf c 0 3 0) (bf c 0 5 4) w ∧ (bf c 0 7 6 = 0 ∧ w = 1 ∨ bf c 0 7 6 = 1 ∧ w = 2 ∨ bf c 0 7 6 = 2 ∧ w = 4)
        ∧ lanesFit (((tget s.ports (bf c 0 3 0)).map (fun q => q.lanes)).getD 0) (subsOnPort s (bf c 0 3 0)) (bf c 0 5 4) w = true)
      ∧ f = formatOf (bw c 2) (bw c 3) (bw c 4) ∧ holder s 1 (bf c 0 3 0) = c.page ∧ formatRange f = true
      ∧ ((tget s.ports (bf c 0 3 0)).map (fun q => q.mode)).getD 0 ≠ 2 ∧ formatAgrees k f = true
      ∧ (∀ o ∈ subsOnPort s (bf c 0 3 0), o.1 ≠ bf c 0 5 4) ∧ StreamFits c k f u s)
    .ok (fun c s => madeWords u (makeSource c.page k f u s)) (fun c s => (makeSource c.page k f u s).2)) ∧
  (∀ (k : SrcKind) (f : Format) (u : Nat), Row .create2110Stream specCreate2110Stream
    (fun c s => k = .st2110 (bf c 0 7 0) (bb c 0 8) (if bf c 1 15 0 = 0xFFFF then none else some (bf c 1 15 0))
      ∧ f = formatOf (bw c 2) (bw c 3) (bw c 4) ∧ bf c 0 7 0 ≤ 159 ∧ ownsFlow s c.page (bf c 0 7 0) = true
      ∧ rxFlow s (bf c 0 7 0) 0 = true
      ∧ (bf c 1 15 0 = 0xFFFF ∨ bf c 1 15 0 ≤ 1023 ∧ ownsFlow s c.page (bf c 1 15 0) = true ∧ rxFlow s (bf c 1 15 0) 2 = true)
      ∧ formatRange f = true ∧ formatAgrees k f = true
      ∧ (∀ e ∈ s.sources, e.2.deleted = false → ∀ m b a, e.2.kind = .st2110 m b a → m ≠ bf c 0 7 0 ∧
          (a.isSome = true → a ≠ (if bf c 1 15 0 = 0xFFFF then none else some (bf c 1 15 0))))
      ∧ StreamFits c k f u s)
    .ok (fun c s => madeWords u (makeSource c.page k f u s)) (fun c s => (makeSource c.page k f u s).2)) ∧
  (∀ f : Format, Row .createSurfaceSource specCreateSurfaceSource
    (fun c s => f = formatOf (bw c 2) (bw c 3) (bw c 4) ∧ formatRange f = true ∧ formatAgrees .surface f = true
      ∧ (s.sources.filter (fun e => decide (e.2.kind = .surface) && !e.2.deleted)).length < 256
      ∧ (makeSource c.page .surface f 15 s).2.objects.length ≤ 262144
      ∧ shortfall s (makeSource c.page .surface f 15 s).2 = none)
    .ok (fun c s => madeWords 15 (makeSource c.page .surface f 15 s)) (fun c s => (makeSource c.page .surface f 15 s).2)) ∧
  (∀ (x : Source) (k : Nat), Row .createDecodeContext specCreateDecodeContext
    (fun c s => Owns c s x ∧ x.kind = .entry ∧ DecodeInRange c ∧ (bb c 1 9 = true → bb c 1 8 = true)
      ∧ quotaUse s c.page 5 < quotaOf s c.page 5
      ∧ (if bf c 1 7 0 = 255 then chooseCore s ⟨bf c 2 12 0 * bf c 2 27 16 * rate1001 (bf c 1 19 16), 1001⟩ = some k
         else (s.decodes.filter (fun e => decide (e.2.core = bf c 1 7 0))).length < 16 ∧ k = bf c 1 7 0)
      ∧ (makeDecode c k s).2.2.objects.length ≤ 262144 ∧ shortfall s (makeDecode c k s).2.2 = none)
    .ok (fun c s => [word (makeDecode c k s).1, word (makeDecode c k s).2.1, word k,
      word (refUnitsOf (bf c 2 12 0) (bf c 2 27 16) (decodeDpb c) (bb c 1 9))])
    (fun c s => (makeDecode c k s).2.2))

/-- The other commands on streams and decode contexts: staging a format, starting, stopping, deleting, status,
ancillary packets and surface uploads (R90–R107). -/
def Obligations.IngressCommands : Prop :=
  (∀ x : Source, Row .modifyStream specModifyStream
    (fun c s => Owns c s x ∧ isIngress x = true ∧ isImport x = false ∧ bw c 1 = 0
      ∧ formatRange (formatOf (bw c 2) (bw c 3) (bw c 4)) = true
      ∧ formatAgrees x.kind (formatOf (bw c 2) (bw c 3) (bw c 4)) = true
      ∧ HasRoom c.page (fun i => match i with | .stream g _ => decide (g = bn c 0) | _ => false) s)
    .ok (fun c s => [word (restaged c.page (fun i => match i with | .stream g _ => decide (g = bn c 0) | _ => false)
      (.stream (bn c 0) (formatOf (bw c 2) (bw c 3) (bw c 4))) s).length])
    (fun c s => withStaged c.page (fun i => match i with | .stream g _ => decide (g = bn c 0) | _ => false)
      (.stream (bn c 0) (formatOf (bw c 2) (bw c 3) (bw c 4))) s)) ∧
  (∀ x : Source, Row .startStream specStartStream
    (fun c s => Owns c s x ∧ isIngress x = true ∧ x.kind ≠ .surface ∧ x.state = .stopped) .ok nothing
    (fun c s => setStream (bn c 0) .waiting (srcMod (bn c 0) (fun x => { x with
      nextSeq := 1, rxColour := none, lastSeq := none, endedTs := [], fresh := true }) s))) ∧
  (∀ x : Source, Row .stopStream specStopStream
    (fun c s => Owns c s x ∧ isIngress x = true ∧ x.kind ≠ .surface ∧ x.state ≠ .stopped) .ok nothing
    (fun c s => stopStream (bn c 0) s)) ∧
  (∀ x : Source, RowRefuses .startStream specStartStream
    (fun c s => Owns c s x ∧ isIngress x = true ∧ (x.kind = .surface ∨ x.state ≠ .stopped)) .state) ∧
  (∀ x : Source, RowRefuses .stopStream specStopStream
    (fun c s => Owns c s x ∧ isIngress x = true ∧ (x.kind = .surface ∨ x.state = .stopped)) .state) ∧
  (∀ x : Source, Row .deleteStream specDeleteStream (fun c s => Owns c s x ∧ isIngress x = true) .ok nothing
    (fun c s => endIdle (lossReport (portOf s x) (resizeRings (deleteSource (bn c 0) s))))) ∧
  (∀ x : Source, Row .getStreamStatus specGetStreamStatus
    (fun c s => Reads c s x ∧ isIngress x = true ∧ x.kind = .surface ∧ bb c 1 0 = false) .ok
    (fun _ _ => [0, word x.frames]) same) ∧
  (∀ x : Source, Row .getStreamStatus specGetStreamStatus
    (fun c s => Reads c s x ∧ isIngress x = true ∧ x.kind ≠ .surface) .ok
    (fun _ _ => [pack [(stateCode x.state, 1, 0), (b1 x.suspect, 2, 2), (b1 x.lastPatched, 3, 3),
        ((x.rxColour.getD { matrix := 0, transfer := 0 }).matrix, 6, 4),
        ((x.rxColour.getD { matrix := 0, transfer := 0 }).transfer, 8, 7), (b1 x.rxColour.isSome, 9, 9)],
      word x.frames, word x.patchedCount, pack [(x.short, 15, 0), (x.long, 31, 16)],
      pack [(x.lastShape.1, 15, 0), (x.lastShape.2, 31, 16)],
      word (match x.kind with | .st2110 _ _ _ => x.lostPkts | _ => x.linesDropped)])
    (fun c s => if bb c 1 0 then srcMod (bn c 0) (fun x => { x with
      frames := 0, patchedCount := 0, short := 0, long := 0, shortLines := 0, longLines := 0
      lostPkts := 0, latePkts := 0, linesDropped := 0 }) s else s)) ∧
  (∀ x : Source, Row .readAnc specReadAnc
    (fun c s => Owns c s x ∧ isIngress x = true ∧ isImport x = false ∧ bn64 c 1 % 4 = 0 ∧ bn c 3 % 528 = 0
      ∧ 528 ≤ bn c 3 ∧ bn c 3 ≤ 33792 ∧ x.ancQueue.length ≤ bn c 3 / 528
      ∧ Reaches s (bn64 c 1) (bytesOf (x.ancQueue.flatMap ancEntryWords)).length) .ok
    (fun _ _ => [word x.ancQueue.length, word x.ancDropped])
    (fun c s => srcMod (bn c 0) (fun y => { y with ancQueue := y.ancQueue.drop x.ancQueue.length, ancDropped := 0 })
      (wrote (bn64 c 1) (bytesOf (x.ancQueue.flatMap ancEntryWords)) s))) ∧
  (∀ x : Source, Row .readAnc specReadAnc
    (fun c s => Owns c s x ∧ isIngress x = true ∧ isImport x = false ∧ bn64 c 1 % 4 = 0 ∧ bn c 3 % 528 = 0
      ∧ 528 ≤ bn c 3 ∧ bn c 3 ≤ 33792 ∧ bn c 3 / 528 < x.ancQueue.length
      ∧ Reaches s (bn64 c 1) (bytesOf ((x.ancQueue.take (bn c 3 / 528)).flatMap ancEntryWords)).length) .okPartial
    (fun c _ => [word (bn c 3 / 528), word x.ancDropped])
    (fun c s => srcMod (bn c 0) (fun y => { y with ancQueue := y.ancQueue.drop (bn c 3 / 528), ancDropped := 0 })
      (wrote (bn64 c 1) (bytesOf ((x.ancQueue.take (bn c 3 / 528)).flatMap ancEntryWords)) s))) ∧
  (∀ (x : Source) (id : Nat) (r : Rect), Row .uploadSurface specUploadSurface
    (fun c s => Owns c s x ∧ x.kind = .surface ∧ r = uploadRect c s ∧ bn64 c 1 % 4 = 0 ∧ bf c 3 15 0 % 4 = 0
      ∧ 4 * (nextFmt s (bn c 0)).width ≤ bf c 3 15 0 ∧ r.x1 ≤ (nextFmt s (bn c 0)).width
      ∧ r.y1 ≤ (nextFmt s (bn c 0)).height ∧ tget s.uploads (bn c 0) = none
      ∧ pickSlot (applyFormat (bn c 0) s) (bn c 0) = some id) .ok nothing
    (fun c s => uploading c id r (applyFormat (bn c 0) s) (now s))) ∧
  (∀ x : DecodeCtx, Row .deleteDecodeContext specDeleteDecodeContext
    (fun c s => Names c s 8 ∧ tget s.decodes (bn c 0) = some x) .ok nothing
    (fun c s => endIdle (deleteDecode (bn c 0) s))) ∧
  (∀ x : DecodeCtx, Row .getDecodeStatus specGetDecodeStatus
    (fun c s => Names c s 8 ∧ tget s.decodes (bn c 0) = some x) .ok
    (fun _ _ => [word (b1 x.running), word x.pictures, word x.errors, word x.abandoned, word x.dropped,
      word x.concealed]) same) ∧
  (∀ x : DecodeCtx, Row .resyncDecode specResyncDecode
    (fun c s => Names c s 8 ∧ tget s.decodes (bn c 0) = some x) .ok nothing
    (fun c s => { s with decodes := tmod s.decodes (bn c 0) resyncDecode }))

/-- What arrives on streams and in decode contexts, and what ends there (R85–R102, R111). -/
def Obligations.IngressEvents : Prop :=
  (∀ (h : Word) (bottom : Bool) (s : State), icSource s h = true →
    exec (.frameStart h bottom) s = .next (startFrame h.toNat bottom 0 0 s)) ∧
  (∀ (h : Word) (s : State), icSource s h = true → exec (.frameClose h) s = .next (endFrame h.toNat s)) ∧
  (∀ (h : Word) (s : State), icSource s h = true →
    exec (.patchCopyDone h) s = .next (closeFrames h.toNat (srcMod h.toNat (fun x => { x with writing := match x.writing with
      | f :: t => { f with copying := false } :: t
      | [] => [] }) s))) ∧
  (∀ (h : Word) (a : Anc) (s : State), a.Wf → icSource s h = true →
    exec (.ancPacket h a) s = .next (ancArrive h.toNat a s)) ∧
  (∀ (h : Word) (bottom : Bool) (a : Anc) (s : State), a.Wf → icSource s h = false →
    exec (.frameStart h bottom) s = .next s ∧ exec (.frameClose h) s = .next s ∧ exec (.patchCopyDone h) s = .next s ∧
    exec (.ancPacket h a) s = .next s) ∧
  (∀ (h : Word) (x : Source) (s : State), liveSource s h.toNat = some x → x.state = .running →
    x.fmt.stallFrames * (periodUs x.fmt.rate).num ≤ (now s - x.lastStart) * (periodUs x.fmt.rate).den →
    exec (.streamStallTimeout h) s
      = .next (linkGap h.toNat (applyFormat h.toNat (raiseIc h.toNat 3 (setStream h.toNat .stalled s))))) ∧
  (∀ (n : Fin 1024) (p : Rtp) (s : State),
    exec (.st2110Packet n p) s = .next ((tkeys s.sources).foldl (fun t h =>
      if (liveSource t h).any (fun x => decide (flowOf x = some n.val)) then videoPacket h p t else t) s)) ∧
  (∀ (h : Word) (p : Rtp) (e : Entry) (port : Nat) (s : State), tget s.eth.entries h.toNat = some e → e.encoder = none →
    runsOn s e.addr.port = some port →
    exec (.streamEntryPacket h p) s = .next (entryPacket h.toNat port false p (pairHeard e.addr.port s))) ∧
  (∀ (h : Word) (p : Rtp) (e : Entry) (s : State), tget s.eth.entries h.toNat = some e → e.encoder = none →
    runsOn s e.addr.port = none → exec (.streamEntryPacket h p) s = .next s) ∧
  (∀ (h : Word) (pic : Picture) (x : DecodeCtx) (u : Au) (us : List Au) (s : State), tget s.decodes h.toNat = some x →
    x.units = u :: us → exec (.decodePictureDone h pic) s = .next (pictureDone h.toNat x u pic false s) ∧
      exec (.decodeBudgetExpiry h pic) s = .next (pictureDone h.toNat x u pic true s)) ∧
  (∀ (h : Word) (u : Upload) (s : State), tget s.uploads h.toNat = some u →
    exec (.surfaceDone h true) s = .next (postNtf u.issuer 0x0304 [h, word (statusCode .hostDma)]
      (raise 112 5 (abandonObj u.slot { s with uploads := tdel s.uploads h.toNat })))) ∧
  (∀ (h : Word) (u : Upload) (s : State), tget s.uploads h.toNat = some u →
    (∀ i < u.rect.y1 - u.rect.y0, Reaches s (u.addr + (u.rect.y0 + i) * u.pitch + 4 * u.rect.x0) (4 * (u.rect.x1 - u.rect.x0))) →
    exec (.surfaceDone h false) s = .next (postNtf u.issuer 0x0304 [h, 0] (uploaded h.toNat u s)))

/-! ### The register window (R21–R35, R374–R382) -/

/-- R34: a write to CPL_HEAD takes effect only in the span from CPL_HEAD forward to CPL_TAIL, both ends included and
counted modulo 512, and NTF_HEAD is checked in the same way; a write that fails is ignored, PTR_ERR sets and RING_FAULT
(source 250, sub-cause 1) rises, and nothing is lost or released. -/
def Obligations.PointerWrites : Prop :=
  ∀ (p : Fin 16) (v : Word) (s : State), held s = false → (box s p.val).active = true → (box s p.val).ready = true →
    ((v.extractLsb' 0 9 - (box s p.val).cplHead).toNat ≤ ((box s p.val).cplTail - (box s p.val).cplHead).toNat →
      exec (.cplHeadWrite p v) s = .next (setBox p.val { box s p.val with cplHead := v.extractLsb' 0 9 } s)) ∧
    ((v.extractLsb' 0 9 - (box s p.val).ntfHead).toNat ≤ ((box s p.val).ntfTail - (box s p.val).ntfHead).toNat →
      exec (.ntfHeadWrite p v) s = .next (setBox p.val { box s p.val with ntfHead := v.extractLsb' 0 9 } s)) ∧
    (((box s p.val).cplTail - (box s p.val).cplHead).toNat < (v.extractLsb' 0 9 - (box s p.val).cplHead).toNat →
      exec (.cplHeadWrite p v) s = .next (raise 250 1 (setBox p.val { box s p.val with ptrErr := true } s))) ∧
    (((box s p.val).ntfTail - (box s p.val).ntfHead).toNat < (v.extractLsb' 0 9 - (box s p.val).ntfHead).toNat →
      exec (.ntfHeadWrite p v) s = .next (raise 250 1 (setBox p.val { box s p.val with ptrErr := true } s))) ∧
    (∀ q, box (raise 250 1 (setBox p.val { box s p.val with ptrErr := true } s)) q
      = if q = p.val then { box s p.val with ptrErr := true } else box s q) ∧
    (v.extractLsb' 0 9 = (box s p.val).cplHead →
      exec (.cplHeadWrite p v) s = .next (setBox p.val (box s p.val) s)) ∧
    (v.extractLsb' 0 9 = (box s p.val).ntfHead →
      exec (.ntfHeadWrite p v) s = .next (setBox p.val (box s p.val) s))

/-- R23: a read of PTIME_LO copies PTIME_HI into the holding register, which a read of PTIME_HI returns whatever powered
time has become; a 64-bit read does both by itself. -/
def Obligations.PoweredTimeRead : Prop :=
  ∀ s : State, held s = false → ∃ t u : State,
    exec (.ptimeLoRead false) s = .next t ∧ t.bus = [s.sys.ptime.extractLsb' 0 32] ∧
    (∀ n, (readWindow 0 0x014 { t with sys := { t.sys with ptime := n } }).bus = [s.sys.ptime.extractLsb' 32 32]) ∧
    exec (.ptimeLoRead true) s = .next u ∧ u.bus = [s.sys.ptime.extractLsb' 0 32, s.sys.ptime.extractLsb' 32 32] ∧
    t = { s with sys := { s.sys with ptimeHold := s.sys.ptime.extractLsb' 32 32 }, bus := t.bus } ∧
    u = { s with sys := { s.sys with ptimeHold := s.sys.ptime.extractLsb' 32 32 }, bus := u.bus }

/-- R26: a refused access raises source 237, and is captured where ERR_VALID is 0, with the number of the function it came
from; otherwise ERR_MORE sets and the capture stays. A capture wins over a clear of ERR_VALID in its cycle, and a refused access
over a clear of ERR_MORE (R6). A refused write is dropped, and a refused read returns all ones (R25). -/
def Obligations.RefusedAccesses : Prop :=
  ∀ (a : Access) (s : State), held s = false → a.bytes.val ≠ 0 → accessBad a = true →
    (s.sys.errValid = false → ∃ t, exec (.accessRefused a) s = .next t ∧
      t = { raise 237 0 { s with sys := { s.sys with
        errOffset := a.offset, errFunc := BitVec.ofNat 4 a.fn.val, errWrite := a.write
        errSize := if a.offset.toNat % a.bytes.val ≠ 0 then 7 else BitVec.ofNat 3 (a.bytes.val - 1)
        errValid := true } } with bus := t.bus } ∧
      t.bus = if a.write then s.bus else allOnes a.bytes.val) ∧
    (s.sys.errValid = true → ∃ t, exec (.accessRefused a) s = .next t ∧
      t = { raise 237 0 { s with sys := { s.sys with errMore := true } } with bus := t.bus } ∧
      t.bus = if a.write then s.bus else allOnes a.bytes.val) ∧
    (exec (.errValidClear (some a)) s = .next (raise 237 0 { s with sys := { s.sys with
        errOffset := a.offset, errFunc := BitVec.ofNat 4 a.fn.val, errWrite := a.write
        errSize := if a.offset.toNat % a.bytes.val ≠ 0 then 7 else BitVec.ofNat 3 (a.bytes.val - 1)
        errValid := true } })) ∧
    (∀ (n sub : Nat) (t : State), (raise n sub t).sys = t.sys ∧ (raise n sub t).boxes = t.boxes ∧
      (raise n sub t).hostMem = t.hostMem) ∧
    (exec (.bar2AccessRefused a) s = .next (if a.write then s else { s with bus := allOnes a.bytes.val })) ∧
    (s.sys.errValid = true → exec (.errMoreClear (some a)) s
      = .next (raise 237 0 { s with sys := { s.sys with errMore := true } }))

/-- The other writes and reads of the window: an inactive page's pointers, CMD_TAIL, the bits a write of 1 clears (a set
event in the same cycle wins, R6), NTF_LOST, and every other register by its offset. A device held in reset takes none of
them (R415). The rows of the event registers leave everything else as it was. -/
def Obligations.WindowWrites : Prop :=
  (∀ (p : Fin 16) (v : Word) (s : State), ((box s p.val).active && (box s p.val).ready) = false →
    exec (.cmdTailWrite p v) s = .next s ∧ exec (.cplHeadWrite p v) s = .next s ∧
    exec (.ntfHeadWrite p v) s = .next s ∧ canTake s p.val = false) ∧
  (∀ (p : Fin 16) (v : Word) (s : State), held s = false → ((box s p.val).active && (box s p.val).ready) = true →
    exec (.cmdTailWrite p v) s = .next (setBox p.val { box s p.val with cmdTail := v.extractLsb' 0 8 } s)) ∧
  (∀ (p : Fin 16) (s : State), held s = false →
    exec (.ntfOvfClear p false) s = .next (setBox p.val { box s p.val with ntfOvf := false } s) ∧
    exec (.ptrErrClear p false) s = .next (setBox p.val { box s p.val with ptrErr := false } s) ∧
    exec (.ntfOvfClear p true) s = .next (setBox p.val { box s p.val with
      ntfOvf := true, ntfSeq := (box s p.val).ntfSeq + 1, ntfLost := min 65535 ((box s p.val).ntfLost + 1) } s) ∧
    (∃ t, exec (.ptrErrClear p true) s = .next t ∧
      ∀ q, box t q = if q = p.val then { box s p.val with ptrErr := true } else box s q)) ∧
  (∀ (p : Fin 16) (again : Bool) (s : State), held s = false → ∃ t, exec (.ntfLostRead p again) s = .next t ∧
    t.bus = [word (box s p.val).ntfLost] ∧ (∀ q, box t q = if q = p.val then (if again then { box s p.val with
        ntfOvf := true, ntfSeq := (box s p.val).ntfSeq + 1, ntfLost := 1 } else { box s p.val with ntfLost := 0 })
      else box s q)) ∧
  (∀ s : State, held s = false → exec (.errValidClear none) s = .next { s with sys := { s.sys with errValid := false } } ∧
    exec (.errMoreClear none) s = .next { s with sys := { s.sys with errMore := false } }) ∧
  (∀ (a : Access) (s : State), held s = false → a.bytes.val ≠ 0 → accessBad a = false →
    exec (.accessRefused a) s = .next (if a.write then s else readAccess a.fn.val a.offset.toNat a.bytes.val s) ∧
    exec (.bar2AccessRefused a) s = .next (if a.write then s else { s with
      bus := readBar2 a.fn.val a.offset.toNat s :: (if a.bytes.val = 8 then [readBar2 a.fn.val (a.offset.toNat + 4) s] else []) }) ∧
    exec (.errMoreClear (some a)) s = .next { s with sys := { s.sys with errMore := false } }) ∧
  (∀ (v : Word) (s : State), held s = false → exec (.registerWrite 0 0x24 v none) s = .next { s with sys := { s.sys with scratch := v } }) ∧
  (∀ (o : BitVec 23) (v : Word) (s : State), o.toNat % 4 = 0 → (0x28 ≤ o.toNat ∧ o.toNat < 0x1000 ∨
      0x3000 ≤ o.toNat ∧ o.toNat < 0x10000 ∨ 0x110000 ≤ o.toNat ∨ o.toNat < 0x20) →
    exec (.registerWrite 0 o v none) s = .next s) ∧
  (∀ (f : Fin 16) (o : BitVec 23) (v : Word) (s : State), held s = false → f.val ≠ 0 → o.toNat % 4 = 0 →
    exec (.registerWrite f o v none) s = .next (if o.toNat < 0x10000 then writePage f.val o.toNat v s else s)) ∧
  (∀ (f : Fin 16) (o : BitVec 23) (v w : Word) (s : State), held s = false → o.toNat % 8 = 0 →
    exec (.registerWrite f o v (some w)) s
      = .next (writeWindow f.val (o.toNat + 4) w (writeWindow f.val o.toNat v s))) ∧
  (∀ (f : Fin 16) (o : BitVec 23) (v w : Word) (s : State), held s = false →
    (o.toNat % 4 ≠ 0 → exec (.registerWrite f o v none) s
      = .next (refuseAccess { fn := f, offset := o, write := true, bytes := 4 } s)) ∧
    (o.toNat % 8 ≠ 0 → exec (.registerWrite f o v (some w)) s
      = .next (refuseAccess { fn := f, offset := o, write := true, bytes := 8 } s))) ∧
  (∀ (p : Fin 16) (o : Nat) (v : Word) (s : State), 0x4000 ≤ o → o < 0x8000 →
    box (writePage p.val o v s) p.val
      = { box s p.val with cmdRing := tset (box s p.val).cmdRing ((o - 0x4000) / 4) v }) ∧
  (∀ (p : Fin 16) (v : Word) (s : State), box (writePage p.val 0x08 v s) p.val
    = { box s p.val with cplIE := v.getLsbD 0, ntfIE := v.getLsbD 1, stallIE := v.getLsbD 2 }) ∧
  (∀ (p : Fin 16) (o : BitVec 23) (v : Word) (b : Bool) (a : Access) (s : State), held s = true → a.bytes.val ≠ 0 →
    exec (.registerWrite p o v none) s = .next s ∧ exec (.cmdTailWrite p v) s = .next s ∧
    exec (.cplHeadWrite p v) s = .next s ∧ exec (.ntfHeadWrite p v) s = .next s ∧ exec (.ntfLostRead p b) s = .next s ∧
    exec (.ptimeLoRead b) s = .next s ∧ exec (.accessRefused a) s = .next s ∧ exec (.bar2AccessRefused a) s = .next s) ∧
  (∀ (n : Fin 256) (c k : BitVec 16) (v : Word) (r : Option (Fin 256 × Fin 16)) (f : Fin 16) (w : MsixWrite) (s : State),
    EventsAlone s (.causeClear n c k) ∧ EventsAlone s (.severityWrite n v) ∧ EventsAlone s (.firstValidClear r) ∧
    EventsAlone s (.overflowClear r) ∧ EventsAlone s (.quietMsWrite v) ∧ EventsAlone s (.msixUnmask f w) ∧
    ∃ x e o q, exec (.lateCompletion f) s = .next { s with exec := x, events := e, out := o, persist := q } ∧
      x.map (fun y => { y with late := true }) = s.exec.map (fun y => { y with late := true }))

/-- The event registers: CAUSE, SEVERITY, FIRST_VALID, OVERFLOW, QUIET_MS and the MSI-X table; a bit raised in the cycle
of its clear stays set (R6, R375–R382). -/
def Obligations.EventRegisters : Prop :=
  (∀ (n : Fin 256) (c : BitVec 16) (s : State), held s = false → isLevel n.val = false → ∃ t,
    exec (.causeClear n c 0) s = .next t ∧ (evGet t n.val).cause = (evGet s n.val).cause &&& ~~~ c) ∧
  (∀ (n : Fin 256) (c r : BitVec 16) (s : State), held s = false → isLevel n.val = false → ∃ t,
    exec (.causeClear n c r) s = .next t ∧ (evGet t n.val).cause
      = (evGet (raiseAll n.val r s) n.val).cause &&& ~~~ (c &&& ~~~ setters s n.val r)) ∧
  (∀ (n : Fin 256) (r : BitVec 16) (k : Fin 16) (s : State), (setters s n.val r).getLsbD k.val = true ↔
    r.getLsbD k.val = true ∧ (subsOf n.val).getLsbD k.val = true ∧ sevOf s n.val k.val ≠ 0) ∧
  (∀ (r : Fin 256 × Fin 16) (s : State), held s = false →
    (rivalCritical (some r) s = true → ∃ t, exec (.firstValidClear (some r)) s = .next t ∧
      t.events.hub.firstValid = true) ∧
    (rivalCritical (some r) s = false → exec (.firstValidClear (some r)) s = .next (clearFirst (raiseRival (some r) s))) ∧
    exec (.overflowClear (some r)) s = .next (raiseRival (some r) (clearOverflow s))) ∧
  (∀ (n : Fin 256) (c r : BitVec 16) (s : State), isLevel n.val = true → exec (.causeClear n c r) s = .next s) ∧
  (∀ (n : Fin 256) (v : Word) (s : State), held s = false → sevFixed n.val = false → exec (.severityWrite n v) s
    = .next (evPut n.val { evGet s n.val with severity := bits v 1 0, sevCauses := v.extractLsb' 16 16 } s)) ∧
  (∀ (n : Fin 256) (v : Word) (s : State), sevFixed n.val = true → exec (.severityWrite n v) s = .next s) ∧
  (∀ s : State, held s = false → s.events.hub.firstValid = true → exec (.firstValidClear none) s
    = .next { s with events := { s.events with hub := { s.events.hub with firstValid := false } } }) ∧
  (∀ s : State, s.events.hub.firstValid = false → exec (.firstValidClear none) s = .next s) ∧
  (∀ s : State, held s = false → exec (.overflowClear none) s
    = .next { s with events := { s.events with hub := { s.events.hub with overflow := false, overflowCount := 0 } } }) ∧
  (∀ (v : Word) (s : State), (bits v 19 0 = 0 ∨ 600000 < bits v 19 0) → exec (.quietMsWrite v) s = .next s) ∧
  (∀ (v : Word) (s : State), held s = false → 1 ≤ bits v 19 0 → bits v 19 0 ≤ 600000 →
    (s.events.hub.fault = false ∨ now s < s.events.hub.lastCritical + bits v 19 0 * 1000) →
    exec (.quietMsWrite v) s
      = .next { s with events := { s.events with hub := { s.events.hub with quietMs := bits v 19 0 } } }) ∧
  (∀ (v : Word) (s : State), held s = false → 1 ≤ bits v 19 0 → bits v 19 0 ≤ 600000 →
    s.events.hub.fault = true → s.events.hub.lastCritical + bits v 19 0 * 1000 ≤ now s →
    exec (.quietMsWrite v) s = .next (raise 247 1 { s with events := { s.events with hub := { s.events.hub with
      quietMs := bits v 19 0, fault := false, recoveries := sat 0xFFFFFFFF s.events.hub.recoveries 1 } } })) ∧
  (∀ (f : Fin 16) (v : Fin 64) (i : Fin 4) (x : Word) (s : State), held s = false → ∃ t, exec (.msixUnmask f (.entry v i x)) s = .next t ∧
    (vecGet t f.val v.val).words = (vecGet s f.val v.val).words.set i.val x ∧
    ((vecGet s f.val v.val).pending = true → vecHeld t f.val v.val = false →
      t.out = .msi f.val v.val :: s.out ∧ (vecGet t f.val v.val).pending = false)) ∧
  (∀ (f : Fin 16) (on : Bool) (s : State), held s = false → ∃ t, exec (.msixUnmask f (.enable on)) s = .next t ∧
    (f.val ∈ t.events.msixOn ↔ on = true)) ∧
  (∀ (p : Fin 16) (e : Executing) (s : State), s.exec = some e → e.page = p.val → e.late = false →
    e.takenAt + e.bound < now s →
    exec (.lateCompletion p) s = .next (raise 250 0 { s with exec := some { e with late := true } })) ∧
  (∀ (p : Fin 16) (s : State), s.exec = none → exec (.lateCompletion p) s = .next s)

/-! ### The frame store (R112–R137) -/

/-- The commands on objects, rings and time-shift buffers: references, information, reads, placement, buffers and status
(R120, R129–R137). -/
def Obligations.FrameStoreCommands : Prop :=
  (∀ (x : Source) (id : Nat), Row .acquireObject specAcquireObject
    (fun c s => Owns c s x ∧ x.latest = some id ∧ hostRefs s c.page < 1024) .ok
    (fun _ s => [word (objHandle s id), word (objGet s id).seq]) (fun c s => addRef id (.host c.page) s)) ∧
  (∀ x : Source, RowRefuses .acquireObject specAcquireObject (fun c s => Owns c s x ∧ x.latest = none) .state) ∧
  (∀ (p : Fin 16) (d : Desc) (n : Nat) (s : State), d.Wf →
    exec (.acquireObject p d n) s = .next (serveRequest n (issue specAcquireObject p d) s)) ∧
  (∀ id : Nat, Row .releaseObject specReleaseObject
    (fun c s => Names c s 2 ∧ objOfHandle s (bn c 0) = some id ∧ .host c.page ∈ (objGet s id).refs) .ok nothing
    (fun c s => dropRef id (.host c.page) s)) ∧
  (∀ id : Nat, RowRefuses .releaseObject specReleaseObject
    (fun c s => Names c s 2 ∧ objOfHandle s (bn c 0) = some id ∧ .host c.page ∉ (objGet s id).refs) .state) ∧
  (∀ (id : Nat) (o : Obj), Row .getObjectInfo specGetObjectInfo
    (fun c s => Names c s 2 ∧ objOfHandle s (bn c 0) = some id ∧ o = objGet s id ∧ bb c 1 0 = false) .ok
    (fun _ _ => [pack [(o.format, 1, 0), (o.variant, 3, 2), (o.parity, 5, 4), (b1 o.patched, 6, 6), (b1 o.concealed, 7, 7),
        (b1 o.vuiAbsent, 8, 8), (b1 o.recalled, 9, 9), (o.tier, 11, 10)],
      pack [(o.w, 15, 0), (o.h, 31, 16)], word o.seq, colourWord o.colour, word o.capture,
      word (o.capture / 2 ^ 32)]) same) ∧
  (∀ (id : Nat) (o : Obj), Row .getObjectInfo specGetObjectInfo
    (fun c s => Names c s 2 ∧ objOfHandle s (bn c 0) = some id ∧ o = objGet s id ∧ bb c 1 0 = true) .ok
    (fun c _ => [word o.ptpSeconds, pack [(o.ptpSeconds / 2 ^ 32, 15, 0), (o.ptpLock, 17, 16)], word o.ptpNanos,
      word o.refs.length, word (o.refs.count (.host c.page)), word o.source]) same) ∧
  (∀ (id : Nat) (o : Obj) (r : Rect), RowWaits .readObject specReadObject
    (fun c s => Names c s 2 ∧ objOfHandle s (bn c 0) = some id ∧ o = objGet s id ∧ r = askedRect c 4 o.w o.h
      ∧ bn64 c 1 % 4 = 0 ∧ bf c 3 15 0 % 4 = 0 ∧ 4 ≤ bf c 3 15 0 ∧ bf c 3 15 0 ≤ 32764 ∧ r.x1 ≤ o.w ∧ r.y1 ≤ o.h
      ∧ (o.format = 2 → r.x0 % 6 = 0 ∧ (r.x1 % 6 = 0 ∨ r.x1 = o.w)) ∧ (o.format = 3 → r.x0 % 2 = 0 ∧ r.x1 % 2 = 0)
      ∧ rowLen o.format (r.x1 - r.x0) ≤ bf c 3 15 0)
    (fun c _ => .readObject id (bn64 c 1) (bf c 3 15 0) r) (fun _ s => addRef id .reader s)) ∧
  (∀ x : Source, Row .setPlacement specSetPlacement
    (fun c s => Owns c s x ∧ isFrames x = true ∧ bb c 1 0 = true ∧ shortfall s (srcMod (bn c 0) (fun x => { x with
      tier0 := true, tier0Pages := (effDepth s (bn c 0)).1 * footprint x.fmt }) s) = none) .ok nothing
    (fun c s => srcMod (bn c 0) (fun x => { x with
      tier0 := true, tier0Pages := (effDepth s (bn c 0)).1 * footprint x.fmt }) s)) ∧
  (∀ x : Source, Row .setPlacement specSetPlacement (fun c s => Owns c s x ∧ isFrames x = true ∧ bb c 1 0 = false)
    .ok nothing (fun c s => srcMod (bn c 0) (fun x => { x with tier0 := false, tier0Pages := 0 }) s)) ∧
  (∀ x : Source, Row .createTimeshift specCreateTimeshift
    (fun c s => Owns c s x ∧ shiftable x = true ∧ 16 ≤ bn c 2 ∧ bn c 2 ≤ 4194304
      ∧ delayGood (keptPeriod s (bn c 0) (shiftEvery c)) (bn c 2) (bn c 3) = true
      ∧ (∀ e ∈ s.shifts, e.2.source ≠ bn c 0) ∧ s.pool.mounted = true ∧ s.shifts.length < 64
      ∧ tier2Use s x.owner + bn c 2 * footprint x.fmt ≤ quotaOf s x.owner 9
      ∧ (makeShift c x s).2.objects.length ≤ 262144 ∧ shortfall s (makeShift c x s).2 = none) .ok
    (fun c s => [word (makeShift c x s).1, word (bn c 2 * footprint x.fmt),
      word (ringPages (makeShift c x s).2 (makeShift c x s).1),
      word ((keptPeriod s (bn c 0) (shiftEvery c)).num / (keptPeriod s (bn c 0) (shiftEvery c)).den)])
    (fun c s => postNtf x.owner 0x0402 [word (makeShift c x s).1, 0] (makeShift c x s).2)) ∧
  (∀ (x : Source) (y : Shift), Row .seekTimeshift specSeekTimeshift
    (fun c s => Owns c s x ∧ tget s.shifts (bn c 0) = some y
      ∧ delayGood (keptPeriod s (bn c 0) y.keepEvery) y.frames (bn c 1) = true) .ok nothing
    (fun c s => if y.kept.any (fun k => decide (k.capture + bn c 1 * 1000 ≤ now s)) then sought c y s
      else shiftState (bn c 0) 0 (sought c y s))) ∧
  (∀ (x : Source) (y : Shift), Row .deleteTimeshift specDeleteTimeshift
    (fun c s => Owns c s x ∧ tget s.shifts (bn c 0) = some y) .ok nothing
    (fun c s => endIdle (deleteShift (bn c 0) s))) ∧
  (∀ (x : Source) (w : Word), Row .getRingStatus specGetRingStatus
    (fun c s => Reads c s x ∧ c.page ≠ 0 ∧ x.owner ≠ c.page ∧ w = pack [(x.fmt.ringDepth, 7, 0),
      ((effDepth s (bn c 0)).1, 15, 8), ((x.slots.filter (fun e => objFree (objGet s e.id))).length, 23, 16), (b1 x.tier0, 24, 24)])
    .ok (fun _ s => [w, 0, word (x.latest.elim 0 (fun id => (objGet s id).seq))]) same) ∧
  (∀ (x : Source) (w : Word), Row .getRingStatus specGetRingStatus
    (fun c s => Owns c s x ∧ w = pack [(x.fmt.ringDepth, 7, 0), ((effDepth s (bn c 0)).1, 15, 8),
      ((x.slots.filter (fun e => objFree (objGet s e.id))).length, 23, 16), (b1 x.tier0, 24, 24)]) .ok
    (fun c s => [w, x.latest.elim 0 (fun id => word (objHandle s id)), word (x.latest.elim 0 (fun id => (objGet s id).seq)),
      word x.droppedRing, word ((x.slots.map (fun e => (objGet s e.id).refs.count (.host c.page))).sum),
      word ((x.slots.map (fun e => if e.payer = c.page then e.pages else 0)).sum)]) same) ∧
  (Row .getToyboxStatus specGetToyboxStatus Always .ok
    (fun c s => [word (tier1Use s c.page), word (quotaOf s c.page 8), word (tier2Use s c.page), word (hostRefs s c.page),
      word ((allSlots s).filter (fun e => decide (e.payer = c.page))).length,
      if c.page = 0 then pack [(tier0Reserved s, 15, 0), (tier0Used s, 31, 16)] else 0]) same)

/-- What happens to objects in the background: a READ_OBJECT transfer that ends, copies to and from tier 2, and the
presentation of a delayed source (R123–R125, R134). -/
def Obligations.FrameStoreEvents : Prop :=
  (∀ (n : BitVec 16) (err : Bool) (e : Executing) (id a pitch : Nat) (r : Rect) (s : State), s.exec = some e →
    e.waits = .readObject id a pitch r →
    exec (.readObjectDone n err) s = .next (readDone e id a pitch r n.toNat err s)) ∧
  (∀ (n : BitVec 16) (err : Bool) (s : State), s.exec = none → exec (.readObjectDone n err) s = .next s) ∧
  (∀ (h : Word) (dh : Handle) (x : Shift) (k : Kept) (s : State), shiftOn s h.toNat = some (dh, x) →
    x.kept.find? (fun k => k.spilling) = some k →
    exec (.spillCopyDone h false) s = .next (dropRef k.slot (.spill h.toNat) { s with shifts := tset s.shifts dh { x with
      kept := modKept (fun k => k.spilling) (fun k => { k with spilling := false, absent := false }) x.kept } }) ∧
    exec (.spillCopyDone h true) s = .next (tier2Fault dh (dropRef k.slot (.spill h.toNat) { s with
      shifts := tset s.shifts dh { x with
        kept := modKept (fun k => k.spilling) (fun k => { k with spilling := false, absent := true }) x.kept } }))) ∧
  (∀ (h : Word) (dh : Handle) (x : Shift) (k : Kept) (s : State), shiftOn s h.toNat = some (dh, x) →
    x.kept.find? (fun k => k.spilling) = some k →
    (periodUs (srcGet s h.toNat).fmt.rate).num ≤ (now s - k.info.closedAt) * (periodUs (srcGet s h.toNat).fmt.rate).den →
    exec (.spillLate h) s = .next (raise 130 1 (dropRef k.slot (.spill h.toNat) { s with shifts := tset s.shifts dh { x with
      spillLate := x.spillLate + 1
      kept := modKept (fun k => k.spilling) (fun k => { k with spilling := false, absent := true }) x.kept } }))) ∧
  (∀ (h : Word) (x : Shift) (s : State), tget s.shifts h.toNat = some x →
    exec (.recallStart h) s = .next { s with shifts := tset s.shifts h.toNat { x with
      kept := modKept (recallDue s h.toNat x) (fun k => { k with recalling := 1 }) x.kept } }) ∧
  (∀ (h : Word) (x : Shift) (s : State), tget s.shifts h.toNat = some x →
    x.kept.any (fun k => decide (k.recalling = 1)) = true →
    exec (.recallDone h false) s = .next { s with shifts := tset s.shifts h.toNat { x with
      kept := modKept (fun k => decide (k.recalling = 1)) (fun k => { k with recalling := 2 }) x.kept } } ∧
    exec (.recallDone h true) s = .next (tier2Fault h.toNat { s with shifts := tset s.shifts h.toNat { x with
      kept := modKept (fun k => decide (k.recalling = 1)) (fun k => { k with recalling := 0, absent := true }) x.kept } })) ∧
  (∀ (h : Word) (x : Shift) (s : State), tget s.shifts h.toNat = some x →
    (∀ k ∈ x.kept, k.shown = false → now s < k.capture + x.delayMs * 1000) →
    exec (.timeshiftPresentation h) s = .next (holdShift h.toNat s)) ∧
  (∀ (h : Word) (x : Shift) (k : Kept) (s t : State), tget s.shifts h.toNat = some x →
    x.kept.find? (fun k => !k.shown && decide (k.capture + x.delayMs * 1000 ≤ now s)) = some k →
    t = { s with shifts := tset s.shifts h.toNat { x with
      kept := modKept (fun k => !k.shown && decide (k.capture + x.delayMs * 1000 ≤ now s)) (fun k => { k with shown := true }) x.kept } } →
    (k.absent = true → exec (.timeshiftPresentation h) s = .next (holdShift h.toNat t)) ∧
    (k.absent = false → k.recalling = 2 → exec (.timeshiftPresentation h) s = .next (presentKept h.toNat k t)) ∧
    (k.absent = false → k.recalling ≠ 2 → exec (.timeshiftPresentation h) s
      = .next (raise 130 2 (holdShift h.toNat { t with
        shifts := tmod t.shifts h.toNat (fun x => { x with recallLate := x.recallLate + 1 }) }))))

/-! ### The pixel engines (R138–R164) -/

/-- The commands on processed sources, kernel data, ladders and jobs (R139–R164). LOAD_KERNEL has no effect in this
stepping: it always completes with ERR_UNSUPPORTED (R140). -/
def Obligations.EngineCommands : Prop :=
  (∀ x : Source, Row .createProcessedSource specCreateProcessedSource
    (fun c s => Reads c s x ∧ mayRead s c.page (bn c 0) = true
      ∧ procCheck s c.page (1 + chainLen s 4 (bn c 0)) (askedProc c) x = none ∧ countsGood (processed c s).2 = true
      ∧ shortfall s (processed c s).2 = none) .ok
    (fun c s => [word (processed c s).1, word (procQ (processed c s).2 ((processed c s).1,
        (tget (processed c s).2.procs (processed c s).1).getD { input := 0, params := {} })),
      word (ringPages (processed c s).2 (processed c s).1)]) (fun c s => (processed c s).2)) ∧
  (∀ x : Source, RowRefuses .createProcessedSource specCreateProcessedSource
    (fun c s => Reads c s x ∧ mayRead s c.page (bn c 0) = false) .notOwner) ∧
  (∀ (x : Source) (y : Proc), Row .modifyProcessedSource specModifyProcessedSource
    (fun c s => Owns c s x ∧ tget s.procs (bn c 0) = some y ∧ procRange (askedProc c) (srcGet s y.input).fmt = true
      ∧ (askedProc c).kernel = y.params.kernel
      ∧ procCheck s (hPart (bn c 0)) 1 (askedProc c) (srcGet s y.input) = none
      ∧ HasRoom c.page (fun i => match i with | .proc g _ => decide (g = bn c 0) | _ => false) s) .ok
    (fun c s => [word (restaged c.page (fun i => match i with | .proc g _ => decide (g = bn c 0) | _ => false)
      (.proc (bn c 0) (askedProc c)) s).length])
    (fun c s => withStaged c.page (fun i => match i with | .proc g _ => decide (g = bn c 0) | _ => false)
      (.proc (bn c 0) (askedProc c)) s)) ∧
  (∀ (p : Fin 16) (d : Desc) (n : Nat) (s : State), d.Wf →
    exec (.submitJob p d n) s = .next (serveRequest n (issue specSubmitJob p d) s)) ∧
  (∀ (x : Source) (y : Proc), Row .deleteProcessedSource specDeleteProcessedSource
    (fun c s => Owns c s x ∧ tget s.procs (bn c 0) = some y ∧ y.prescale = none) .ok nothing
    (fun c s => endIdle (resizeRings (deleteSource (bn c 0) s)))) ∧
  (Row .loadKernelData specLoadKernelData
    (fun c _ => headGood (wd c.body 1) = true ∧ c.len = 4 * (1 + dataLen (wd c.body 1))
      ∧ dataGood (c.body.drop 1) = true) .ok nothing
    (fun c s => { s with parts := tset s.parts c.page { (tget s.parts c.page).getD {} with
      kernelData := tset ((tget s.parts c.page).getD {}).kernelData (bf c 0 3 0) (c.body.drop 1) } })) ∧
  (∀ (kv : Nat × Nat) (allowed : List Nat), Row .setLadder specSetLadder
    (fun c s => handleFault c.page s (bn c 0) [1, 3] = none
      ∧ (if hType (bn c 0) = 1 then ∃ x, Owns c s x else ∃ r, tget s.routes (bn c 0) = some r)
      ∧ bf c 1 6 4 ≤ 3 ∧ (∀ r ∈ askedRungs c, kernelK r.1 r.2 ≠ 0) ∧ ladderTarget s (bn c 0) = some (kv, allowed)
      ∧ (∀ i ∈ (List.range 3).drop (bf c 1 6 4), bw c (2 + i) = 0) ∧ (∀ r ∈ askedRungs c, r.1 ∈ allowed)
      ∧ falling (kv :: askedRungs c) = true ∧ (box s c.page).staged.length < 4096) .ok
    (fun c s => [word ((box s c.page).staged.length + 1)])
    (fun c s => setBox c.page { box s c.page with staged := (box s c.page).staged ++
      [.ladder (bn c 0) { priority := bf c 1 3 0, rungs := askedRungs c }] } s)) ∧
  (∀ (id w h slot : Nat) (field : Bool) (y : Source) (r : Rect), Row .submitJob specSubmitJob
    (fun c s => JobReads c s id w h field ∧ handleFault c.page s (bn c 2) [1] = none ∧ liveSource s (bn c 2) = some y
      ∧ r = askedRect c 3 y.fmt.width y.fmt.height ∧ JobFits c s y r w h field ∧ pickSlot s (bn c 2) = some slot
      ∧ shortfall s (acceptJob c id r ((r.x1 - r.x0) * (r.y1 - r.y0)) slot s).2 = none) .ok
    (fun c s => [word (acceptJob c id r ((r.x1 - r.x0) * (r.y1 - r.y0)) slot s).1, word (fceil (jobCost c r)),
      word (fceil ⟨(jobCost c r).num * 1000, (jobCost c r).den * bn c 6⟩)])
    (fun c s => dispatch (acceptJob c id r ((r.x1 - r.x0) * (r.y1 - r.y0)) slot s).2)) ∧
  (∀ x : Job, Row .cancelJob specCancelJob (fun c s => HasJob c s x ∧ x.state ≠ 2) .ok nothing
    (fun c s => stopJob (bn c 0) 2 s)) ∧
  (∀ x : Job, RowRefuses .cancelJob specCancelJob (fun c s => HasJob c s x ∧ x.state = 2) .state) ∧
  (∀ x : Job, Row .getJobStatus specGetJobStatus (fun c s => HasJob c s x) .ok
    (fun _ s => [pack [(x.state, 1, 0), (x.outcome, 7, 4)], word (if x.state = 2 then 0 else ffloor x.deadline - now s)])
    same) ∧
  (Row .getEngineStatus specGetEngineStatus Always .ok
    (fun c s => [word (quotaOf s c.page 7), word (effBudget s c.page), word (liveQ s c.page), word (fceil (oneShot s c.page)),
      word (degraded s c.page).length, if c.page = 0 then word s.engines.capacitySeen else 0]) same) ∧
  (Row .getKernelLibrary specGetKernelLibrary (fun c _ => 1 ≤ bn c 0 ∧ bn c 0 ≤ 8) .ok
    (fun c s => [s.sys.klibVersion, word (bitmap ((List.range 3).filter (fun v => decide (kernelK (bn c 0) v ≠ 0)))),
      word (kernelK (bn c 0) 0), word (kernelK (bn c 0) 1), word (kernelK (bn c 0) 2), word (kernelF (bn c 0))]) same) ∧
  RowRefuses .loadKernel specLoadKernel Always .unsupported

/-- What happens to jobs and engines: a release, a work item that ends, a missed deadline, an engine that goes offline,
a corrected ECC error and the rise of the capacity (R142, R151–R159). An engine's local memory reads 0 at the start of a
work item of another partition than its last (R141). -/
def Obligations.EngineEvents : Prop :=
  (∀ (h : Word) (same : Bool) (more : Nat) (r : Route) (s : State), tget s.routes h.toNat = some r → (r.state = 2 ∨ r.state = 3) →
    ((destGet s r.dest).active = some h.toNat ∨ (destGet s r.dest).incoming = some h.toNat) → currentMode r ≠ 0 →
    clockRuns s r.dest = true → exec (.jobRelease h same more) s = .next (releaseJob h.toNat r (closesIn same more) s)) ∧
  (∀ (e : Fin 512) (j : Handle) (s : State), tget s.engines.busy e.val = some j → jobLive (freeEngine e.val s) j = none →
    exec (.workItemDone e) s = .next (dispatch (freeEngine e.val s))) ∧
  (∀ (e : Nat) (j : Handle) (a : Nat) (s : State), tget s.engines.lastPart e ≠ some (jobGet s j).part →
    localByte (startItem e j s) e a = 0) ∧
  (∀ (e : Fin 512) (j : Handle) (x : Job) (s t : State), tget s.engines.busy e.val = some j →
    jobLive (freeEngine e.val s) j = some x →
    t = jobPut j { x with itemsRunning := x.itemsRunning - 1 } (freeEngine e.val s) →
    (x.itemsWaiting = 0 → x.itemsRunning ≤ 1 → exec (.workItemDone e) s = .next (dispatch (finishJob j t))) ∧
    (x.itemsWaiting ≠ 0 ∨ 1 < x.itemsRunning → exec (.workItemDone e) s = .next (dispatch t))) ∧
  (∀ (h : Word) (x : Job) (s t : State), tget s.engines.jobs h.toNat = some x → x.state ≠ 2 → x.missed = false →
    fgt x.deadline ⟨now s, 1⟩ = false → x.ends = false → t = jobPut h.toNat { x with missed := true } s →
    exec (.deadlineMiss h) s = .next (postNtf x.part 0x0503 [word (x.stream.getD h.toNat)] (raise 129 0 { t with
      procs := tmod t.procs (x.stream.getD h.toNat) (fun e => { e with misses := e.misses + 1 })
      routes := tmod t.routes (x.stream.getD h.toNat) (fun e => { e with misses := e.misses + 1 }) }))) ∧
  (∀ (h : Word) (x : Job) (s : State), tget s.engines.jobs h.toNat = some x →
    ((x.state = 2 ∨ fgt x.deadline ⟨now s, 1⟩ = true ∨ (x.missed = true ∧ x.ends = false)) →
      exec (.deadlineMiss h) s = .next s) ∧
    (x.state ≠ 2 → fgt x.deadline ⟨now s, 1⟩ = false → x.ends = true →
      exec (.deadlineMiss h) s = .next (dispatch (endJobNow h.toNat s)))) ∧
  (∀ (e : Fin 512) (trap : Bool) (s : State), e.val ∈ s.engines.offline → exec (.engineFault e trap) s = .next s) ∧
  (∀ (e : Fin 512) (trap : Bool) (s t : State), held s = false → e.val ∉ s.engines.offline → tget s.engines.busy e.val = none →
    t = raise (113 + e.val / 32) (if trap then 2 else 1) { s with engines := { s.engines with
      offline := e.val :: s.engines.offline, busy := tdel s.engines.busy e.val } } →
    (t.engines.offline.filter (fun n => decide (n / 32 = e.val / 32))).length < 32 →
    exec (.engineFault e trap) s = .next (dispatch (capacityCheck t))) ∧
  (∀ (e : Fin 512) (s : State), exec (.lmEccCorrected e) s = .next (raise (113 + e.val / 32) 0 s)) ∧
  (∀ (n : Nat) (s : State), s.engines.upSince = some n → n + 5000000 ≤ now s → exec .capacityRiseHold s
    = .next ((List.range 16).foldl (fun s p => stepUp p (maxSteps s p) s)
        { s with engines := { s.engines with upSince := none } })) ∧
  (∀ s : State, s.engines.upSince = none → exec .capacityRiseHold s = .next s)

/-! ### Routes and cuts (R166–R188) -/

/-- The commands on routes: each stages a change of a destination, and a change staged before of the same destination is
replaced; status and destinations (R178–R188). -/
def Obligations.RouteCommands : Prop :=
  (Row .addRoute specAddRoute
    (fun c s => addFault c.page s (bn c 0) (bn c 1) (bw c 2) = none ∧ (added c s).2.routes.length ≤ 16384
      ∧ (box (added c s).2 c.page).staged.length ≤ 4096) .ok
    (fun c s => [word (added c s).1, word (box (added c s).2 c.page).staged.length]) (fun c s => (added c s).2)) ∧
  (∀ r : Route, Row .modifyRoute specModifyRoute
    (fun c s => HasRoute c s r ∧ bf c 2 1 0 ≠ 3 ∧ (bf c 2 1 0 = 2 → bf c 2 17 16 ≤ 1) ∧ bw c 1 = 0 ∧ bb c 2 4 = false
      ∧ bf c 2 15 8 = 0 ∧ (bf c 2 1 0 ≠ 2 → bf c 2 17 16 = 0)
      ∧ handleFault c.page s r.source [1] = none ∧ permMissing s r.dest r.source = false
      ∧ fieldsFault s r.dest (srcGet s r.source) (bf c 2 1 0) 0 = none ∧ r.state ≠ 3
      ∧ (box (stageOp c.page r.dest (.modify (bn c 0) (bf c 2 1 0) (bf c 2 17 16)) s) c.page).staged.length ≤ 4096) .ok
    (fun c s => [word (box (stageOp c.page r.dest (.modify (bn c 0) (bf c 2 1 0) (bf c 2 17 16)) s) c.page).staged.length])
    (fun c s => stageOp c.page r.dest (.modify (bn c 0) (bf c 2 1 0) (bf c 2 17 16)) s)) ∧
  (∀ r : Route, Row .deleteRoute specDeleteRoute
    (fun c s => HasRoute c s r ∧ bf c 2 1 0 = 0 ∧ bf c 2 17 16 = 0 ∧ (bb c 2 4 = true ↔ bf c 2 15 8 ≠ 0)
      ∧ (bb c 2 4 = true → dKind r.dest = 1)
      ∧ (box (stageOp c.page r.dest (.delete (bn c 0) (bf c 2 15 8)) s) c.page).staged.length ≤ 4096) .ok
    (fun c s => [word (box (stageOp c.page r.dest (.delete (bn c 0) (bf c 2 15 8)) s) c.page).staged.length])
    (fun c s => stageOp c.page r.dest (.delete (bn c 0) (bf c 2 15 8)) s)) ∧
  (∀ (hs : List Handle) (t : State), Row .stageSalvo specStageSalvo
    (fun c s => 1 ≤ bf c 0 8 0 ∧ c.len = 16 + 16 * bf c 0 8 0 ∧ bn64 c 1 = 0 ∧ salvo c.page c.body 4 (bf c 0 8 0) s = .ok (hs, t))
    .ok (fun c _ => [word (bf c 0 8 0), word (hs.headD 0)]) (fun _ _ => t)) ∧
  (∀ (hs : List Handle) (t : State), Row .stageSalvo specStageSalvo
    (fun c s => 1 ≤ bf c 0 8 0 ∧ c.len = 16 + 16 * bf c 0 8 0 ∧ bn64 c 1 ≠ 0 ∧ bn64 c 1 % 4 = 0
      ∧ salvo c.page c.body 4 (bf c 0 8 0) s = .ok (hs, t) ∧ Reaches t (bn64 c 1) (bytesOf (hs.map word)).length)
    .ok (fun c _ => [word (bf c 0 8 0), word (hs.headD 0)]) (fun c _ => wrote (bn64 c 1) (bytesOf (hs.map word)) t)) ∧
  (∀ r : Route, Row .getRouteStatus specGetRouteStatus (fun c s => HasRoute c s r) .ok
    (fun c _ => [pack [(r.state, 1, 0), (r.mode, 5, 4), (currentMode r, 9, 8), (r.rung, 13, 12)],
      if c.page ≠ 0 ∧ hPart r.source ≠ c.page then 0 else word r.source, word r.dest, r.epoch, word r.repeats,
      word r.skips])
    (fun c s => if bb c 1 0 then { s with routes := tset s.routes (bn c 0) { r with repeats := 0, skips := 0 } } else s)) ∧
  (Row .getDestination specGetDestination
    (fun c s => destGood (bn c 0) = true ∧ destFault c.page s (bn c 0) = none) .ok
    (fun c s => [word ((destGet s (bn c 0)).active.getD 0), (destEpochs s (bn c 0)).1, (destEpochs s (bn c 0)).2,
      pack [(destTd s (bn c 0), 4, 0), ((destGet s (bn c 0)).fadeN - (destGet s (bn c 0)).fadeI, 15, 8)],
      word ((destGet s (bn c 0)).incoming.getD 0), 0]) same)

/-! ### Layers and heads (R189–R244) -/

/-- The commands on layers, compositions, matrices and coefficient banks: each stages an item of its head, which replaces
one of the same target; the rest read (R189–R213). -/
def Obligations.LayerCommands : Prop :=
  (RowStages .setLayer specSetLayer
    (fun c s => HasLayer c s ∧ (layerOf c).blend ≠ 3 ∧ presetGood (layerOf c).preset true = true
      ∧ rectEmpty (layerOf c).dst = false
      ∧ (∀ x, layerSource s c.page (bn c 0) = some x → x.fmt.sampling = 2 →
          (layerOf c).crop.x0 % 2 = 0 ∧ (layerOf c).crop.x1 % 2 = 0)
      ∧ (4 ≤ dLayer (bn c 0) → plainLayer (layerOf c) = true))
    (fun c i => match i with
      | .layer h l _ => decide (h = dHead (bn c 0) ∧ l = dLayer (bn c 0))
      | _ => false)
    (fun c _ => .layer (dHead (bn c 0)) (dLayer (bn c 0)) (layerOf c))) ∧
  (RowStages .setComposition specSetComposition
    (fun c s => HasHead c s (bf c 0 5 0) false ∧ bf c 3 1 0 ≠ 3 ∧ presetGood (bf c 3 7 4) false = true
      ∧ orderGood ((bw c 1).extractLsb' 0 24) = true)
    (fun c i => match i with | .comp g _ => decide (g = bf c 0 5 0) | _ => false)
    (fun c _ => .comp (bf c 0 5 0) (askedComp c))) ∧
  (RowStages .setMatrix specSetMatrix (fun c s => HasHead c s (bf c 0 5 0) false ∧ bf c 0 11 8 ≤ 8)
    (fun c i => match i with | .matrix g u _ => decide (g = bf c 0 5 0 ∧ u = bf c 0 11 8) | _ => false)
    (fun c _ => .matrix (bf c 0 5 0) (bf c 0 11 8) (matrixOf c))) ∧
  (RowStages .loadCoefficients specLoadCoefficients
    (fun c s => c.len = 1796 ∧ HasHead c s (bf c 0 5 0) false ∧ bankRange (bankOf c.body) = true
      ∧ bankSums (bankOf c.body) = true)
    (fun c i => match i with | .coef g k _ => decide (g = bf c 0 5 0 ∧ k = bf c 0 9 8) | _ => false)
    (fun c _ => .coef (bf c 0 5 0) (bf c 0 9 8) (bankOf c.body))) ∧
  (∀ bs : List Byte, Row .readCoefficients specReadCoefficients
    (fun c s => HasHead c s (bf c 0 5 0) false ∧ bn64 c 1 % 4 = 0
      ∧ bs = bytesOf (bankWords (bf c 0 5 0) (bf c 0 9 8) (bankGet (headGet s (bf c 0 5 0)).act (bf c 0 9 8)))
      ∧ Reaches s (bn64 c 1) bs.length) .ok nothing (fun c s => wrote (bn64 c 1) bs s)) ∧
  (∀ (h l : Nat) (x : Head), Row .getLayerStatus specGetLayerStatus
    (fun c s => HasLayer c s ∧ h = dHead (bn c 0) ∧ l = dLayer (bn c 0) ∧ x = headGet s h) .ok
    (fun c s => [pack [(b1 (layerCfg x.act l).enable, 0, 0), (b1 (decide (l ∈ x.scanOpaque)), 1, 1),
        (b1 (decide (l ∈ x.mismatch)), 2, 2), (b1 (tget x.prescaleAct l).isSome, 3, 3),
        (b1 (decide ((destGet s (bn c 0)).fadeN ≠ 0)), 4, 4)],
      word ((tget x.prescaleAct l).getD 0),
      word (fceil (destNeed s (bn c 0) (fun n st v => ⟨layerLines s h l false n st v, 1⟩))),
      word (fceil (destNeed s (bn c 0) (fun n st v => layerFetch s h l false n st v))),
      word ((tget x.tilesSkipped l).getD 0
        + if x.paired then (tget (headGet s (h + 1)).tilesSkipped l).getD 0 else 0),
      word ((tget x.tilesFetched l).getD 0
        + if x.paired then (tget (headGet s (h + 1)).tilesFetched l).getD 0 else 0)]) same) ∧
  (Row .getHeadBudget specGetHeadBudget (fun c s => HasHead c s (bf c 0 5 0) false) .ok
    (fun c s => [word (fceil (headLines s (bf c 0 5 0))), 98304, word (fceil (headFetch s (bf c 0 5 0))), 4752000,
      word (headGet s (bf c 0 5 0)).prescaleAct.length, 0]) same)

/-- The commands on heads: mode, sink and CRC rectangles are staged, status reads (R214–R244). -/
def Obligations.HeadCommands : Prop :=
  (∀ t : Timing, RowStages .setHeadMode specSetHeadMode
    (fun c s => HasHead c s (bf c 0 5 0) false ∧ s.sys.maintTiming = false ∧ AsksTiming c t
      ∧ applyLineGood t (askedLine c t) = true ∧ bf c 2 7 0 ≠ 1 ∧ (6 ≤ bf c 0 15 8 → bf c 0 5 0 % 2 = 0))
    (fun c i => match i with | .mode g _ => decide (g = bf c 0 5 0) | _ => false)
    (fun c _ => .mode (bf c 0 5 0) (askedMode c t))) ∧
  (RowRefuses .setHeadMode specSetHeadMode
    (fun c s => HasHead c s (bf c 0 5 0) false ∧ s.sys.maintTiming = true) .state) ∧
  (∀ k : Sink, RowStages .bindSink specBindSink (fun c s => HasHead c s (bf c 0 5 0) true ∧ sinkOf c s = .ok k)
    (fun c i => match i with | .sink g _ => decide (g = bf c 0 5 0) | _ => false)
    (fun c _ => .sink (bf c 0 5 0) k)) ∧
  (RowStages .setCrcRects specSetCrcRects (fun c s => HasHead c s (bf c 0 5 0) true)
    (fun c i => match i with | .crc g _ => decide (g = bf c 0 5 0) | _ => false)
    (fun c _ => .crc (bf c 0 5 0) ((List.range 4).map (fun k =>
      ⟨bf c (1 + 2 * k) 15 0, bf c (1 + 2 * k) 31 16, bf c (2 + 2 * k) 15 0, bf c (2 + 2 * k) 31 16⟩)))) ∧
  (∀ (h : Nat) (x : Head), Row .getHeadStatus specGetHeadStatus
    (fun c s => h = bf c 0 5 0 ∧ HasHead c s h true ∧ x = headGet s h ∧ bf c 0 9 8 = 0) .ok
    (fun _ s => [headDiag s h 0, x.appliedEpoch, x.pendingEpoch, x.rejectedEpoch, word x.frameCount, headDiag s h 0x1C])
    same) ∧
  (∀ x : Head, Row .getHeadStatus specGetHeadStatus
    (fun c s => HasHead c s (bf c 0 5 0) true ∧ x = headGet s (bf c 0 5 0) ∧ bf c 0 9 8 = 1) .ok
    (fun _ _ => x.crcVals ++ [word x.crcFrame, crcFlags x]) same) ∧
  (∀ (h : Nat) (x : Head), Row .getHeadStatus specGetHeadStatus
    (fun c s => h = bf c 0 5 0 ∧ HasHead c s h true ∧ x = headGet s h ∧ bf c 0 9 8 = 2) .ok
    (fun _ s => [twoCounts x 0, twoCounts x 2, twoCounts x 4, twoCounts x 6, word (tolerance s h), headDiag s h 0x10])
    (fun c s => if bb c 1 0 then headPut h { x with underruns := List.replicate 8 0 } s else s)) ∧
  (RowRefuses .getHeadStatus specGetHeadStatus (fun c s => HasHead c s (bf c 0 5 0) true ∧ bf c 0 9 8 = 3) .range)

/-- The lines of a head's frame: the apply line samples and latches, the fetch start shows, line 0 starts the frame and
the blanking ends it; the events of one line come in the order FRAME_DONE, latch, BLANK_START, LINE_MATCH whichever row
brings them; an underrun turns the layer off; a domain's frame tick applies what its destinations have; a request in the
cycle of a close is served before it (R16, R173, R200, R218–R224, R227, R231–R234, R238). That the other events of a line
are served with the first of them, and that line 0 and the frame tick are one event, is the model's choice (log entry 114). -/
def Obligations.HeadEvents : Prop :=
  (∀ (h : Fin 64) (s : State), (headGet s h.val).state = 0 →
    exec (.headApplyLine h false) s = .next s ∧ exec (.blankStart h) s = .next s ∧ exec (.lineMatch h) s = .next s ∧
    exec (.headFetchStart h) s = .next s ∧ exec (.headLineZero h) s = .next s) ∧
  (∀ (h : Fin 64) (x : Head) (s : State), AloneAt s h.val 1 x → x.act.mode.lineMatch ≠ x.act.mode.applyLine →
    (runSet x).mode.timing.vactive ≠ x.act.mode.applyLine → (x.state = 1 ∨ x.restart = true ∧ x.scanning = false) →
    exec (.headApplyLine h false) s = .next (servedWith h.val [] (atLine h.val x.act.mode.applyLine s))) ∧
  (∀ (h : Fin 64) (x : Head) (s t : State), AloneAt s h.val 1 x → x.act.mode.lineMatch ≠ x.act.mode.applyLine →
    (runSet x).mode.timing.vactive ≠ x.act.mode.applyLine → 2 ≤ x.state → x.restart = false →
    sampleSet h.val (atLine h.val x.act.mode.applyLine s) = (t, true) →
    exec (.headApplyLine h false) s
      = .next (servedWith h.val [] (if (headGet t h.val).state = 0 then t else planFrame h.val true t))) ∧
  (∀ (h : Fin 64) (x : Head) (s t u : State), AloneAt s h.val 1 x → x.act.mode.lineMatch ≠ x.act.mode.applyLine →
    (runSet x).mode.timing.vactive ≠ x.act.mode.applyLine → 2 ≤ x.state → x.restart = false →
    sampleSet h.val (atLine h.val x.act.mode.applyLine s) = (t, false) →
    u = (List.range 8).foldl (fun s l => applyDest (layerDest h.val l) s) t →
    exec (.headApplyLine h false) s
      = .next (servedWith h.val [] (if (headGet u h.val).state = 0 then u else planFrame h.val false u))) ∧
  (∀ (h : Fin 64) (x : Head) (v : Nat) (s t : State), AloneAt s h.val 0 x → AloneAt s h.val 1 x →
    v = (runSet x).mode.timing.vactive → v = x.act.mode.applyLine → x.act.mode.lineMatch ≠ v →
    t = raise h.val 0 (hbmRest (applyLine h.val (restPort h.val (frameOver h.val (frameDone h.val (atLine h.val v s)))))) →
    exec (.headApplyLine h false) s = .next (servedWith h.val [0] t) ∧
    exec (.blankStart h) s = .next (servedWith h.val [1] t)) ∧
  (∀ (h : Fin 64) (x : Head) (v : Nat) (s t : State), AloneAt s h.val 0 x → v = (runSet x).mode.timing.vactive →
    x.act.mode.applyLine ≠ v → x.act.mode.lineMatch ≠ v → x.scanning = true → x.feeding = .none →
    t = raise h.val 2 (copyCrcs h.val (atLine h.val v s)) →
    exec (.blankStart h) s = .next (servedWith h.val [] (raise h.val 0 (hbmRest (restPort h.val (frameOver h.val t)))))) ∧
  (∀ (h : Fin 64) (x : Head) (v p sub lanes samp depth : Nat) (s t : State), AloneAt s h.val 0 x →
    v = (runSet x).mode.timing.vactive → x.act.mode.applyLine ≠ v → x.act.mode.lineMatch ≠ v → x.scanning = true →
    x.feeding = .link p sub lanes samp depth → t = raise h.val 2 (copyCrcs h.val (atLine h.val v s)) →
    (portGet t p).state = 5 → (portGet t p).mode = 1 →
    exec (.blankStart h) s = .next (servedWith h.val [] (raise h.val 0 (hbmRest (restPort h.val (frameOver h.val
      (sendSeq p sub (subLanes sub (2 ^ lanes)) (frameBlocks t h.val sub samp depth) t))))))) ∧
  (∀ (h : Fin 64) (x : Head) (v : Nat) (s : State), AloneAt s h.val 0 x → v = (runSet x).mode.timing.vactive →
    x.act.mode.applyLine ≠ v → x.act.mode.lineMatch ≠ v → x.scanning = false →
    exec (.blankStart h) s = .next (servedWith h.val [] (raise h.val 0
      (hbmRest (restPort h.val (frameOver h.val (atLine h.val v s))))))) ∧
  (∀ (h : Fin 64) (s : State), held s = false → (headGet s h.val).state ≠ 0 →
    (wasServed s h.val 1 = true → exec (.headApplyLine h false) s = .next (unserve h.val 1 s)) ∧
    (wasServed s h.val 0 = true → exec (.blankStart h) s = .next (unserve h.val 0 s)) ∧
    (wasServed s h.val 3 = true → exec (.headLineZero h) s = .next (unserve h.val 3 s)) ∧
    (wasServed s h.val 2 = true → (headGet s h.val).act.mode.lineMatch ≠ 65535 →
      exec (.lineMatch h) s = .next (unserve h.val 2 s))) ∧
  (∀ (h : Fin 64) (x : Head) (s : State), AloneAt s h.val 2 x → x.act.mode.lineMatch ≠ 65535 →
    x.act.mode.applyLine ≠ x.act.mode.lineMatch → (runSet x).mode.timing.vactive ≠ x.act.mode.lineMatch →
    exec (.lineMatch h) s = .next (servedWith h.val [] (raise h.val 1 (atLine h.val x.act.mode.lineMatch s)))) ∧
  (∀ (h : Fin 64) (s : State), (headGet s h.val).act.mode.lineMatch = 65535 → exec (.lineMatch h) s = .next s) ∧
  (∀ (h : Fin 64) (x : Head) (s t : State), held s = false → x = headGet s h.val → x.state ≠ 0 → x.state ≠ 2 → oddPaired s h.val = false →
    t = atLine h.val (x.act.mode.timing.vtotal - 8) s →
    exec (.headFetchStart h) s = .next (headPut h.val { headGet t h.val with
      scanSet := x.act, scanOpaque := x.opaqueNow, scanMarker := x.srEntry } t)) ∧
  (∀ (h : Fin 64) (x : Head) (s : State), held s = false → x = headGet s h.val → x.state = 2 → oddPaired s h.val = false →
    ∃ t, exec (.headFetchStart h) s = .next t ∧ (headGet t h.val).scanSet = x.act ∧
      (headGet t h.val).scanOpaque = x.opaqueNow) ∧
  (∀ (h : Fin 64) (x : Head) (s t : State), AloneAt s h.val 3 x → (x.restart = true → x.scanning = false ∧
      fgt x.zeroFrom ⟨now s, 1⟩ = false) → x.act.sink = .none → t = atLine h.val 0 s →
    exec (.headLineZero h) s = .next (servedWith h.val [4] (headPut h.val { headGet t h.val with
      frameCount := (x.frameCount + 1) % 2 ^ 32, off := [], underran := false, restart := false
      scanning := decide (x.state = 1 ∨ x.state = 2), scanSet := if x.state = 1 then x.act else x.scanSet
      feeding := .none } t))) ∧
  (∀ (h : Fin 64) (x : Head) (s : State), AloneAt s h.val 3 x → x.restart = true → fgt x.zeroFrom ⟨now s, 1⟩ = true →
    exec (.headLineZero h) s = .next (servedWith h.val [4] s)) ∧
  (∀ (h : Fin 64) (x : Head) (k : Nat) (s : State), AloneAt s h.val 3 x → x.restart = false → (x.state = 1 ∨ x.state = 2) →
    x.act.sink = .encoder k → ∃ t, exec (.headLineZero h) s = .next t ∧ (headGet t h.val).feeding = .encoder k ∧
      (headGet t h.val).scanning = true ∧ (headGet t h.val).frameCount = (x.frameCount + 1) % 2 ^ 32) ∧
  (∀ (h : Fin 64) (x : Head) (p sub lanes samp depth : Nat) (s : State), AloneAt s h.val 3 x → x.restart = false →
    (x.state = 1 ∨ x.state = 2) → x.act.sink = .link p sub lanes samp depth → (portGet s p).lowExit = none →
    ∃ t, exec (.headLineZero h) s = .next t ∧ (headGet t h.val).scanning = true ∧
      (headGet t h.val).feeding = if (portGet s p).state = 5 ∧ (portGet s p).mode = 1 then x.act.sink else .none) ∧
  (∀ (h : Fin 64) (l : Fin 8) (y p : BitVec 16) (x : Head) (s t : State), x = headGet s h.val → x.state = 2 →
    x.scanning = true → x.paired = false → y.toNat < x.scanSet.mode.timing.vactive →
    (tget (headGet s (composer s h.val).1).scanShown l.val).isSome = true → x.off = [] → x.underran = false →
    t = raise h.val 3 (headPut h.val { x with
      off := [(l.val, y.toNat, p.toNat + (composer s h.val).2)]
      underruns := lset x.underruns l.val (sat 0xFFFFFFFF (x.underruns.getD l.val 0) 1)
      underran := true, uneasy := true, underrunSecond := some (second s) } s) →
    exec (.layerUnderrun h l y p) s = .next (if x.underrunSecond = some (second s) then t
      else postNtf (holder t 0 h.val) 0x0802 [word h.val, word (2 ^ l.val), word y.toNat, word x.frameCount] t)) ∧
  (∀ (h : Fin 64) (l : Fin 8) (y p : BitVec 16) (s : State), (headGet s h.val).state ≠ 2 ∨ (headGet s h.val).scanning = false →
    exec (.layerUnderrun h l y p) s = .next s) ∧
  (∀ (k : Fin 16) (x : Domain) (s t u v : State), x = domainGet s k.val → tickFalls s k.val = true → held s = false →
    t = tickHeads k.val (domainPut k.val { x with
      ticks := x.ticks + 1, lastTick := now s, lastClock := clockNow s
      alignAt := some (x.alignAt.getD (tickAt s k.val - 1000000 * offsetNow s x)) } s) →
    u = (tickDests t k.val).foldl (fun s d => tickDest d s) t →
    v = (tkeys u.audio.outputs).foldl (fun s id => if outTd s id = some k.val then
      refresh (fun o c => decide (o = id ∧ c.sel = 1)) 0 (applyOutput id s) else s) u →
    exec (.domainFrameTick k false) s
      = .next (sendPulses (fun p => decide (p.source = k.val + 1)) (fun _ => tickAt s k.val) (resizeRings v))) ∧
  (∀ (k : Fin 16) (same : Bool) (more : Nat) (s : State), (tickFalls s k.val = false ∨ held s = true) →
    exec (.domainFrameTick k same more) s = .next s) ∧
  (∀ (h : Fin 64) (k : Fin 16) (s : State), recentCloses s = [] →
    exec (.headApplyLine h true) s = exec (.headApplyLine h false) s ∧
    exec (.domainFrameTick k true) s = exec (.domainFrameTick k false) s) ∧
  (∀ (h : Fin 64) (src : Handle) (new : Nat) (s t u : State), held s = false → s.lastClose = some (src, new, none) →
    (srcGet s src).latest = some new → t = srcMod src (fun x => { x with latest := none }) s →
    exec (.headApplyLine h false) t = .next u →
    exec (.headApplyLine h true) s = .next (srcMod src (fun x => { x with latest := some new }) u)) ∧
  (∀ s : State, hbmIdle s = false ∨ lowestTolerance s ≤ (if s.health.hbmSleep = 2 then 3000 else 1050) →
    exec .hbmSleepExit s = .next (if s.health.hbmSleep = 0 then s else { s with health := { s.health with hbmSleep := 0 } })) ∧
  (∀ s : State, hbmIdle s = true → (if s.health.hbmSleep = 2 then 3000 else 1050) < lowestTolerance s →
    exec .hbmSleepExit s = .next s)

/-! ### Audio (R245–R262) -/

/-- The commands on audio inputs and outputs and on the audio clock (R246–R262). -/
def Obligations.AudioCommands : Prop :=
  (∀ (x : Source) (f : Nat), Row .createAudioInput specCreateAudioInput
    (fun c s => bf c 1 2 0 ≠ 3 ∧ Owns c s x ∧ InputFits c s ∧ inputSource s (bf c 1 2 0) (bn c 0) x = none
      ∧ freeRun (inTaken s) (bf c 1 10 4) = some f) .ok
    (fun c _ => [word (bn c 0), word f]) (fun c s => withInput c x.owner (bn c 0) f s)) ∧
  (∀ f : Nat, Row .createAudioInput specCreateAudioInput
    (fun c s => bf c 1 2 0 = 3 ∧ InputFits c s ∧ freeRun (inTaken s) (bf c 1 10 4) = some f) .ok
    (fun c s => [word (flowSource c s).1, word f])
    (fun c s => withInput c c.page (flowSource c s).1 f (flowSource c s).2)) ∧
  (∀ (x : Source) (i : AudioIn), Row .deleteAudioInput specDeleteAudioInput
    (fun c s => Owns c s x ∧ inGet s (bn c 0) = some i) .ok nothing
    (fun c s => if i.kind = 3 then resizeRings (deleteSource (bn c 0) s) else dropInput (bn c 0) s)) ∧
  (∀ f : Nat, Row .createAudioOutput specCreateAudioOutput
    (fun c s => OutputFits c s ∧ freeRun (outTaken s) (bf c 1 6 0) = some f) .ok (fun _ _ => [word f])
    (fun c s => { s with audio := { s.audio with outputs := tset s.audio.outputs (bn c 0) (newOutput c f s) } })) ∧
  (∀ o : AudioOut, Row .deleteAudioOutput specDeleteAudioOutput (fun c s => HasOutput c s o) .ok nothing
    (fun c s => deleteOutput (bn c 0) s)) ∧
  (∀ o : AudioOut, Row .setOutputChannels specSetOutputChannels
    (fun c s => HasOutput c s o ∧ channelsFault c o.channels = none ∧ selectionFault c.page o.owner s (channelCfg c 0) = none
      ∧ ((channelCfg c 0).sel = 1 → (inGet s (channelCfg c 0).src).isSome = true) ∧ (box s c.page).staged.length < 4096)
    .ok nothing (fun c s => setBox c.page { box s c.page with staged := (box s c.page).staged ++
      [.audio (bn c 0) (bf c 1 5 0) ((List.range (bf c 1 12 6)).map (channelCfg c))] } s)) ∧
  (∀ (x : Source) (i : AudioIn), Row .getAudioStatus specGetAudioStatus
    (fun c s => hType (bn c 0) = 1 ∧ Reads c s x ∧ inGet s (bn c 0) = some i) .ok
    (fun _ s => [pack [(b1 i.gap, 1, 0), (i.fs, 3, 2)], word i.lostPkts, word (gapCount s i), word i.badPkt])
    (fun c s => if bb c 1 0 then inMod (bn c 0) (fun i => { i with
      lostPkts := 0, gapSamples := 0, badPkt := 0, gapSince := max i.gapSince (now s) }) s else s)) ∧
  (∀ o : AudioOut, Row .getAudioStatus specGetAudioStatus (fun c s => hType (bn c 0) ≠ 1 ∧ HasOutput c s o) .ok
    (fun c s => [word (if bn c 0 / 2 ^ 28 = 2 then rtpLock s else 0), word o.clips, word o.rampCuts, word o.clamps,
      word (audioPages o)])
    (fun c s => if bb c 1 0 then outPut (bn c 0) { o with clips := 0, rampCuts := 0, clamps := 0 } s else s)) ∧
  (Row .setAudioClock specSetAudioClock Always .ok nothing (fun c s => { hushAll true s with
    audio := { (hushAll true s).audio with moving := some (bf c 0 3 0, now s) } }))

/-- What happens to audio: a packet arrives or is missing, a gap ends, the converter unlocks, the clock moves, a ramp ends
and an output sends its packet (R248–R262). -/
def Obligations.AudioEvents : Prop :=
  (∀ (h : Word) (p : AudPacket) (i : AudioIn) (s : State), inGet s h.toNat = some i → i.kind = 4 →
    badG711 p = true → exec (.audioPacket h p) s
      = .next (raise 225 0 (inMod h.toNat (fun i => { i with badPkt := sat 0xFFFFFFFF i.badPkt 1 }) s))) ∧
  (∀ (h : Word) (p : AudPacket) (i : AudioIn) (s t : State), inGet s h.toNat = some i →
    (i.kind ≠ 4 ∨ badG711 p = false) → t = inMod h.toNat (fun y => { y with
      buffered := forgetPlayed (now s) y.buffered ++ [(now s + bufferTarget y, widen i p)]
      resumeFrom := if y.gap then some (i.resumeFrom.getD (now s)) else none, gapDue := none }) s →
    (i.gap = false → exec (.audioPacket h p) s = .next t) ∧
    (i.gap = true → exec (.audioPacket h p) s
      = .next (if i.resumeFrom.getD (now s) + bufferTarget i ≤ now s then resume h.toNat t else t))) ∧
  (∀ (h : Word) (s : State), inGet s h.toNat = none → exec (.audioPlayoutMissing h) s = .next s ∧
    exec (.audioBufferTarget h) s = .next s ∧ exec (.srcUnlock h) s = .next s) ∧
  (∀ (h : Word) (i : AudioIn) (s : State), inGet s h.toNat = some i →
    (i.gap = true → exec (.audioPlayoutMissing h) s = .next s) ∧
    (i.gap = false → (∀ m, i.missedAt = some m → ∃ p ∈ i.buffered, m < p.1 ∧ p.1 ≤ now s) →
      exec (.audioPlayoutMissing h) s = .next (inMod h.toNat (fun i => { i with
        missedAt := some (now s), lostPkts := sat 0xFFFFFFFF i.lostPkts 1
        buffered := i.buffered.filter (fun p => decide (p.1 ≤ now s))
          ++ [(now s, rampedDown i.channels (lastPlayed (now s) i))]
          ++ i.buffered.filter (fun p => !decide (p.1 ≤ now s)) }) s)) ∧
    (∀ m, i.gap = false → i.missedAt = some m → (∀ p ∈ i.buffered, p.1 ≤ m ∨ now s < p.1) →
      exec (.audioPlayoutMissing h) s = .next (inState h.toNat true (raise 223 0 (inMod h.toNat (fun i => { i with
        gap := true, gapSince := now s, missedAt := none, resumeFrom := none, gapDue := none }) s)))) ∧
    (i.gap = false → exec (.audioBufferTarget h) s = .next s) ∧
    (∀ t, i.gap = true → i.resumeFrom = some t → exec (.audioBufferTarget h) s
      = .next (if t + bufferTarget i ≤ now s then resume h.toNat s else s)) ∧
    (i.locked = true → exec (.srcUnlock h) s = .next (raise 223 2 (inMod h.toNat (fun i => { i with locked := false }) s))) ∧
    (i.locked = false → exec (.srcUnlock h) s = .next s) ∧
    exec (.srcRelock h) s = .next (inMod h.toNat (fun i => { i with locked := true }) s)) ∧
  (∀ s : State, s.audio.moving = none → exec .audioClockMove s = .next s) ∧
  (∀ (td t : Nat) (s : State), s.audio.moving = some (td, t) → t + 1000 ≤ now s →
    exec .audioClockMove s = .next (raise 226 0 { hushAll false s with
      audio := { (hushAll false s).audio with moving := none, clockTd := td } })) ∧
  (∀ (id : Word) (n : Fin 64) (o : AudioOut) (s : State), outGet s id.toNat = some o →
    exec (.audioRampEnd id n) s = .next { s with audio := { s.audio with outputs := tset s.audio.outputs id.toNat { o with
      chans := tmod o.chans n.val (fun k => { k with ramp := k.ramp.bind (fun r => if r.length ≤ r.pos then none else some r) }) } } }) ∧
  (∀ (id : Word) (s : State), outGet s id.toNat = none → exec (.audioRampEnd id 0) s = .next s ∧
    exec (.audioOutputPacket id) s = .next s) ∧
  (∀ (id : Word) (o : AudioOut) (n clips : Nat) (ts : Word) (s t : State), outGet s id.toNat = some o →
    n = (if o.ptime125 then 6 else 48) → clips = ((packetRuns s o).map (fun r => r.2.2.1)).sum →
    ts = (if id.toNat / 2 ^ 28 = 2 ∧ followsPtp s = true then firstRtp s else o.rtp) →
    (t = outPut id.toNat { o with
        chans := (packetRuns s o).map (fun r => (r.1, r.2.2.2)), rtp := ts + word n, clips := sat 0xFFFFFFFF o.clips clips } s →
      clips = 0 ∨ o.clipSecond = some (second s) →
      exec (.audioOutputPacket id) s = .next (sendAudio id.toNat o.channels ts
        (interleave ((packetRuns s o).map (fun r => outputSamples s id.toNat (o.first + r.1) r.2.1)) n) t)) ∧
    (t = raise 224 0 (outPut id.toNat { o with
        chans := (packetRuns s o).map (fun r => (r.1, r.2.2.2)), rtp := ts + word n, clips := sat 0xFFFFFFFF o.clips clips
        clipSecond := some (second s) } s) →
      clips ≠ 0 → o.clipSecond ≠ some (second s) →
      exec (.audioOutputPacket id) s = .next (sendAudio id.toNat o.channels ts
        (interleave ((packetRuns s o).map (fun r => outputSamples s id.toNat (o.first + r.1) r.2.1)) n) t)))

/-! ### Reference timing (R263–R277) -/

/-- The commands on the candidate list, the selector, the domains and the frame pulses (R264–R277). -/
def Obligations.TimingCommands : Prop :=
  (Row .setCandidate specSetCandidate CandidateFits .ok nothing
    (fun c s => ptpStep s (if s.time.selected = some (bf c 0 2 0) then raise 220 1 { candidateSet c s with
      time := { (candidateSet c s).time with dropped := true, hostCause := true } } else candidateSet c s))) ∧
  (Row .setSelection specSetSelection
    (fun c _ => orDefault (bf c 1 9 0) 10 ≤ 600 ∧ orDefault (bf c 2 9 0) 10 ≤ 1000 ∧ orDefault (bf c 3 8 0) 100 ≤ 500)
    .ok nothing (fun c s => { s with time := { s.time with
      revertive := bb c 0 0, forceEn := bb c 0 1, forceIndex := bf c 0 4 2, qualTime := orDefault (bf c 1 9 0) 10
      bandwidth := orDefault (bf c 2 9 0) 10, slope := orDefault (bf c 3 8 0) 100, hostCause := true } })) ∧
  (∀ (d : Domain) (off : Int), Row .setTimingDomain specSetTimingDomain
    (fun c s => d = domainGet s (bf c 0 3 0) ∧ off = sbits (bw c 1) 31 0 ∧ rate1001 (bf c 0 7 4) ≠ 0
      ∧ off.natAbs * (periodNs (bf c 0 7 4)).den < (periodNs (bf c 0 7 4)).num
      ∧ (d.rate = bf c 0 7 4 ∨ domainUsed s (bf c 0 3 0) = false)) .ok nothing
    (fun c s => domainPut (bf c 0 3 0) { d with
      rate := bf c 0 7 4
      offset := off
      offsetFrom := if d.rate = bf c 0 7 4 then offsetNow s d else off
      offsetAt := now s
      alignAt := if d.rate = bf c 0 7 4 then d.alignAt else none
      aligned := d.aligned && decide (d.rate = bf c 0 7 4)
      eventSeen := d.eventSeen && decide (d.rate = bf c 0 7 4) } s)) ∧
  (∀ off : Int, Row .setFramePulse specSetFramePulse
    (fun c s => off = sbits (bw c 1) 31 0 ∧ bf c 0 8 4 ≤ 20 ∧ 16 ≤ bf c 2 15 0
      ∧ (∀ r, pulseRate c s = some r → off.natAbs * (periodNs r).den ≤ (periodNs r).num
          ∧ 2 * bf c 2 15 0 * (periodNs r).den < (periodNs r).num)
      ∧ (17 ≤ bf c 0 8 4 → (pulseRate c s).isSome = true)) .ok nothing
    (fun c s => { s with time := { s.time with
      pulses := tset s.time.pulses (bf c 0 1 0) (askedPulse c s ((tget s.time.pulses (bf c 0 1 0)).getD {})) } })) ∧
  (Row .getTimingStatus specGetTimingStatus (fun c _ => bb c 0 0 = false ∧ c.page ≠ 0) .ok
    (fun _ s => [pack [(s.time.state, 1, 0)], 0, 0, 0, pack [((ptpNow s).2.2, 1, 0), (ptpPort s, 7, 4)], 0]) same) ∧
  (Row .getTimingStatus specGetTimingStatus (fun c s => bb c 0 0 = false ∧ c.page = 0 ∧ s.time.selected.isSome = true) .ok
    (fun _ s => [pack [(s.time.state, 1, 0), (s.time.selected.getD 0, 4, 2), (b1 (forceInactive s), 5, 5),
        (b1 s.time.holdover.isSome, 6, 6)],
      pack [(bitmap ((s.time.list.filter (fun e => e.2.qualified)).map Prod.fst), 7, 0),
        (bitmap ((s.time.list.filter (fun e => e.2.enable)).map Prod.fst), 15, 8)],
      word (twos (phaseNow s) 32), word (twos s.time.freqOffset 32),
      pack [((ptpNow s).2.2, 1, 0), (ptpPort s, 7, 4)],
      word (divOpen (slewLeft s) (10000 * 1000 * max 1 s.time.slopeNow / 10000))]) same) ∧
  (∀ d : Domain, Row .getTimingStatus specGetTimingStatus
    (fun c s => bb c 0 0 = true ∧ (c.page = 0 ∨ usesDomain s c.page (bf c 0 7 4) = true) ∧ d = domainGet s (bf c 0 7 4))
    .ok (fun c s => [pack [(d.rate, 3, 0), (b1 (isAligned s (bf c 0 7 4)), 4, 4)], word (twos d.offset 32), d.ticks,
      word d.lastTick, word (d.lastTick / 2 ^ 32)]) same) ∧
  (RowRefuses .getTimingStatus specGetTimingStatus
    (fun c s => bb c 0 0 = true ∧ c.page ≠ 0 ∧ usesDomain s c.page (bf c 0 7 4) = false) .notOwner)

/-- What happens to the reference: faults and qualification of candidates, edges and PTP messages, the selector's
evaluation, the end of a slew and valid hold-over data (R265–R277). How a frequency is measured is the model's choice (log
entry 149). -/
def Obligations.TimingEvents : Prop :=
  (∀ (i : Fin 8) (x : Candidate) (s : State), x = candGet s i.val → x.enable = true → x.kind ≠ 0 → x.kind ≠ 5 →
    ¬ (x.kind = 4 ∧ (srcGet s x.source).state = .running) →
    exec (.candidateFault i) s = .next (candPut i.val { x with
      faults := x.faults + 1, cleanSince := now s, seen := 0, pendQual := false
      pendDisq := x.pendDisq || decide (x.kind ≠ 1 ∨ 2 ≤ x.faults + 1)
      expect := if x.kind ≠ 1 ∨ 2 ≤ x.faults + 1 then none else x.expect
      freq := if x.kind ≠ 1 ∨ 2 ≤ x.faults + 1 then none else x.freq
      masters := [], syncDue := none } s)) ∧
  (∀ (i : Fin 8) (s : State), (candGet s i.val).enable = false ∨ (candGet s i.val).kind = 0 ∨ (candGet s i.val).kind = 5 →
    exec (.candidateFault i) s = .next s) ∧
  (∀ (i : Fin 8) (x : Candidate) (s : State), x = candGet s i.val → x.enable = true → 1 ≤ x.kind → x.kind ≤ 4 →
    x.qualified = false → x.cleanSince + s.time.qualTime * 1000000 ≤ now s →
    exec (.qualTimeExpiry i) s = .next (candPut i.val (if inFrequency s x then { x with pendQual := true }
      else { x with cleanSince := now s, seen := 0, pendQual := false }) s)) ∧
  (∀ (i : Fin 8) (s : State), now s < (candGet s i.val).cleanSince + s.time.qualTime * 1000000 →
    exec (.qualTimeExpiry i) s = .next s) ∧
  (∀ (r : Fin 4) (f : Bool) (ph : Int) (i : Nat) (x : Candidate) (s : State),
    s.time.list.find? (fun e => e.2.enable && decide ((e.2.kind = 1 ∨ e.2.kind = 2) ∧ e.2.port = r.val)) = some (i, x) →
    (x.kind = 1 → x.falling = f → exec (.refinEdge r f ph) s
      = .next (if (candGet (alignment i ph s) i).faults = 0 then followEdge r.val i (alignment i ph s) else alignment i ph s)) ∧
    (x.kind = 1 → x.falling ≠ f → exec (.refinEdge r f ph) s = .next s) ∧
    (x.kind = 2 → f = false → candGet s i = x → ∃ t, exec (.refinEdge r f ph) s = .next t ∧
      (candGet t i).phaseNs = some (if ph % 100 ≤ 50 then ph % 100 else ph % 100 - 100) ∧ (candGet t i).edgeAt = now s) ∧
    (x.kind = 2 → f = true → exec (.refinEdge r f ph) s = .next s)) ∧
  (∀ (p : Fin 8) (m : PtpMsg) (s : State), (∀ e ∈ s.time.list, e.2.kind ≠ 3) → exec (.ptpMessage p m) s = .next s) ∧
  (∀ (p : Fin 8) (m : PtpMsg) (i : Nat) (x : Candidate) (s : State),
    s.time.list.find? (fun e => e.2.enable
      && decide (e.2.kind = 3 ∧ e.2.port = p.val ∧ e.2.ptpDomain = m.domain.toNat)) = some (i, x) →
    (m.type = 0 → exec (.ptpMessage p m) s
      = .next (candPut i { x with masters := tset x.masters m.sender.toNat m.quality } s)) ∧
    (m.type ≠ 0 → bestMaster x.masters ≠ some m.sender.toNat → exec (.ptpMessage p m) s = .next (candPut i x s)) ∧
    (m.type = 1 → m.twoStep = true → bestMaster x.masters = some m.sender.toNat →
      exec (.ptpMessage p m) s = .next (candPut i { x with syncDue := some m.seq } s)) ∧
    (m.type = 2 → x.syncDue ≠ some m.seq → exec (.ptpMessage p m) s = .next (candPut i x s)) ∧
    (m.type = 1 ∧ m.twoStep = false ∨ m.type = 2 ∧ x.syncDue = some m.seq → bestMaster x.masters = some m.sender.toNat →
      exec (.ptpMessage p m) s = .next (alignment i m.offsetNs (candPut i { x with
        ptpSeconds := m.seconds.toNat, ptpNanos := m.nanoseconds.toNat, ptpAt := now s, ptpClock := clockNow s
        syncDue := none } s)))) ∧
  (∀ s : State, s.sys.fwReady = false → exec .selectorEvaluation s = .next s) ∧
  (∀ (s t : State) (i : Nat), s.sys.fwReady = true → t = applyQuals (rebaseSlew s) → t.time.selected = some i →
    choose t = some i → t.time.dropped = false →
    exec .selectorEvaluation s
      = .next (ptpStep s (settleClock { t with time := { t.time with
          selected := some i, hostCause := false, dropped := false } }))) ∧
  (∀ (s t u : State) (i : Nat), s.sys.fwReady = true → t = applyQuals (rebaseSlew s) → t.time.selected = none →
    choose t = some i → t.time.hostCause = false →
    u = raise 219 0 { t with time := { t.time with selected := some i, hostCause := false, dropped := false } } →
    exec .selectorEvaluation s = .next (ptpStep s (settleClock (turnTo i 1 u)))) ∧
  (∀ s : State, s.time.state = 1 → slewLeft s ≤ 10000 → exec .slewDone s
    = .next (raise 221 1 (enterState 2 s.time.cause { s with time := { s.time with phaseErr := s.time.phaseErr.sign } }))) ∧
  (∀ s : State, (s.time.state ≠ 1 ∨ 10000 < slewLeft s) → exec .slewDone s = .next s) ∧
  (∀ s t : State, s.time.state = 2 → s.time.holdover = none → s.time.lockedSince + 60000000 ≤ now s →
    t = setFreq s.time.freqOffset s →
    exec .holdoverDataValid s = .next { t with time := { t.time with holdover := some (meanFreq t.time) } }) ∧
  (∀ (v : Int) (s : State), s.time.holdover = some v → exec .holdoverDataValid s = .next s)

/-! ### Link ports (R278–R303) -/

/-- The commands on link ports (R300–R303). -/
def Obligations.LinkCommands : Prop :=
  (∀ (p : Nat) (x : Port), Row .setLinkPort specSetLinkPort
    (fun c s => p = bf c 0 4 0 ∧ x = portGet s p ∧ (c.page = 0 ∨ holder s 1 p = c.page ∧
        ((bf c 0 6 5 = 2 ∨ x.mode = 2) → holder s 1 (pairOf p) = c.page))
      ∧ bf c 0 6 5 ≠ 3 ∧ (bf c 0 6 5 ≠ 0 → (bw c 0).extractLsb' 12 4 ≠ (0 : BitVec 4))
      ∧ (x.mode = 2 → bf c 0 6 5 ≠ 2 → inRing s p = false)
      ∧ (bf c 0 6 5 = 2 → portBound s p = false ∧ portBound s (pairOf p) = false)
      ∧ (portMoves c s p → portBound s p = false)) .ok nothing
    (fun c s => (if (bf c 0 6 5 = 2 ↔ x.mode = 2) then id
      else fun t => changeOwner (64 + pairOf p) (changeOwner (64 + p) t))
      (if bf c 0 6 5 = 2 then portSet c (pairOf p) (portSet c p s)
        else if x.mode = 2 then portOff (pairOf p) (portSet c p s) else portSet c p s))) ∧
  (∀ p : Nat, Row .retrain specRetrain
    (fun c s => HasPort c s p ∧ (portGet s p).mode ≠ 0 ∧ (portGet s p).test = false) .ok nothing
    (fun _ s => setPort p 0 13 (portPut p { portGet s p with attempts := 0 } s))) ∧
  (∀ p : Nat, RowRefuses .retrain specRetrain
    (fun c s => HasPort c s p ∧ ((portGet s p).mode = 0 ∨ (portGet s p).test = true)) .state) ∧
  (∀ p : Nat, Row .getLinkStatus specGetLinkStatus (fun c s => HasPort c s p ∧ bf c 0 9 8 ≠ 3) .ok
    (fun c s => linkWords s p (bf c 0 9 8))
    (fun c s => if bb c 1 0 then portPut p (linkCleared (portGet s p) (bf c 0 9 8)) s else s)) ∧
  (∀ p : Nat, Row .setLinkTest specSetLinkTest
    (fun c s => HasPort c s p ∧ TestFits c (portGet s p) p ∧ (portGet s p).mode ≠ 0 ∧ portBound s p = false
      ∧ bb c 0 5 = true) .ok nothing
    (fun c s => setPort p 1 13 (portPut p { portGet s p with
      test := true, pattern := bf c 0 7 6, testLanes := (bw c 0).extractLsb' 8 4
      inject := bf c 0 13 12, burstLen := bf c 1 7 0, rateExp := bf c 1 11 8, prbsSync := 0, prbsSent := 0
      prbsReg := if (portGet s p).test ∧ (portGet s p).pattern = bf c 0 7 6 then (portGet s p).prbsReg else [] } s))) ∧
  (∀ p : Nat, Row .setLinkTest specSetLinkTest
    (fun c s => HasPort c s p ∧ TestFits c (portGet s p) p ∧ (portGet s p).mode ≠ 0 ∧ portBound s p = false
      ∧ bb c 0 5 = false) .ok nothing
    (fun _ s => if (portGet s p).test then setPort p 0 13 (portPut p { portGet s p with
      test := false, inject := 0, testLanes := 0, prbsSync := 0, prbsReg := [] } s) else s)) ∧
  (∀ p : Nat, Row .getLinkCaps specGetLinkCaps (fun c s => HasPort c s p ∧ bb c 0 9 = true) .ok
    (fun c s => recordPart c (ownRecord (portGet s p) p)) same) ∧
  (∀ (p : Nat) (r : List Word), Row .getLinkCaps specGetLinkCaps
    (fun c s => HasPort c s p ∧ bb c 0 9 = false ∧ (portGet s p).record = some r) .ok (fun c _ => recordPart c r) same) ∧
  (∀ p : Nat, RowRefuses .getLinkCaps specGetLinkCaps
    (fun c s => HasPort c s p ∧ bb c 0 9 = false ∧ (portGet s p).record = none) .state)

/-- Bring-up, capabilities, the back channel, low power and the test patterns of a port: each move of the port's state
machine from what arrives on it and from its timers (R284–R296, R303). -/
def Obligations.LinkPortEvents : Prop :=
  (∀ (p : Fin 32) (x : Port) (s : State), x = portGet s p.val → bringsUp x = true → isRx p.val = true →
    (x.state = 0 → exec (.linkCkDetected p) s = .next (setPort p.val 1 12 s)) ∧
    (x.state = 7 → exec (.linkCkDetected p) s = .next (portMod p.val (fun y => { y with
      skipCaps := true, lowExit := some (now s) }) (setPort p.val 1 12 s))) ∧
    (x.state ≠ 0 → x.state ≠ 7 → exec (.linkCkDetected p) s = .next s)) ∧
  (∀ (p : Fin 32) (b : CtlBlock) (l : BitVec 4) (x : Port) (s t : State), x = portGet s p.val → Hears s p.val b 0x2D →
    bringsUp x = true → x.state = 1 →
    t = sendStatus p.val (portPut p.val { x with locked := l &&& x.lanes } s) →
    exec (.trainBlock p b l) s = .next (if l &&& x.lanes = x.lanes then setPort p.val 2 12 t else t)) ∧
  (∀ (p : Fin 32) (s : State), bringsUp (portGet s p.val) = true → (portGet s p.val).state = 2 →
    exec (.linkLockHeld p) s = .next (setPort p.val 3 12 s)) ∧
  (∀ (p : Fin 32) (s : State), (portGet s p.val).state ≠ 2 → exec (.linkLockHeld p) s = .next s) ∧
  (∀ (p : Fin 32) (b : CtlBlock) (agree : Bool) (x : Port) (s : State), x = portGet s p.val → Hears s p.val b 0x33 →
    bringsUp x = true →
    (x.state = 6 → exec (.alignBlock p b agree) s = .next (setPort p.val 5 12 s)) ∧
    (x.state = 3 → agree = false → exec (.alignBlock p b agree) s = .next (portPut p.val { x with alignSeen := 0 } s)) ∧
    (x.state = 3 → agree = true → x.alignSeen = 0 →
      exec (.alignBlock p b agree) s = .next (portPut p.val { x with alignSeen := 1 } s)) ∧
    (x.state = 3 → agree = true → x.alignSeen ≠ 0 → exec (.alignBlock p b agree) s = .next (afterDeskew p.val s)) ∧
    (x.state ≠ 3 → x.state ≠ 6 → exec (.alignBlock p b agree) s = .next s)) ∧
  (∀ (p : Fin 32) (l : Fin 4) (x : Port) (n : Nat) (s : State), x = portGet s p.val → isRx p.val = false →
    bringsUp x = true → 2 ≤ x.state → x.state ≤ 5 → x.lanes.getLsbD l.val = true →
    n = ((tget x.alignCount l.val).getD 0 + 1) % 2 ^ 32 →
    exec (.alignInterval p l) s = .next (sendLane p.val l.val ([0x33, 0, BitVec.ofNat 8 l.val] ++ leBytes n 4)
      (portPut p.val { x with alignCount := tset x.alignCount l.val n } s))) ∧
  (∀ (p : Fin 32) (b : CtlBlock) (s : State), Hears s p.val b 0x4B → exec (.capsBlock p b) s
    = .next (capsFragment p.val (pb b 2) (((payloadBytes b).drop 4).take 10) s)) ∧
  (∀ (p : Fin 32) (m : BackMsg) (s : State), HearsMsg s p.val m → m.type = 2 → m.payload.length = 11 →
    exec (.capsMessage p m) s
      = .next (capsFragment p.val (mb m 0).toNat (m.payload.drop 1) (heardMsg p.val s))) ∧
  (∀ (p : Fin 32) (m : BackMsg) (s : State), HearsMsg s p.val m → m.type = 1 → m.payload.length = 2 →
    bringsUp (portGet s p.val) = true → ((mb m 0).getLsbD 6 = true ∨ (mb m 0).getLsbD 7 = true) →
    2 ≤ (portGet s p.val).state → (portGet s p.val).state ≤ 5 →
    exec (.statusMessage p m) s = .next (portMod p.val (fun y => { y with skipCaps := y.record.isSome })
      (setPort p.val 1 9 (raise (64 + p.val) 9 (heardMsg p.val s))))) ∧
  (∀ (p : Fin 32) (m : BackMsg) (s : State), HearsMsg s p.val m → m.type = 1 → m.payload.length = 2 →
    bringsUp (portGet s p.val) = true → (portGet s p.val).state = 0 →
    exec (.statusMessage p m) s
      = .next (if (mb m 0).getLsbD 0 then setPort p.val 1 12 (heardMsg p.val s) else heardMsg p.val s)) ∧
  (∀ (p : Fin 32) (b : CtlBlock) (m : BackMsg) (s : State), (portGet s p.val).mode = 0 →
    exec (.trainBlock p b 0) s = .next s ∧ exec (.alignBlock p b true) s = .next s ∧ exec (.capsBlock p b) s = .next s ∧
    exec (.capsMessage p m) s = .next s ∧ exec (.statusMessage p m) s = .next s ∧ exec (.lpBlock p b) s = .next s ∧
    exec (.lpAck p m) s = .next s ∧ exec (.lpNak p m) s = .next s ∧ exec (.statusPeriod p) s = .next s) ∧
  (∀ (p : Fin 32) (b : CtlBlock) (s : State), (portGet s p.val).mode ≠ 0 → isRx p.val = true →
    (b.header = 0 ∨ b.header = 3) → exec (.capsBlock p b) s
      = .next (portPut p.val { portGet s p.val with headerErrs := sat 0xFFFFFFFF (portGet s p.val).headerErrs 1 } s)) ∧
  (∀ (p : Fin 32) (s : State), exec (.statusPeriod p) s = .next (sendStatus p.val s)) ∧
  (∀ (p : Fin 32) (s : State), isRx p.val = false → (portGet s p.val).mode ≠ 0 →
    (portGet s p.val).lastBack + 1000 ≤ now s → exec (.backLost p) s
      = .next (raise (64 + p.val) 7 (portPut p.val { portGet s p.val with backValid := false, lastBack := now s } s))) ∧
  (∀ (p : Fin 32) (s : State), bringsUp (portGet s p.val) = true → portLate s (portGet s p.val) = true →
    exec (.linkStateTimeout p) s = .next (portError p.val 11 (raise (64 + p.val) 11 s))) ∧
  (∀ (p : Fin 32) (s : State), portLate s (portGet s p.val) = false → exec (.linkStateTimeout p) s = .next s) ∧
  (∀ (p : Fin 32) (x : Port) (s : State), x = portGet s p.val → x.mode ≠ 0 → x.state = 8 → x.since + 1000 ≤ now s →
    (x.retry = 15 ∨ x.attempts < x.retry → exec (.linkErrorHold p) s = .next (setPort p.val 0 12 s)) ∧
    (x.retry ≠ 15 → x.retry ≤ x.attempts → exec (.linkErrorHold p) s = .next (raise (64 + p.val) 3 s))) ∧
  (∀ (p : Fin 32) (s : State), (portGet s p.val).state = 5 → (portGet s p.val).mode ≠ 0 →
    (portGet s p.val).since + 10000000 ≤ now s →
    exec (.linkActiveHold p) s = .next (portPut p.val { portGet s p.val with attempts := 0 } s)) ∧
  (∀ (p : Fin 32) (b : CtlBlock) (s : State), Hears s p.val b 0xA5 → (portGet s p.val).state = 5 →
    (∃ e ∈ (portGet s p.val).subs, e.2.inFrame = true) → exec (.lpBlock p b) s = .next (protoError p.val s)) ∧
  (∀ (p : Fin 32) (b : CtlBlock) (x : Port) (r : List Word) (s : State), x = portGet s p.val → Hears s p.val b 0xA5 →
    x.state = 5 → (∀ e ∈ x.subs, e.2.inFrame = false) → x.record = some r →
    (pb b 2 = 1 → (wd r 1).getLsbD 8 = true → x.allowLow1 = true → exec (.lpBlock p b) s = .next (setPort p.val 6 12
      (sendBack p.val 3 [1] (portPut p.val { x with
        low1Entries := sat 0xFFFFFFFF x.low1Entries 1, low2Entries := sat 0xFFFFFFFF x.low2Entries 0 } s)))) ∧
    (pb b 2 = 2 → (wd r 1).getLsbD 9 = true → x.allowLow2 = true → exec (.lpBlock p b) s = .next (setPort p.val 7 12
      (sendBack p.val 3 [2] (portPut p.val { x with
        low1Entries := sat 0xFFFFFFFF x.low1Entries 0, low2Entries := sat 0xFFFFFFFF x.low2Entries 1 } s)))) ∧
    ((pb b 2 = 1 → x.allowLow1 = false) → (pb b 2 = 2 → x.allowLow2 = false) →
      exec (.lpBlock p b) s = .next (sendBack p.val 4 [BitVec.ofNat 8 (pb b 2)] s))) ∧
  (∀ (p : Fin 32) (m : BackMsg) (x : Port) (s t : State), x = portGet s p.val → HearsMsg s p.val m → m.type = 3 →
    m.payload.length = 1 → x.state = 5 → x.lpRequest ≠ 0 → x.lpRequest = (mb m 0).toNat →
    t = setPort p.val (5 + x.lpRequest) 12 (portPut p.val { portGet (heardMsg p.val s) p.val with
      low1Entries := sat 0xFFFFFFFF x.low1Entries (b1 (decide (x.lpRequest = 1)))
      low2Entries := sat 0xFFFFFFFF x.low2Entries (b1 (decide (x.lpRequest = 2))) } (heardMsg p.val s)) →
    exec (.lpAck p m) s = .next (if stillWanted t p.val x.lpRequest then t else wakePort p.val t)) ∧
  (∀ (p : Fin 32) (m : BackMsg) (s : State), HearsMsg s p.val m → m.type = 4 →
    exec (.lpNak p m) s = .next (portMod p.val (fun x => { x with lpRequest := 0 }) (heardMsg p.val s))) ∧
  (∀ (p : Fin 32) (s : State), (portGet s p.val).low2Idle ≠ 0 → runningOn s p.val = false →
    (portGet s p.val).idleSince + (portGet s p.val).low2Idle * 1000 ≤ now s →
    exec (.low2IdleExpiry p) s = .next (requestLow p.val 2 s)) ∧
  (∀ (p : Fin 32) (l : Fin 4) (x : Port) (s : State), x = portGet s p.val → x.test = true → isRx p.val = true →
    (x.testLanes.getLsbD l.val = true → exec (.prbsSync p l) s
      = .next (portPut p.val { x with prbsSync := x.prbsSync ||| BitVec.ofNat 4 (2 ^ l.val) } s)) ∧
    (∀ e n : BitVec 32, x.prbsSync.getLsbD l.val = true → 128 < e.toNat → exec (.prbsSyncLost p l e n) s
      = .next (raise (64 + p.val) 8 (portPut p.val { x with
        prbsErrs := tset x.prbsErrs l.val (sat 0xFFFFFFFF ((tget x.prbsErrs l.val).getD 0) e.toNat)
        bitsChecked := x.bitsChecked + n.toNat * 1024, resyncs := sat 65535 x.resyncs 1
        prbsSync := x.prbsSync &&& ~~~ BitVec.ofNat 4 (2 ^ l.val) } s))) ∧
    (∀ e n : BitVec 32, e.toNat ≤ 128 → exec (.prbsSyncLost p l e n) s = .next s))

/-- The stream blocks of an ACTIVE receive port act on the stream of their sub-stream and lane, LOS and LOL end what is in
progress, and a port that is powered down takes nothing (R285–R288, R293, R294). -/
def Obligations.LinkStreamEvents : Prop :=
  (∀ (p : Fin 32) (b : CtlBlock) (h : Handle) (s : State), Carries s p.val b 0x55 h →
    exec (.fsBlock p b) s = .next (onFs p.val (framingOf s p.val b) b h s)) ∧
  (∀ (p : Fin 32) (b : CtlBlock) (d : List CtlBlock) (full : Bool) (h : Handle) (s t : State), Carries s p.val b 0x66 h →
    t = countData p.val b d s → exec (.lsBlock p b d full) s = .next (addLine h (pbs b 2 4)
      (linePixels (frameFmt t h) (pbs b 4 6) ((dataOf s p.val b d).take (pbs b 6 8))) full
      (beyondLs (frameFmt t h) (pbs b 4 6) (pbs b 6 8) (dataOf s p.val b d).length) t)) ∧
  (∀ (p : Fin 32) (b : CtlBlock) (d : List CtlBlock) (full : Bool) (h : Handle) (s : State), Carries s p.val b 0x66 h →
    (∀ k ∈ d, k.header = 1 ∧ streamOn s p.val (pb b 1 % 4) k.lane.val = some h) →
    exec (.lsBlock p b d full) s = .next (addLine h (pbs b 2 4)
      (linePixels (frameFmt s h) (pbs b 4 6) ((d.map (fun k => k.payload)).take (pbs b 6 8))) full
      (beyondLs (frameFmt s h) (pbs b 4 6) (pbs b 6 8) d.length) s)) ∧
  (∀ (p : Fin 32) (b : CtlBlock) (h : Handle) (s : State), Carries s p.val b 0x78 h →
    exec (.feBlock p b) s = .next (endFrame h (subMod p.val (framingOf s p.val b) (fun y => { y with inFrame := false }) s))) ∧
  (∀ (p : Fin 32) (b : CtlBlock) (d : List CtlBlock) (h : Handle) (s : State), Carries s p.val b 0x87 h →
    (srcGet s h).state = .stopped → exec (.ancBlock p b d) s = .next (countData p.val b d s)) ∧
  (∀ (p : Fin 32) (b : CtlBlock) (d : List CtlBlock) (ws : List Nat) (h : Handle) (s : State), Carries s p.val b 0x87 h →
    (srcGet s h).state ≠ .stopped → ws = unpack ((dataOf s p.val b d).take (pbs b 9 11)) 10 (pb b 8 + 1) →
    exec (.ancBlock p b d) s = .next (ancArrive h {
      did := pb b 2, sdid := pb b 3, line := pbs b 4 6, hoff := pbs b 6 8, words := ws.take (pb b 8)
      badSum := decide (ws.getD (pb b 8) 0 ≠ ancSum (pb b 2) (pb b 3) (ws.take (pb b 8))) } (countData p.val b d s))) ∧
  (∀ (p : Fin 32) (b : CtlBlock) (d : List CtlBlock) (h : Handle) (s : State), Carries s p.val b 0x96 h →
    exec (.audBlock p b d) s = .next (onAud b (dataOf s p.val b d) h (countData p.val b d s))) ∧
  (∀ (p : Fin 32) (b : CtlBlock) (d : List CtlBlock) (full : Bool) (s : State), (portGet s p.val).mode = 0 →
    exec (.fsBlock p b) s = .next s ∧ exec (.lsBlock p b d full) s = .next s ∧ exec (.feBlock p b) s = .next s ∧
    exec (.ancBlock p b d) s = .next s ∧ exec (.audBlock p b d) s = .next s ∧ exec (.linkLos p) s = .next s ∧
    exec (.linkLol p) s = .next s) ∧
  (∀ (p : Fin 32) (b : CtlBlock) (s : State), (∃ t ∈ [0x55, 0x66, 0x78, 0x87, 0x96], Hears s p.val b t) →
    (portGet s p.val).state ≠ 5 → exec (.fsBlock p b) s = .next s) ∧
  (∀ (p : Fin 32) (s : State), exec (.linkLos p) s = .next (portLoss p.val 0 s) ∧
    exec (.linkLol p) s = .next (portLoss p.val 1 s))

/-! ### Ethernet (R304–R324) -/

/-- The commands on Ethernet ports, stream entries, relays, flows and pairs (R304–R324). -/
def Obligations.EthernetCommands : Prop :=
  (Row .setEthPort specSetEthPort
    (fun c s => (bb c 0 6 = false → bf c 0 9 8 = 0) ∧ bf c 2 5 0 ≤ 32 ∧ ethBound s (bf c 0 2 0) = false) .ok nothing
    (fun c s => rehop (ethMod (ethKey (bf c 0 2 0) (bf c 0 9 8)) (fun x => { x with
        ipv4 := bw c 1, prefixLen := bf c 2 5 0, ipv6 := bn128 c 3, gw4 := bw c 7, gw6 := bn128 c 8 })
      (ethMod (bf c 0 2 0) (fun x => { x with mode := bf c 0 5 4, breakout := bb c 0 6 }) s)))) ∧
  (Row .createStreamEntry specCreateStreamEntry
    (fun c s => EntryFits c s ∧ s.eth.entries.length < 8192 ∧ quotaUse s c.page 3 < quotaOf s c.page 3
      ∧ shortfall s (withAskedEntry c s).2 = none) .ok
    (fun c s => [word (withAskedEntry c s).1]) (fun c s => (withAskedEntry c s).2)) ∧
  (∀ (x : Source) (e : Entry), Row .deleteStreamEntry specDeleteStreamEntry
    (fun c s => Owns c s x ∧ tget s.eth.entries (bn c 0) = some e) .ok nothing (fun c s => deleteEntry (bn c 0) s)) ∧
  (∀ (x : Source) (e : Entry), Row .setRelay specSetRelay
    (fun c s => Owns c s x ∧ tget s.eth.entries (bn c 0) = some e ∧ ∀ k < 6, bw c (2 + k) = 0) .ok nothing
    (fun c s => relayed c e (tdel e.relays (bf c 1 2 0)) s)) ∧
  (∀ (x : Source) (e : Entry), Row .setRelay specSetRelay
    (fun c s => Owns c s x ∧ tget s.eth.entries (bn c 0) = some e ∧ (∃ k < 6, bw c (2 + k) ≠ 0) ∧ bf c 1 2 0 < 4
      ∧ addrFault c 2 s = none ∧ shortfall s (relayed c e (tset e.relays (bf c 1 2 0) (askedRelay c e)) s) = none) .ok
    nothing (fun c s => relayed c e (tset e.relays (bf c 1 2 0) (askedRelay c e)) s)) ∧
  (Row .createFlow specCreateFlow (fun c s => FlowFits c s ∧ shortfall s (withAskedFlow c s) = none) .ok
    (fun c _ => [word (bf c 0 9 0)]) withAskedFlow) ∧
  (∀ f : Flow, Row .deleteFlow specDeleteFlow
    (fun c s => HasFlow c s (bf c 0 9 0) f ∧ flowBound s (bf c 0 9 0) = false ∧ f.tx = true) .ok nothing
    (fun c s => rehop (setEth { s.eth with flows := tdel s.eth.flows (bf c 0 9 0) } s))) ∧
  (∀ (f : Flow) (t : State), Row .deleteFlow specDeleteFlow
    (fun c s => HasFlow c s (bf c 0 9 0) f ∧ flowBound s (bf c 0 9 0) = false ∧ f.tx = false
      ∧ t = groupNow false f.addr f.src s) .ok nothing
    (fun c _ => rehop (setEth { t.eth with flows := tdel t.eth.flows (bf c 0 9 0) } t))) ∧
  (∀ f : Flow, RowRefuses .deleteFlow specDeleteFlow
    (fun c s => HasFlow c s (bf c 0 9 0) f ∧ flowBound s (bf c 0 9 0) = true) .state) ∧
  (Row .armYoyo specArmYoyo (fun c _ => bb c 0 2 = false ∧ bn c 1 = 0 ∧ bn c 2 = 0) .ok nothing
    (fun c s => enterPair (bf c 0 1 0) 0 4 false s)) ∧
  (∀ t : State, Row .armYoyo specArmYoyo
    (fun c s => bb c 0 2 = true ∧ 50 ≤ orDefault (bn c 1) 200 ∧ orDefault (bn c 1) 200 ≤ 5000
      ∧ orDefault (bn c 2) 30 ≤ 3600 ∧ (ethGet s (2 * bf c 0 1 0)).mode = (ethGet s (2 * bf c 0 1 0 + 1)).mode
      ∧ (ethGet s (2 * bf c 0 1 0)).breakout = false ∧ (ethGet s (2 * bf c 0 1 0 + 1)).breakout = false
      ∧ t = pairPut (bf c 0 1 0) { pairGet s (bf c 0 1 0) with
        criteria := if bf c 0 6 4 = 0 then 3 else BitVec.ofNat 3 (bf c 0 6 4)
        silenceMs := orDefault (bn c 1) 200, holdoffS := orDefault (bn c 2) 30, effHoldoff := orDefault (bn c 2) 30 } s)
    .ok nothing (fun c s => if (pairGet s (bf c 0 1 0)).state = 0 then enterPair (bf c 0 1 0) 1 4 false t else t)) ∧
  (∀ (k st : Nat) (t : State), Row .yoyoSwitch specYoyoSwitch
    (fun c s => k = bf c 0 1 0 ∧ st = (if bb c 0 2 then 2 else 1) ∧ (pairGet s k).state ≠ 0 ∧ t = evaluatePair k s
      ∧ ((pairGet t k).state ≠ st → ethUp t (2 * k + b1 (bb c 0 2)) = true)) .ok nothing
    (fun _ _ => if (pairGet t k).state = st then t else enterPair k st 4 false t)) ∧
  (RowRefuses .yoyoSwitch specYoyoSwitch (fun c s => (pairGet s (bf c 0 1 0)).state = 0) .state) ∧
  (∀ y : Yoyo, Row .getEthStatus specGetEthStatus
    (fun c s => 8 ≤ bf c 0 3 0 ∧ bf c 0 3 0 < 12 ∧ bf c 0 5 4 = 0 ∧ y = pairGet s (bf c 0 3 0 - 8)) .ok
    (fun _ s => [word y.state, word y.effHoldoff, word y.switchOvers,
      if y.switchOvers = 0 then Config.freeWord s.free else word ((now s - y.lastSwitch) / 1000)]) same) ∧
  (∀ (x : EthPort) (m : Nat), Row .getEthStatus specGetEthStatus
    (fun c s => bf c 0 3 0 < 8 ∧ x = ethGet s (ethKey (bf c 0 3 0) (bf c 0 5 4))
      ∧ m = Config.macAddress (bf c 0 3 0) (bf c 0 5 4)
      ∧ (bf c 0 5 4 = 0 ∨ (ethGet s (bf c 0 3 0)).breakout = true)
      ∧ (c.page = 0 ∨ (∃ e ∈ s.eth.entries, hPart e.1 = c.page ∧ bf c 0 3 0 ∈ portsOf e.2.addr.port)
        ∨ ∃ f ∈ s.eth.flows, f.2.owner = c.page ∧ bf c 0 3 0 ∈ portsOf f.2.addr.port)) .ok
    (fun c s => [word (b1 (ethUp s (ethKey (bf c 0 3 0) (bf c 0 5 4)))), word m, word (m / 2 ^ 32 % 65536), word x.unmatched,
      word x.bufferDrops, word x.fecBad]) same) ∧
  (Row .getEthStatus specGetEthStatus
    (fun c s => bf c 0 3 0 < 8 ∧ bf c 0 5 4 = 0 ∧ c.page ≠ 0
      ∧ (∀ e ∈ s.eth.entries, hPart e.1 = c.page → bf c 0 3 0 ∉ portsOf e.2.addr.port)
      ∧ (∀ f ∈ s.eth.flows, f.2.owner = c.page → bf c 0 3 0 ∉ portsOf f.2.addr.port)) .ok
    (fun _ _ => [0, 0, 0, 0, 0, 0]) same) ∧
  (∀ f : Flow, Row .sendAnc specSendAnc
    (fun c s => HasFlow c s (bf c 0 9 0) f ∧ f.tx = true ∧ f.essence = 2 ∧ c.len = 4 + 528 * bf c 0 19 16
      ∧ 1 ≤ bf c 0 19 16 ∧ bf c 0 19 16 ≤ 8 ∧ (∀ a ∈ askedAnc c, a.did ≠ 0 ∧ a.sdid ≠ 0)
      ∧ f.hostQueue.length + bf c 0 19 16 ≤ 64) .ok
    (fun c _ => [word (bf c 0 19 16), word (64 - f.hostQueue.length - bf c 0 19 16), word f.ancDropped])
    (fun c s => flowMod (bf c 0 9 0) (fun f => { f with hostQueue := f.hostQueue ++ (askedAnc c).map (fun a => (a, 0)) }) s)) ∧
  (∀ f : Flow, RowRefuses .sendAnc specSendAnc
    (fun c s => HasFlow c s (bf c 0 9 0) f ∧ f.tx = true ∧ f.essence = 2 ∧ c.len = 4 + 528 * bf c 0 19 16
      ∧ 1 ≤ bf c 0 19 16 ∧ bf c 0 19 16 ≤ 8 ∧ ∃ a ∈ askedAnc c, a.did = 0 ∨ a.sdid = 0) .range)

/-- What happens on Ethernet ports and pairs: packets, link changes, criteria, probes and hold-offs (R304–R319). -/
def Obligations.EthernetEvents : Prop :=
  (∀ (p : Fin 8) (k : EthPacket) (s : State), ((ethGet s p.val).mode = 0 ∨ k.subport ≠ 0 ∧ (ethGet s p.val).breakout = false) →
    exec (.ethPacket p k) s = .next s) ∧
  (∀ (p : Fin 8) (k : EthPacket) (s : State), ethRuns s (ethKey p.val k.subport.val) = true → 1522 < k.length →
    exec (.ethPacket p k) s
      = .next (ethMod (ethKey p.val k.subport.val) (fun x => { x with oversize := sat 0xFFFFFFFF x.oversize 1 }) s)) ∧
  (∀ (p : Fin 8) (k : EthPacket) (s : State), ethRuns s (ethKey p.val k.subport.val) = true → k.length ≤ 1522 → k.kind = .udp →
    (∀ e ∈ s.eth.entries, e.2.encoder = none → addrMatch s p.val e.2.addr e.2.src k = false) →
    (∀ f ∈ s.eth.flows, f.2.tx = false → addrMatch s p.val f.2.addr f.2.src k = false) →
    exec (.ethPacket p k) s
      = .next (ethMod (ethKey p.val k.subport.val) (fun x => { x with unmatched := sat 0xFFFFFFFF x.unmatched 1 }) s)) ∧
  (∀ (p : Fin 8) (k : EthPacket) (h : Handle) (e : Entry) (s : State), ethRuns s (ethKey p.val k.subport.val) = true →
    k.length ≤ 1522 → k.kind = .udp →
    s.eth.entries = [(h, e)] → e.encoder = none → addrMatch s p.val e.addr e.src k = true → s.eth.flows = [] →
    exec (.ethPacket p k) s = .next (entryPacket h p.val k.bufferFull k.rtp (pairDelivers e.addr p.val s))) ∧
  (∀ (p : Fin 8) (k : EthPacket) (s : State), ethRuns s (ethKey p.val k.subport.val) = true → k.length ≤ 1522 →
    (k.kind = .tcp → exec (.ethPacket p k) s
      = .next (ethMod (ethKey p.val k.subport.val) (fun x => { x with unmatched := sat 0xFFFFFFFF x.unmatched 1 }) s)) ∧
    (∀ mac, k.kind = .solicit mac → exec (.ethPacket p k) s = .next (answerNeighbour p.val k mac s))) ∧
  (∀ (p : Fin 8) (sub : Fin 4) (k : Nat) (s t : State), k = ethKey p.val sub.val → (ethGet s k).linkUp = true →
    t = raise (96 + p.val) 0 (ethMod k (fun x => { x with linkUp := false }) s) →
    exec (.ethLinkDown p sub) s = .next (if isStandby s p.val then raise (104 + p.val / 2) 5 t else t)) ∧
  (∀ (p : Fin 8) (sub : Fin 4) (s : State), (ethGet s (ethKey p.val sub.val)).linkUp = false →
    exec (.ethLinkDown p sub) s = .next s) ∧
  (∀ (p : Fin 8) (sub : Fin 4) (k : Nat) (s : State), k = ethKey p.val sub.val → (ethGet s k).linkUp = false →
    ethRuns s k = true → exec (.ethLinkUp p sub) s
      = .next (raise (96 + p.val) 1 (ethMod k (fun x => { x with linkUp := true, phase := [], phaseUsed := 0 }) s))) ∧
  (∀ (p : Fin 8) (sub : Fin 4) (s : State), (ethGet s (ethKey p.val sub.val)).linkUp = true ∨ (ethGet s p.val).mode = 0 →
    exec (.ethLinkUp p sub) s = .next s) ∧
  (∀ (p : Fin 8) (sub : Fin 4) (k n : Nat) (s t : State), held s = false → k = ethKey p.val sub.val →
    n = (if (ethGet s k).fecMs = now s / 1000 then (ethGet s k).fecMsCount + 1 else 1) →
    t = raise (96 + p.val) 4 (ethMod k (fun x => { x with
      fecBad := sat 0xFFFFFFFF x.fecBad 1, fecMs := now s / 1000, fecMsCount := n }) s) →
    exec (.fecCodewordUncorrected p sub) s
      = .next (if n = 101 ∧ isStandby s p.val then raise (104 + p.val / 2) 5 t else t)) ∧
  (∀ (k : Fin 4) (s : State), exec (.yoyoEvaluation k) s = .next (evaluatePair k.val s)) ∧
  (∀ (k : Fin 4) (s : State), ((pairGet s k.val).state = 1 ∨ (pairGet s k.val).state = 2) →
    (pairGet s k.val).criteria.getLsbD 1 = true → pairReceives s k.val = true →
    (pairGet s k.val).lastPacket + (pairGet s k.val).silenceMs * 1000 ≤ now s →
    exec (.silenceTimeout k) s = .next (pairPut k.val { pairGet s k.val with silence := true } s)) ∧
  (∀ (k : Fin 4) (p : Nat) (s : State), activeIn k.val (pairGet s k.val).state = some p → (pairGet s k.val).state ≠ 0 →
    (pairGet s k.val).criteria.getLsbD 2 = true → pairHops s k.val p ≠ [] →
    (pairGet s k.val).lastReply + (pairGet s k.val).silenceMs * 1000 ≤ now s →
    exec (.nexthopTimeout k) s = .next (pairPut k.val { pairGet s k.val with nexthop := true } s)) ∧
  (∀ (k : Fin 4) (s : State), (pairGet s k.val).state = 0 → exec (.silenceTimeout k) s = .next s ∧
    exec (.nexthopTimeout k) s = .next s ∧ exec (.nexthopProbe k) s = .next s ∧ exec (.holdoffRestore k) s = .next s ∧
    exec (.bothLostNexthopHold k true) s = .next s) ∧
  (∀ (k : Fin 4) (s : State), (pairGet s k.val).state = 1 → exec (.nexthopProbe k) s
    = .next ((pairHops s k.val (2 * k.val)).foldl (fun t h => send (.probe (2 * k.val) h.address) t) s)) ∧
  (∀ (p : Fin 8) (sub : Fin 4) (a : BitVec 128) (m : BitVec 48) (s : State), findHop s (ethKey p.val sub.val) a = none →
    exec (.arpReply p a m sub) s = .next s ∧ exec (.resolveFail p a sub) s = .next s) ∧
  (∀ (p : Fin 8) (sub : Fin 4) (a : BitVec 128) (m : BitVec 48) (k : Nat) (h : NextHop) (s t : State),
    k = ethKey p.val sub.val → findHop s k a = some h →
    t = { s with eth := { s.eth with hops := s.eth.hops.map (fun h =>
      if h.port = k ∧ h.address = a then { h with mac := some m, lastReply := now s } else h) } } →
    activeIn (p.val / 2) (pairGet s (p.val / 2)).state ≠ some k → exec (.arpReply p a m sub) s = .next t) ∧
  (∀ s : State, exec .nexthopRefresh s = .next (s.eth.hops.foldl (fun t h => sendProbe h.port h.address t) s)) ∧
  (∀ (p : Fin 8) (sub : Fin 4) (a : BitVec 128) (k : Nat) (h : NextHop) (s : State), k = ethKey p.val sub.val →
    findHop s k a = some h →
    exec (.resolveFail p a sub) s = .next (raise (96 + p.val) 5 { s with eth := { s.eth with hops := s.eth.hops.map (fun h =>
      if h.port = k ∧ h.address = a then { h with mac := none } else h) } })) ∧
  (∀ (k : Fin 4) (t : Nat) (s : State), (pairGet s k.val).aCleanSince = some t → (pairGet s k.val).state = 2 →
    aClean s k.val = true → t + (pairGet s k.val).effHoldoff * 1000000 ≤ now s →
    exec (.holdoffExpiry k) s = .next (pairPut k.val { pairGet (enterPair k.val 1 3 false s) k.val with returned := true }
      (enterPair k.val 1 3 false s))) ∧
  (∀ (k : Fin 4) (s : State), (pairGet s k.val).aCleanSince = none → exec (.holdoffExpiry k) s = .next s) ∧
  (∀ (k : Fin 4) (s : State), (pairGet s k.val).state = 1 →
    (pairGet s k.val).onASince + (pairGet s k.val).effHoldoff * 1000000 ≤ now s →
    exec (.holdoffRestore k) s = .next (pairPut k.val { pairGet s k.val with
      effHoldoff := (pairGet s k.val).holdoffS, returned := false } s)) ∧
  (∀ (k : Fin 4) (t : Nat) (s : State), (pairGet s k.val).reachA = some t → (pairGet s k.val).state = 3 →
    pairReceives s k.val = false → t + 1000000 ≤ now s →
    exec (.bothLostNexthopHold k false) s = .next (enterPair k.val 1 3 false s))

/-! ### The recording pool (R325–R344) -/

/-- The commands on the pool, on recorded streams and on encode contexts (R328–R342). -/
def Obligations.PoolCommands : Prop :=
  (∀ k : Nat, Row .getPoolDrives specGetPoolDrives (fun c _ => k = bf c 0 7 0 ∧ k + 6 < 256) .okPartial
    (fun _ s => [driveWord s k, driveWord s (k + 1), driveWord s (k + 2), driveWord s (k + 3), driveWord s (k + 4),
      driveWord s (k + 5)]) same) ∧
  (∀ k : Nat, Row .getPoolDrives specGetPoolDrives (fun c _ => k = bf c 0 7 0 ∧ 256 ≤ k + 6) .ok
    (fun _ s => ((List.range (min 6 (256 - k))).map (fun i => driveWord s (k + i)) ++ [word s.pool.unslotted.length]).take 6)
    same) ∧
  (Row .formatPool specFormatPool
    (fun c s => askedSlots c ≠ [] ∧ s.pool.formatting = none ∧ s.pool.streams = [] ∧ s.shifts = []
      ∧ (∀ x ∈ askedDrives c s, x.state = 1 ∨ x.state = 6 ∧ bb c 9 0 = true)
      ∧ (∀ x ∈ askedDrives c s, segArea x.slots (bn c 8) (askedSlots c).length < x.slots)
      ∧ ((askedDrives c s).map (fun x => x.slots - segArea x.slots (bn c 8) (askedSlots c).length)).sum ≤ 2 ^ 32) .ok nothing
    (fun c s => (askedSlots c).foldl (fun t k => layOut (askedSlots c) (bn c 8) k t)
      (setPool { s.pool with formatting := some (askedSlots c, bn c 8), formats := s.pool.formats + 1 } s))) ∧
  (Row .getPoolStatus specGetPoolStatus Always .ok
    (fun c s => [word (b1 s.pool.mounted), if c.page = 0 then word ((s.pool.drives.filter (fun e =>
        decide (3 ≤ e.2.state ∧ e.2.state ≤ 5))).map (fun e => freeSegs e.2)).sum else 0,
      word (segUse s c.page), word (quotaOf s c.page 10), word s.pool.tier2]) same) ∧
  (∀ (i : Nat) (k : KeySlot), Row .createRecording specCreateRecording
    (fun c s => Names c s 7 ∧ keySlot s (bn c 0) = some (i, k) ∧ 100 ≤ askedSegMs c ∧ askedSegMs c ≤ 60000
      ∧ askedPreroll c ≤ 10000 ∧ askedPostroll c ≤ 60000
      ∧ (bb c 1 0 = false → askedPreroll c = 0 ∧ askedPostroll c = 0)
      ∧ k.owner = c.page ∧ tb k.policy 0 = true ∧ sealed s k = false ∧ quotaOf s c.page 10 ≠ 0) .ok
    (fun c s => [word (newHandle c.page 6 s).1, word s.pool.nextStreamId])
    (fun c s => setPool { (newHandle c.page 6 s).2.pool with
      nextStreamId := s.pool.nextStreamId + 1
      streams := tset (newHandle c.page 6 s).2.pool.streams (newHandle c.page 6 s).1 (askedRecording c s) }
      (newHandle c.page 6 s).2)) ∧
  (∀ x : Recording, Row .closeRecording specCloseRecording (fun c s => HasRecording c s x ∧ x.state ≠ 2) .ok nothing
    (fun c s => closeStream (bn c 0) s)) ∧
  (∀ x : Recording, RowRefuses .closeRecording specCloseRecording (fun c s => HasRecording c s x ∧ x.state = 2) .state) ∧
  (∀ x : Recording, Row .assignRecording specAssignRecording
    (fun c s => HasRecording c s x ∧ (box s (bf c 1 3 0)).active = true ∧ hPart (bn c 0) ≠ bf c 1 3 0 ∧ x.state = 2) .ok
    (fun c s => [word (reassign (bn c 0) (bf c 1 3 0) s).1]) (fun c s => (reassign (bn c 0) (bf c 1 3 0) s).2)) ∧
  (∀ x : Recording, RowWaits .exportSegments specExportSegments
    (fun c s => HasRecording c s x ∧ bn64 c 2 % 4 = 0 ∧ bn c 4 % 1048576 = 0 ∧ bn c 4 ≤ 67108864)
    (fun c _ => .exportSegs (bn c 0) (bn c 1) (bn64 c 2) (bn c 4 / 1048576)) same) ∧
  (∀ x : Recording, RowWaits .readManifest specReadManifest
    (fun c s => HasRecording c s x ∧ bn64 c 2 % 4 = 0 ∧ bn c 4 % 4096 = 0 ∧ bn c 4 ≤ 67108864)
    (fun c _ => .exportMans (bn c 0) (bn c 1) (bn64 c 2) (bn c 4 / 4096)) same) ∧
  (∀ x : Recording, Row .markExported specMarkExported (fun c s => HasRecording c s x ∧ bn c 1 < x.nextManifest) .ok nothing
    (fun c s => setPool { s.pool with segments := s.pool.segments.map (fun e =>
      if e.stream = bn c 0 ∧ e.written = true ∧ e.group ≤ bn c 1
          ∧ s.pool.manifests.any (fun m => decide (m.stream = e.stream ∧ m.seq = e.group))
      then { e with exported := true } else e) } s)) ∧
  (∀ (x : Recording) (gs : List Nat), Row .deleteSegments specDeleteSegments
    (fun c s => HasRecording c s x ∧ bn c 1 < x.nextManifest
      ∧ gs = (s.pool.manifests.filter (fun m => decide (m.stream = bn c 0 ∧ m.seq ≤ bn c 1))).map (fun m => m.seq)
      ∧ ∀ g ∈ gs, underExport s (bn c 0) g = false) .ok nothing
    (fun c s => reopenAll (gs.foldl (fun s g => removeGroup (bn c 0) g s) s))) ∧
  (∀ x : Recording, RowRefuses .deleteSegments specDeleteSegments
    (fun c s => HasRecording c s x ∧ x.nextManifest ≤ bn c 1) .range) ∧
  (∀ x : Recording, Row .getRecordingStatus specGetRecordingStatus (fun c s => HasRecording c s x) .ok
    (fun c s => [word x.state, word x.nextChain, word x.nextManifest,
      word (s.pool.segments.filter (fun e => decide (e.stream = bn c 0))).length, word x.gaps, word x.segLoss]) same) ∧
  (∀ k : Nat, Row .createEncodeContext specCreateEncodeContext
    (fun c s => EncodeInRange c ∧ (domainGet s (bf c 0 15 12)).rate = bf c 0 19 16
      ∧ quotaUse s c.page 6 < quotaOf s c.page 6 ∧ quotaUse s c.page 3 < quotaOf s c.page 3
      ∧ s.eth.entries.length < 8192
      ∧ k = (if bf c 0 7 0 = 255 then chooseEncoder s ⟨bf c 1 12 0 * bf c 1 28 16 * rate1001 (bf c 0 19 16), 1001⟩
        else bf c 0 7 0)
      ∧ shortfall s (makeEncode c k s).2.2 = none) .ok
    (fun c s => [word (makeEncode c k s).1, word (makeEncode c k s).2.1, word k]) (fun c s => (makeEncode c k s).2.2)) ∧
  (∀ x : EncodeCtx, Row .deleteEncodeContext specDeleteEncodeContext
    (fun c s => HasEncode c s x ∧ sinkBound s (bn c 0) = false) .ok nothing
    (fun c s => resizeRings (deleteEncode (bn c 0) s))) ∧
  (∀ x : EncodeCtx, RowRefuses .deleteEncodeContext specDeleteEncodeContext
    (fun c s => HasEncode c s x ∧ sinkBound s (bn c 0) = true) .state) ∧
  (∀ x : EncodeCtx, Row .getEncodeStatus specGetEncodeStatus (fun c s => HasEncode c s x) .ok
    (fun _ s => [word x.frames, word x.missing, word x.clipped, word (lastRate x s)]) same)

/-- What happens to the pool's drives, segments, episodes, manifests and encodes (R325–R344). -/
def Obligations.PoolEvents : Prop :=
  (∀ s : State, s.pool.formatting = none → exec .poolDone s = .next s) ∧
  (∀ (l : List Nat) (gib : Nat) (s t : State), s.pool.formatting = some (l, gib) →
    t = membered l gib s (foreigners l s (emptied l gib s)) →
    exec .poolDone s = .next (slotWaiting (postNtf 0 0x0D01 [word (((l.filter (driveHere s)).map (fun k =>
      ((tget t.pool.drives k).getD {}).segs)).sum), word t.pool.tier2] t))) ∧
  (∀ (n : BitVec 16) (err : Bool) (s : State), s.exec = none → exec (.exportDone n err) s = .next s) ∧
  (∀ (n : BitVec 16) (e : Executing) (unit first a want : Nat) (l : List (Nat × Option (List Byte)))
      (full r : List (List Byte) × Nat × Nat) (s : State), s.exec = some e →
    exportList s e.waits = some (unit, first, a, want, l) → full = exportTake want first l →
    r = (if full.1.length ≤ n.toNat then full else exportTake n.toNat first l) → Reaches s a r.1.flatten.length →
    exec (.exportDone n false) s = .next (complete e false 0 (if n.toNat < full.1.length then .okPartial else .ok)
      [word (min n.toNat full.1.length), word r.2.1, word r.2.2] (wrote a r.1.flatten s))) ∧
  (∀ (h : Word) (n : BitVec 32) (clip : Bool) (x : EncodeCtx) (s : State), tget s.pool.encodes h.toNat = some x →
    x.busy = false → exec (.encodeFrameDone h n clip) s = .next s) ∧
  (∀ (h : Word) (n : BitVec 32) (clip cut : Bool) (x : EncodeCtx) (ps : List Rtp) (s t : State),
    tget s.pool.encodes h.toNat = some x → x.busy = true → cut = (clip || decide (sentBytes s x n < n.toNat)) →
    ps = encodePackets x (decide (x.frames % x.gop = 0)) (word (divOpen (now s * 9) 100)) s.free (sentBytes s x n) →
    t = encodedFrame h.toNat x (sentBytes s x n) cut ps.length s →
    exec (.encodeFrameDone h n clip) s = .next (ps.foldl (fun t p =>
      (tget t.eth.entries x.entry).elim t (fun e => deliver x.entry e false p t))
      (if cut then raise (179 + x.core) 1 t else t))) ∧
  (∀ (r : Fin 4) (d : DriveInfo) (s : State), held s = false →
    exec (.drivePresenceChange r d true) s = .next (finishKeys (addDrive r.val d (raise (108 + r.val) 0 s))) ∧
    exec (.drivePresenceChange r d false) s = .next (finishKeys (slotWaiting (removeDrive d (raise (108 + r.val) 1 s))))) ∧
  (∀ (k : Fin 256) (ok : Bool) (s : State), oldestOp s k.val = none → exec (.nvmeCompletion k ok) s = .next s) ∧
  (∀ (k : Fin 256) (op : NvmeOp) (t0 : Nat) (s t : State), oldestOp s k.val = some (op, t0) →
    t = setPool { s.pool with ops := popOp k.val s.pool.ops } s →
    exec (.nvmeCompletion k true) s = .next (finishKeys (opDone k.val op t)) ∧
    (op ≠ .errorLog → exec (.nvmeCompletion k false) s
      = .next (finishKeys (issueOp k.val op (issueOp k.val .errorLog (raise (portSource s (some k.val)) 3 t))))) ∧
    (op = .errorLog → exec (.nvmeCompletion k false) s = .next (finishKeys (raise (portSource s (some k.val)) 3 t)))) ∧
  (∀ (k : Fin 256) (o : Nat × NvmeOp × Nat) (s : State), o ∈ s.pool.ops → o.1 = k.val → opLate s o.2.1 o.2.2 = true →
    readable s k.val = true → exec (.nvmeTimeout k) s = .next (finishKeys (loseMember k.val 4 (raise (portSource s (some k.val)) 2
      (driveMod k.val (fun x => { x with stalledAt := now s }) s))))) ∧
  (∀ (k : Fin 256) (s : State), (∀ o ∈ s.pool.ops, o.1 ≠ k.val) → exec (.nvmeTimeout k) s = .next s) ∧
  (∀ (k : Fin 256) (x : Drive) (s t : State), tget s.pool.drives k.val = some x → x.state = 4 →
    x.stalledAt + 10000000 ≤ now s →
    t = driveMod k.val (fun x => { x with stalledAt := now s }) (send (.nvme k.val .readHeader) s) →
    exec (.stallHeaderRetry k true) s = .next (memberBack k.val t) ∧ exec (.stallHeaderRetry k false) s = .next t) ∧
  (∀ (r : Fin 4) (w : Bool) (s : State), now s < (tget s.pool.smartAt r.val).getD 0 + 60000000 →
    exec (.smartPoll r w) s = .next s) ∧
  (∀ (r : Fin 4) (s t : State), held s = false → (tget s.pool.smartAt r.val).getD 0 + 60000000 ≤ now s →
    t = ((s.pool.drives.filter (fun e =>
        decide (e.2.root = r.val ∧ e.2.state ≠ 0 ∧ e.2.state ≠ 4 ∧ e.2.state ≠ 5))).map Prod.fst).foldl
      (fun t k => issueOp k .smartLog t) (setPool { s.pool with smartAt := tset s.pool.smartAt r.val (now s) } s) →
    exec (.smartPoll r true) s = .next (raise (108 + r.val) 4 t) ∧ exec (.smartPoll r false) s = .next t) ∧
  (∀ (h : Word) (s : State), recGet s h.toNat = none → exec (.segmentTimeLimit h) s = .next s ∧
    exec (.postrollExpiry h) s = .next s) ∧
  (∀ (h : Word) (x : Recording) (g : OpenSeg) (s : State), recGet s h.toNat = some x → x.seg = some g →
    g.bytes ≠ [] → g.firstAt + x.segMaxMs * 1000 ≤ now s →
    exec (.segmentTimeLimit h) s = .next (closeSeg h.toNat true s)) ∧
  (∀ (h : Word) (x : Recording) (t : Nat) (s : State), recGet s h.toNat = some x → x.episodeEnds = some t → t ≤ now s →
    exec (.postrollExpiry h) s = .next (endEpisode h.toNat s)) ∧
  (∀ s : State, s.pool.queue = [] → exec .manifestSigned s = .next s) ∧
  (∀ (r : ManReq) (t : List ManReq) (s : State), s.pool.queue = r :: t → (s.vault.selfTest = false ∨ s.vault.entropy = true) →
    exec .manifestSigned s = .next (signManifest r (setPool { s.pool with queue := t } s))) ∧
  (∀ (r : ManReq) (t : List ManReq) (s : State), s.pool.queue = r :: t → s.vault.selfTest = true → s.vault.entropy = false →
    exec .manifestSigned s = .next s)

/-! ### The key vault (R345–R356) -/

/-- The key commands, the signing queue and the entropy tests: after a failed known-answer test every key command is
refused with ERR_STATE; otherwise each does what its row says (R345–R356). -/
def Obligations.VaultRows : Prop :=
  (∀ k : Nat, Row .generateKey specGenerateKey
    (fun c s => s.vault.selfTest = true ∧ (bf c 0 1 0 = 1 ∧ (bf c 0 6 4 = 1 ∨ bf c 0 6 4 = 2) ∨ bf c 0 1 0 = 2 ∧ bf c 0 6 4 = 4)
      ∧ s.vault.entropy = true
      ∧ (List.range 1024).find? (fun k => (slotGet s k).key.isNone && !(slotGet s k).retired) = some k
      ∧ quotaUse s c.page 11 < quotaOf s c.page 11) .ok
    (fun c s => [word (keyHandle k (madeKey c k s)), word k])
    (fun c s => slotPut k { madeKey c k s with statement := statementOf s k (madeKey c k s) s.vault.nextKey }
      (setVault { s.vault with nextKey := s.vault.nextKey + 1 } { s with free := s.free + 1 }))) ∧
  (RowRefuses .generateKey specGenerateKey (fun _ s => s.vault.selfTest = false) .state) ∧
  (RowRefuses .getIdentity specGetIdentity (fun _ s => s.vault.selfTest = false) .state) ∧
  (RowRefuses .getVaultStatus specGetVaultStatus (fun _ s => s.vault.selfTest = false) .state) ∧
  (∀ (i : Nat) (x : KeySlot), Row .zeroiseKey specZeroiseKey
    (fun c s => HasKey c s true i x ∧ keyPending (zeroise i s) (keyHandle i x) = false) .ok nothing (fun _ s => zeroise i s)) ∧
  (∀ (i : Nat) (x : KeySlot), RowWaits .zeroiseKey specZeroiseKey
    (fun c s => HasKey c s true i x ∧ keyPending (zeroise i s) (keyHandle i x) = true) (fun _ _ => .zeroise i)
    (fun _ s => zeroise i s)) ∧
  (∀ (i : Nat) (x : KeySlot), Row .getAttestation specGetAttestation
    (fun c s => HasKey c s true i x ∧ bn64 c 1 % 4 = 0 ∧ sealed s x = false
      ∧ Reaches s (bn64 c 1) (bytesOf x.statement).length) .ok nothing
    (fun c s => wrote (bn64 c 1) (bytesOf x.statement) s)) ∧
  (Row .getIdentity specGetIdentity
    (fun c s => s.vault.selfTest = true ∧ bn64 c 1 % 4 = 0 ∧ Reaches s (bn64 c 1) (bytesOf (certificate s)).length) .ok
    nothing (fun c s => wrote (bn64 c 1) (bytesOf (certificate s)) s)) ∧
  (∀ (i : Nat) (x : KeySlot), RowWaits .signDigest specSignDigest
    (fun c s => HasKey c s false i x ∧ c.len = 60 ∧ bn64 c 1 % 4 = 0 ∧ tb x.policy 1 = true ∧ sealed s x = false
      ∧ s.vault.entropy = true ∧ s.vault.hostQueue < 64)
    (fun c _ => .signDigest i (bn64 c 1) ((bytesOf c.body).drop 12))
    (fun _ s => setVault { s.vault with hostQueue := s.vault.hostQueue + 1 } s)) ∧
  (∀ (i : Nat) (x : KeySlot) (data : List Byte), Row .cryptData specCryptData
    (fun c s => HasKey c s false i x ∧ bb c 1 0 = false ∧ 1 ≤ bn c 4 ∧ bn c 4 ≤ 65536
      ∧ bn64 c 5 % 4 = 0 ∧ tb x.policy 2 = true ∧ sealed s x = false ∧ x.seals < 2 ^ 32
      ∧ hostRead s (bn64 c 2) (bn c 4) = some data
      ∧ Reaches (slotPut i { x with seals := x.seals + 1 } s) (bn64 c 5) (sealedBytes (bn c 0) x data (bn c 4)).length) .ok
    (fun c _ => [word (sealedBytes (bn c 0) x data (bn c 4)).length])
    (fun c s => wrote (bn64 c 5) (sealedBytes (bn c 0) x data (bn c 4)) (slotPut i { x with seals := x.seals + 1 } s))) ∧
  (∀ (i : Nat) (x : KeySlot) (data : List Byte), Row .cryptData specCryptData
    (fun c s => HasKey c s false i x ∧ bb c 1 0 = true ∧ 29 ≤ bn c 4 ∧ bn c 4 ≤ 65564
      ∧ bn64 c 5 % 4 = 0 ∧ tb x.policy 2 = true ∧ sealed s x = false ∧ hostRead s (bn64 c 2) (bn c 4) = some data
      ∧ tagGood (bn c 0) x data (bn c 4) = true
      ∧ Reaches s (bn64 c 5) (openedBytes (bn c 0) x data (bn c 4)).length) .ok
    (fun c _ => [word (openedBytes (bn c 0) x data (bn c 4)).length])
    (fun c s => wrote (bn64 c 5) (openedBytes (bn c 0) x data (bn c 4)) s)) ∧
  (∀ (i : Nat) (x : KeySlot) (data : List Byte), Row .cryptData specCryptData
    (fun c s => HasKey c s false i x ∧ bb c 1 0 = true ∧ 29 ≤ bn c 4 ∧ bn c 4 ≤ 65564
      ∧ bn64 c 5 % 4 = 0 ∧ tb x.policy 2 = true ∧ sealed s x = false ∧ hostRead s (bn64 c 2) (bn c 4) = some data
      ∧ tagGood (bn c 0) x data (bn c 4) = false) .inconsistent nothing (fun _ s => unsealFail s)) ∧
  (Row .getVaultStatus specGetVaultStatus (fun _ s => s.vault.selfTest = true) .ok
    (fun c s => [word (quotaUse s c.page 11), word (quotaOf s c.page 11),
      pack [(b1 s.sys.debug, 0, 0), (b1 s.vault.selfTest, 1, 1), (b1 s.vault.entropy, 2, 2)], word s.pool.queue.length,
      word s.vault.hostQueue, word (s.vault.slots.filter (fun e => e.2.retired)).length]) same) ∧
  (∀ (healthy : Bool) (s : State), held s = false → exec (.entropyHealthChange healthy) s
    = .next (if s.vault.entropy && !healthy then raise 227 1 (setVault { s.vault with entropy := healthy } s)
      else setVault { s.vault with entropy := healthy } s)) ∧
  (∀ s : State, s.exec = none → exec .digestSigned s = .next s) ∧
  (∀ (e : Executing) (i a : Nat) (dig bs : List Byte) (s : State), s.exec = some e → e.waits = .signDigest i a dig →
    s.pool.queue = [] → s.vault.entropy = true → Reaches s a 96 →
    bs = beBytes (Config.ecdsaSign ((slotGet s i).key.getD 0) (BitVec.ofNat 384 (ofBe dig)) s.free).toNat 96 →
    exec .digestSigned s = .next (complete e false 0 .ok []
      (wrote a bs (setVault { s.vault with hostQueue := s.vault.hostQueue - 1 } { s with free := s.free + 1 })))) ∧
  (∀ (e : Executing) (i a : Nat) (dig : List Byte) (s : State), s.exec = some e → e.waits = .signDigest i a dig →
    (s.pool.queue ≠ [] ∨ s.vault.entropy = false) → exec .digestSigned s = .next s)

/-! ### Domino groups (R357–R371) -/

/-- The commands on a Domino group (R358–R371). -/
def Obligations.DominoCommands : Prop :=
  (∀ t : State, Row .setDomino specSetDomino
    (fun c s => GroupFits c ∧ (∀ p ∈ usedPorts c, (portGet s p).mode = 2) ∧ s.domino.exports = []
      ∧ (∀ e ∈ s.sources, e.2.deleted = false → ∀ o x r, e.2.kind ≠ .imported o x r)
      ∧ t = enterDomino (if bf c 0 4 2 = 0 then 0 else 1) none (setDomino (askedGroup c s.domino) s)) .ok nothing
    (fun _ s => setDomino { t.domino with since := now s } t)) ∧
  (Row .getDominoStatus specGetDominoStatus (fun c _ => c.page ≠ 0) .ok
    (fun _ s => [groupWord s, divergenceWord s]) same) ∧
  (Row .getDominoStatus specGetDominoStatus (fun c _ => c.page = 0) .ok
    (fun _ s => [groupWord s, divergenceWord s, s.domino.epoch, s.domino.frame,
      pack ((List.range 4).map (fun r =>
        (if r ∈ ringsOf s.domino then ringUnits s r - unitsUsed s r else 0, 8 * r + 7, 8 * r))),
      word s.domino.lostTotal]) same) ∧
  (∀ x : Source, Row .createExport specCreateExport
    (fun c s => Owns c s x ∧ exportable x = true ∧ s.domino.count ≠ 0 ∧ diverges s = false
      ∧ tget s.domino.exports (bf c 1 5 0) = none) .ok nothing
    (fun c s => setDomino { s.domino with exports := tset s.domino.exports (bf c 1 5 0) {
      source := bn c 0, peer := bf c 1 11 8, owner := x.owner } } s)) ∧
  (∀ e : Export, Row .deleteExport specDeleteExport
    (fun c s => tget s.domino.exports (bf c 0 5 0) = some e ∧ (c.page = 0 ∨ e.owner = c.page)) .ok nothing
    (fun c s => setDomino { s.domino with
      exports := if s.domino.subs.any (fun u => decide (u.xport = bf c 0 5 0)) then
        tset s.domino.exports (bf c 0 5 0) { e with ending := true } else tdel s.domino.exports (bf c 0 5 0) } s)) ∧
  (∀ (f : Format) (u : Nat), RowWaits .createImport specCreateImport
    (fun c s => 2 ≤ importDepth c ∧ importDepth c ≤ 16 ∧ (bf c 1 15 12 < 8 ∨ 14 < bf c 1 15 12) ∧ s.domino.count ≠ 0
      ∧ s.domino.state ≠ 1 ∧ bf c 0 1 0 < s.domino.count ∧ bf c 0 1 0 ≠ s.domino.member
      ∧ bf c 0 17 16 ∈ ringsOf s.domino ∧ dependsOn s (bf c 0 1 0) = false ∧ s.domino.divergent.getLsbD 3 = false
      ∧ f = importFmt (bf c 0 1 0) (bf c 0 13 8) (bf c 1 15 12) (importDepth c)
      ∧ StreamFits c (.imported (bf c 0 1 0) (bf c 0 13 8) (bf c 0 17 16)) f u s)
    (fun c s => .importReq (request c.page (bf c 0 1 0) 1 (bf c 0 13 8) (bf c 0 17 16) s).1 (bf c 0 1 0) (bf c 0 13 8)
      (bf c 0 17 16) { f with ic := u })
    (fun c s => (request c.page (bf c 0 1 0) 1 (bf c 0 13 8) (bf c 0 17 16) s).2)) ∧
  (∀ (f : Format) (u : Nat) (n : Need), RowFails .createImport specCreateImport
    (fun c s => 2 ≤ importDepth c ∧ importDepth c ≤ 16 ∧ (bf c 1 15 12 < 8 ∨ 14 < bf c 1 15 12) ∧ s.domino.count ≠ 0
      ∧ s.domino.state ≠ 1 ∧ bf c 0 1 0 < s.domino.count ∧ bf c 0 1 0 ≠ s.domino.member
      ∧ bf c 0 17 16 ∈ ringsOf s.domino ∧ dependsOn s (bf c 0 1 0) = false ∧ s.domino.divergent.getLsbD 3 = false
      ∧ f = importFmt (bf c 0 1 0) (bf c 0 13 8) (bf c 1 15 12) (importDepth c)
      ∧ quotaUse s c.page 4 < quotaOf s c.page 4
      ∧ (if f.ic = 15 then chooseIc s f = some u else icStreams s f.ic < 32 ∧ u = f.ic)
      ∧ (makeSource c.page (.imported (bf c 0 1 0) (bf c 0 13 8) (bf c 0 17 16)) f u s).2.objects.length ≤ 262144
      ∧ shortfall s (makeSource c.page (.imported (bf c 0 1 0) (bf c 0 13 8) (bf c 0 17 16)) f u s).2 = some n) .admission
    (fun c s => shortWords (spareOf s
      (makeSource c.page (.imported (bf c 0 1 0) (bf c 0 13 8) (bf c 0 17 16)) f u s).2 n) 0)) ∧
  (RowWaits .dominoQuery specDominoQuery
    (fun c s => tget s.domino.issued (bf c 0 31 16) = some c.page ∧ diverges s = false
      ∧ s.domino.divergent.getLsbD 3 = false)
    (fun c _ => .query (bf c 0 31 16) (bf c 0 1 0))
    (fun c s => setDomino { s.domino with waiting := s.domino.waiting ++
      [requestBytes s.domino.member (bf c 0 1 0) (bf c 0 31 16) 4 0 0 c.page] } s)) ∧
  (RowRefuses .dominoQuery specDominoQuery (fun c s => tget s.domino.issued (bf c 0 31 16) ≠ some c.page) .notOwner)

/-- The group's frames, control blocks and timers (R359–R371). Where capture stops in a frame, and which BEACON sets the phase
after LEADERLESS, is the model's reading (log entries 152, 153). -/
def Obligations.DominoEvents : Prop :=
  (∀ s : State, s.domino.count = 0 → s.domino.opensAt = none → exec .groupFrameStart s = .next s) ∧
  (∀ s : State, s.domino.count ≠ 0 → (∀ q, s.domino.opensAt = some q → now s < q) → exec .groupFrameStart s
    = .next (setDomino { nextFrame s with lost := 0, opensAt := some (now s + 25 * s.domino.member + 1) } s)) ∧
  (∀ (q : Nat) (s t : State), s.domino.opensAt = some q → q ≤ now s → s.domino.count ≠ 0 →
    (s.domino.state = 0 ∨ s.domino.state = 3) →
    t = setDomino { s.domino with
      opensAt := none, beaconAt := if s.domino.member = 0 then now s else s.domino.beaconAt } s →
    exec .groupFrameStart s
      = .next (setDomino { nextFrame t with lost := 0, opensAt := some (now s + 25 * s.domino.member + 1) } t)) ∧
  (∀ (q room : Nat) (ups : List Nat) (s t : State), s.domino.opensAt = some q → q ≤ now s → s.domino.count ≠ 0 →
    s.domino.state ≠ 0 → s.domino.state ≠ 3 → ups = (ringsOf s.domino).filter (ringUp s) → ups ≠ [] →
    room = (if s.domino.state = 4 then 0 else (ups.map (windowBlocks s)).foldl min s.domino.waiting.length) →
    t = (windowFirst s ++ s.domino.waiting.take room).foldl (fun t b => ups.foldl (fun t r => sendRing r b t) t)
      (setDomino { s.domino with
        opensAt := none, beaconAt := if s.domino.member = 0 then now s else s.domino.beaconAt
        viewSent := bits (recWord (ownRecord16 s) 0) 31 20, waiting := s.domino.waiting.drop room } s) → t.domino.count ≠ 0 →
    exec .groupFrameStart s
      = .next (setDomino { nextFrame t with lost := 0, opensAt := some (now t + 25 * (nextFrame t).member + 1) } t)) ∧
  (∀ (r : Fin 4) (b : CtlBlock) (d : Int) (s : State), r.val ∉ ringsOf s.domino →
    exec (.beaconBlock r b d) s = .next s ∧ exec (.markBlock r b d) s = .next s ∧ exec (.stateBlock r b) s = .next s ∧
    exec (.requestBlock r b) s = .next s ∧ exec (.answerBlock r b) s = .next s) ∧
  (∀ (r : Fin 4) (b : CtlBlock) (d : Int) (s t : State), RingHears s r.val b 0xB4 → s.domino.member ≠ 0 →
    t = forward r.val b (setDomino { s.domino with
      ringBeacon := tset s.domino.ringBeacon r.val (now s), lastBeacon := now s } s) →
    exec (.beaconBlock r b d) s = .next (if actsOn t r.val then onBeacon b d t else t)) ∧
  (∀ (r : Fin 4) (b : CtlBlock) (d : Int) (s t u : State), RingHears s r.val b 0xB4 → s.domino.member = 0 →
    u = setDomino { s.domino with ringBeacon := tset s.domino.ringBeacon r.val (now s), lastBeacon := now s } s →
    t = checkFormed (setDomino { u.domino with
      loops := if s.domino.state = 1 then tset s.domino.loops r.val (now u - s.domino.beaconAt) else s.domino.loops }
      (sendIdle r.val 1 u)) →
    exec (.beaconBlock r b d) s
      = .next (if t.domino.state = 4 then enterDomino 2 (some 3) (raise 239 3 t) else t)) ∧
  (∀ (r : Fin 4) (b : CtlBlock) (d : Int) (s : State), RingHears s r.val b 0xC3 → pb b 2 ≠ s.domino.member →
    pb b 2 ≠ 0 → pb b 2 < s.domino.count → slotLost s (pb b 2) = false →
    (1000 < d.natAbs → actsOn s r.val = true → exec (.markBlock r b d) s = .next (raise 239 1
      (setDomino { (sendIdle r.val 1 s).domino with
        lost := s.domino.lost ||| BitVec.ofNat 4 (2 ^ pb b 2), lostTotal := sat 0xFFFFFFFF s.domino.lostTotal 1 }
        (sendIdle r.val 1 s)))) ∧
    (d.natAbs ≤ 500 → exec (.markBlock r b d) s = .next (forward r.val b s)) ∧
    (500 < d.natAbs → d.natAbs ≤ 1000 → actsOn s r.val = true → exec (.markBlock r b d) s
      = .next (slotEdge (pb b 2) (forward r.val b s)))) ∧
  (∀ (r : Fin 4) (b : CtlBlock) (s : State), RingHears s r.val b 0xD2 → exec (.stateBlock r b) s
    = .next (slotBlock r.val (pb b 2) b (fun t =>
      if 3 < pb b 3 then t
      else
        let l := tset (if pb b 3 = 0 then [] else (tget t.domino.frags (pb b 2)).getD []) (pb b 3)
          ((List.range 10).map (fun j => BitVec.ofNat 8 (pb b (4 + j))))
        if (List.range 4).all (fun j => (tget l j).isSome) then
          onRecord (pb b 2) ((List.range 4).flatMap (fun j => (tget l j).getD []))
            (setDomino { t.domino with frags := tdel (tset t.domino.frags (pb b 2) l) (pb b 2) } t)
        else setDomino { t.domino with frags := tset t.domino.frags (pb b 2) l } t) s)) ∧
  (∀ (r : Fin 4) (b : CtlBlock) (s : State), RingHears s r.val b 0xE1 → exec (.requestBlock r b) s
    = .next (slotBlock r.val (pb b 2) b
      (fun t => if pb b 3 = t.domino.member then onRequest b t
        else setDomino (noteRequest ⟨pb b 2, pb b 3, pbs b 4 6, pb b 6, pb b 7, pb b 8⟩ t.domino) t) s)) ∧
  (∀ (r : Fin 4) (b : CtlBlock) (s : State), RingHears s r.val b 0xF0 → exec (.answerBlock r b) s
    = .next (slotBlock r.val (pb b 2) b (fun t =>
      (fun u => if pb b 3 = u.domino.member then onAnswer b u else u)
        (noteAnswer (pb b 2) (pb b 3) (pbs b 4 6) (pbs b 6 8) (pb b 8) t)) s)) ∧
  (∀ s : State, s.exec = none → exec .importRequestTimeout s = .next s) ∧
  (∀ (e : Executing) (n o x r : Nat) (f : Format) (s : State), s.exec = some e → e.waits = .importReq n o x r f →
    exec .importRequestTimeout s = .next (if e.takenAt + 20000 ≤ now s ∨ ringUp s r = false then
      complete e false 0 .indeterminate [] (raise 242 0 s) else s)) ∧
  (∀ (e : Executing) (n o : Nat) (s : State), s.exec = some e → e.waits = .query n o →
    exec .importRequestTimeout s
      = .next (if e.takenAt + 20000 ≤ now s ∨ (∀ r ∈ ringsOf s.domino, ringUp s r = false) then
        complete e false 0 .indeterminate [] (raise 242 0 s) else s)) ∧
  (∀ (h : Word) (x : Source) (o k r : Nat) (s : State), liveSource s h.toNat = some x → x.kind = .imported o k r →
    (now s < (tget s.domino.renewedAt h.toNat).getD 0 + 1000000 → exec (.subscriptionRenew h) s = .next s) ∧
    ((tget s.domino.renewedAt h.toNat).getD 0 + 1000000 ≤ now s → exec (.subscriptionRenew h) s
      = .next (setDomino { (request x.owner o 2 k r s).2.domino with
        renewedAt := tset (request x.owner o 2 k r s).2.domino.renewedAt h.toNat (now s) } (request x.owner o 2 k r s).2))) ∧
  (∀ (h : Word) (s : State), liveSource s h.toNat = none → exec (.subscriptionRenew h) s = .next s) ∧
  (∀ (m : Fin 4) (k : Fin 64) (r : Fin 4) (old : Sub → Bool) (s : State),
    (∀ u, old u = decide (u.member = m.val ∧ u.xport = k.val ∧ u.ring = r.val ∧ u.renewed + 3000000 ≤ now s)) →
    exec (.renewExpired m k r) s = .next (if s.domino.subs.any old then
      raise 242 1 (setDomino { s.domino with subs := s.domino.subs.filter (fun u => !old u) } s) else s)) ∧
  (∀ s : State, (s.domino.state = 2 ∨ s.domino.state = 3) → s.domino.lastBeacon + 1000 ≤ now s →
    exec .leaderlessTimeout s = .next (enterDomino 4 (some 2) (raise 240 2 s))) ∧
  (∀ s : State, s.domino.state ≠ 2 → s.domino.state ≠ 3 → exec .leaderlessTimeout s = .next s) ∧
  (∀ (n : BitVec 32) (s : State), s.domino.state = 1 → s.domino.since + 1000000 ≤ now s →
    (s.domino.member ≠ 0 ∨ n.toNat ≤ 96000 ∧ ∀ e ∈ s.domino.loops, e.2 ≤ 96) →
    exec (.formFail n) s = .next (raise 240 1 (setDomino { s.domino with since := now s, loopFail := false } s))) ∧
  (∀ (n : BitVec 32) (s : State), s.domino.state = 1 → s.domino.member = 0 →
    (96000 < n.toNat ∨ ∃ e ∈ s.domino.loops, 96 < e.2) →
    exec (.formFail n) s
      = .next (raise 240 1 (setDomino { s.domino with since := now s, loops := [], loopFail := true } s))) ∧
  (∀ (n : BitVec 32) (s : State), s.domino.state ≠ 1 → exec (.formFail n) s = .next s) ∧
  (∀ (a : BitVec 8) (s t : State),
    a = s.domino.divergent ||| BitVec.ofNat 8 (bitmap ((List.range 8).filter (fun i =>
      decide (8 ≤ s.domino.differs.getD i 0)))) →
    t = stopCapture (raise 241 0 (setDomino { s.domino with divergent := a } s)) →
    (a ≠ s.domino.divergent → exec .divergencePersist s
      = .next (if a.getLsbD 2 && !s.domino.divergent.getLsbD 2 then relock t else t)) ∧
    (a = s.domino.divergent → s.domino.divergent ≠ 0 → 8 ≤ s.domino.agrees →
      exec .divergencePersist s = .next (raise 241 1 (setDomino { s.domino with divergent := 0 } s))) ∧
    (a = s.domino.divergent → (s.domino.divergent = 0 ∨ s.domino.agrees < 8) → exec .divergencePersist s = .next s))

/-! ### Faults and events (R372–R384) -/

/-- The commands of the event block and what raises a source from outside it: memory errors, the fault state, folded
records, event timers, PCIe, pins, the debug port and locked sequences (R44, R372–R384, R429). -/
def Obligations.FaultRows : Prop :=
  Row .setEventDelivery specSetEventDelivery
    (fun c s => c.page = 0 ∨ (evOwner s (bf c 0 7 0) = c.page ∧ bb c 1 22 = false)) .ok nothing
    (fun c s => writeDelivery (bf c 0 7 0) ((bw c 1).extractLsb' 0 16) (bf c 1 21 16) (bb c 1 22) s) ∧
  RowRefuses .setEventDelivery specSetEventDelivery
    (fun c s => c.page ≠ 0 ∧ (evOwner s (bf c 0 7 0) ≠ c.page ∨ bb c 1 22 = true)) .notOwner ∧
  (∀ (l : List Nat) (st : Status), Row .readEvents specReadEvents
    (fun c s => (bb c 0 9 = true → c.page = 0) ∧ pendingFrom s c.page (bf c 0 7 0) (bb c 0 9) = l
      ∧ st = if 6 < l.length then .okPartial else .ok) st
    (fun _ s => (l.take 6).map (fun n => pack [(n, 7, 0), ((causeOf s n).toNat, 31, 16)]))
    (fun c s => if bb c 0 8 = true then (l.take 6).foldl (fun t n =>
      if evOwner s n = c.page then clearCause n (causeOf s n) t else t) s else s)) ∧
  RowRefuses .readEvents specReadEvents (fun c _ => bb c 0 9 = true ∧ c.page ≠ 0) .notOwner ∧
  Row .setSeverity specSetSeverity (fun c _ => sevFixed (bf c 0 7 0) = false) .ok nothing
    (fun c s => evPut (bf c 0 7 0) { evGet s (bf c 0 7 0) with
      severity := bf c 0 9 8, sevCauses := (bw c 0).extractLsb' 16 16 } s) ∧
  RowRefuses .setSeverity specSetSeverity (fun c _ => sevFixed (bf c 0 7 0) = true) .state ∧
  Row .getFaultStatus specGetFaultStatus Always .ok
    (fun _ s => [hubWord s 0, hubWord s 1, s.events.hub.firstPtime.extractLsb' 0 32,
      s.events.hub.firstPtime.extractLsb' 32 32, word s.events.hub.recoveries, word (quietLeft s)]) same ∧
  Row .setQuietPeriod specSetQuietPeriod (fun c _ => 1 ≤ bn c 0 ∧ bn c 0 ≤ 600000) .ok nothing
    (fun c s => writeQuiet (bn c 0) s) ∧
  RowRefuses .setQuietPeriod specSetQuietPeriod (fun c _ => bn c 0 = 0 ∨ 600000 < bn c 0) .range ∧
  Row .ackFault specAckFault Always .ok nothing
    (fun c s => if bb c 0 1 = true then clearOverflow (if bb c 0 0 = true then clearFirst s else s)
      else if bb c 0 0 = true then clearFirst s else s) ∧
  Row .setEventTimer specSetEventTimer (fun c _ => bn c 1 ≤ 3600000) .ok nothing
    (fun c s => { s with events := { s.events with
      timers := if bn c 1 = 0 then tdel s.events.timers (bf c 0 1 0)
        else tset s.events.timers (bf c 0 1 0) (bn c 1, now s + bn c 1 * 1000) } }) ∧
  RowRefuses .setEventTimer specSetEventTimer (fun c _ => 3600000 < bn c 1) .range ∧
  (∀ (i : Fin 4) (ms t : Nat) (s : State), tget s.events.timers i.val = some (ms, t) →
    (t ≤ now s → exec (.eventTimerExpiry i) s = .next (raise 254 i.val { s with events := { s.events with
      timers := tset s.events.timers i.val (ms, t + ms * 1000) } })) ∧
    (now s < t → exec (.eventTimerExpiry i) s = .next s)) ∧
  (∀ s : State, exec (.hbmEccUncorrected []) s = .next (raise 246 0 s) ∧
    exec .hbmEccCorrected s = .next (raise 245 0 s)) ∧
  (∀ (n : Fin 256) (k : Fin 16) (s : State), (subsOf n.val).getLsbD k.val = true → isLevel n.val = false →
    (n.val < 246 → exec (.hbmEccUncorrected [(n, k)]) s = .next (raise 246 0 (raise n.val k.val s))) ∧
    (246 < n.val → exec (.hbmEccUncorrected [(n, k)]) s = .next (raise n.val k.val (raise 246 0 s)))) ∧
  (∀ s : State, s.events.hub.fault = true → s.events.hub.lastCritical + s.events.hub.quietMs * 1000 ≤ now s →
    exec (.faultExit none) s = .next (raise 247 1 { s with events := { s.events with hub := { s.events.hub with
      fault := false, recoveries := sat 0xFFFFFFFF s.events.hub.recoveries 1 } } })) ∧
  (∀ (r : Option (Fin 256 × Fin 16)) (s : State), quietOver s = false → exec (.faultExit r) s = .next s) ∧
  (∀ (r : Option (Fin 256 × Fin 16)) (s : State), quietOver s = true → quietOver (raiseRival r s) = false →
    exec (.faultExit r) s = .next (raiseRival r s)) ∧
  (∀ (n : Fin 256) (t : Nat) (s : State), (evGet s n.val).recordedAt = some t → (evGet s n.val).folded ≠ 0 →
    t + 1000000 ≤ now s → fwRuns s = true →
    exec (.musicBoxFoldExpiry n) s = .next (record
      (eventRecord s n.val (evGet s n.val).lastSub (sevOf s n.val (evGet s n.val).lastSub) (evGet s n.val).folded)
      (evPut n.val { evGet s n.val with recordedAt := some (now s), folded := 0 } s))) ∧
  (∀ (n : Fin 256) (s : State), (evGet s n.val).folded = 0 → exec (.musicBoxFoldExpiry n) s = .next s) ∧
  (∀ s : State, exec .firmwareException s = .next (if fwRuns s = true then raise 249 0 s else s) ∧
    exec .pcieHotReset s = .next s ∧
    exec (.pcieAerError true) s = .next (raise 112 4 s) ∧ exec (.pcieAerError false) s = .next (raise 112 3 s)) ∧
  (∀ s : State, s.sys.pcieUp = true → exec .pcieLinkUp s = .next s ∧
    exec .pcieLinkDown s = .next (raise 112 0 { s with sys := { s.sys with pcieUp := false } })) ∧
  (∀ s : State, held s = false → s.sys.pcieUp = false → exec .pcieLinkDown s = .next s ∧
    exec .pcieLinkUp s = .next (raise 112 1 { s with sys := { s.sys with pcieUp := true } })) ∧
  (∀ (f : Fin 16) (s : State), held s = false → f.val ≠ 0 → exec (.vfFlr f) s = .next (raise 112 2 (flrPage f.val s))) ∧
  (∀ s : State, held s = false → exec (.vfFlr 0) s = .next s ∧
    exec .pfFlr s = .next (raise 112 2 ((List.range 16).foldl (fun s p => flrPage p s) s))) ∧
  (∀ (p : Fin 16) (s : State), (s.exec = none ∨ ∃ e, s.exec = some e ∧ e.page ≠ p.val) →
    box (flrPage p.val s) p.val = { box s p.val with
      cmdHead := 0, cmdTail := 0, cplHead := 0, cplTail := 0, ntfHead := 0, ntfTail := 0 }) ∧
  (∀ (p : Fin 16) (s : State), exec (.gpioEdge p) s = .next (raise 253 p.val
    { s with sys := { s.sys with gpio := s.sys.gpio ^^^ BitVec.ofNat 16 (2 ^ p.val) } })) ∧
  (∀ s : State, s.sys.debug = true → s.sys.debugAttached = false →
    exec .debugAttach s = .next (raise 255 0 { s with sys := { s.sys with debugAttached := true } }) ∧
    exec .debugDetach s = .next s ∧ exec .debugHalt s = .next s) ∧
  (∀ s : State, s.sys.debugAttached = true → exec .debugAttach s = .next s ∧ exec .debugHalt s = .next (raise 255 2 s) ∧
    exec .debugDetach s = .next (raise 255 1 { s with sys := { s.sys with debugAttached := false } })) ∧
  (∀ s : State, s.sys.debug = false → exec .debugAttach s = .next s) ∧
  (∀ (a : BitVec 23) (s : State), held s = false → exec (.lockedSequenceTimeout 1 a) s
      = .next (raise 238 0 { s with sys := { s.sys with lockBroken := some 1 } }) ∧
    (s.sys.debug = true → exec (.lockedSequenceTimeout 0 a) s
      = .next (raise 238 0 { s with sys := { s.sys with lockBroken := some 0 } })) ∧
    exec (.lockedSequenceTimeout 2 a) s = .next (send .unsupportedRequest s))

/-! ### The parameter store, the Music Box and the always-on domain (R385–R401) -/

/-- The commands of the persistence block, the end of a store, the checkpoint, tamper edges and the VBAT check. -/
def Obligations.PersistenceRows : Prop :=
  (∀ (n : Nat) (st : Status), Row .writeParamPage specWriteParamPage
    (fun c s => 1 ≤ bn c 1 ∧ bn c 1 ≤ 1024 ∧ (c.bulk = true → c.len = 8 + 4 * cdiv (bn c 1) 4)
      ∧ (c.bulk = false → bn c 1 ≤ 40) ∧ s.persist.powerFail = false ∧ n = min (bn c 1) (256 - bf c 0 23 16)
      ∧ st = if n < bn c 1 then .okPartial else .ok) st
    (fun _ _ => [word n])
    (fun c s => setPersist { (storeAdvance s).persist with
      pages := tset (storeAdvance s).persist.pages (bf c 0 9 0) { pageGet (storeAdvance s) (bf c 0 9 0) with
        bytes := memWrite 0 (pageGet (storeAdvance s) (bf c 0 9 0)).bytes (bf c 0 23 16) (((bytesOf c.body).drop 8).take n)
        state := 1 } } (storeAdvance s))) ∧
  RowRefuses .writeParamPage specWriteParamPage (fun c s => 1 ≤ bn c 1 ∧ bn c 1 ≤ 40 ∧ c.bulk = false
    ∧ s.persist.powerFail = true) .state ∧
  Row .readParamPage specReadParamPage (fun c s => bn64 c 1 % 4 = 0
      ∧ Reaches (storeAdvance s) (bn64 c 1) (memRead 0 (pageGet (storeAdvance s) (bf c 0 9 0)).bytes 0 256).length) .ok
    (fun c s => [word (pageGet (storeAdvance s) (bf c 0 9 0)).state, word (pageGet (storeAdvance s) (bf c 0 9 0)).store])
    (fun c s => wrote (bn64 c 1) (memRead 0 (pageGet (storeAdvance s) (bf c 0 9 0)).bytes 0 256) (storeAdvance s)) ∧
  RowWaits .store specStore Always (fun _ s => .store (nextStore s)) (fun _ s => startStore (storeAdvance s)) ∧
  (∀ t : State, Row .recallParams specRecallParams
    (fun _ s => t = recallEvents false (setPersist { (storeAdvance s).persist with
      pages := recalledPages (storeAdvance s)
      storeRows := (storeAdvance s).persist.storeRows.take (storeAdvance s).persist.storeCopied
        ++ ((storeAdvance s).persist.storeRows.drop (storeAdvance s).persist.storeCopied).filter
          (fun r => decide (1024 ≤ r)) } (storeAdvance s))) .ok
    (fun _ _ => [word (pagesIn t.persist.pages 2).length, word (pagesIn t.persist.pages 3).length,
      word (((t.persist.pages.find? (fun e => decide (2 ≤ e.2.state))).map Prod.fst).getD 0xFFFFFFFF)])
    (fun _ _ => t)) ∧
  (∀ (q : List (List Word) × Word × Nat × Bool) (st : Status), Row .readMusicBox specReadMusicBox
    (fun c s => bn64 c 2 % 4 = 0 ∧ bn c 4 % 64 = 0 ∧ 64 ≤ bn c 4 ∧ bn c 4 ≤ 16384
      ∧ q = boxTake (bn c 4 / 64) (bw c 0) 0 (boxAfter s (bn c 0) (bb c 1 0))
      ∧ st = (if q.2.2.2 = true then .okPartial else .ok)
      ∧ Reaches s (bn64 c 2) (bytesOf q.1.flatten).length) st
    (fun _ _ => [word q.1.length, q.2.1, word q.2.2.1])
    (fun c s => wrote (bn64 c 2) (bytesOf q.1.flatten) s)) ∧
  Row .writeNote specWriteNote Always .ok (fun _ s => [word s.persist.nextSeq])
    (fun c s => record { kind := 7, code := bf c 0 15 0, payload := [bw c 1, bw c 2, bw c 3, bw c 4, bw c 5, bw c 6,
      bw c 7, bw c 8] } s) ∧
  (∀ t : State, Row .getPersistStatus specGetPersistStatus (fun _ s => t = storeAdvance s) .ok
    (fun _ _ => [word t.persist.storesDone, word t.persist.markStore,
      pack [((t.persist.pages.filter (fun e => decide (e.2.state = 1))).length, 15, 0),
        ((t.persist.box.filter (fun e => e.2.dirty)).length, 31, 16)], word t.persist.nextSeq,
      word (t.persist.box.filter (fun e => decide (e.1 < 64))).length, t.sys.bootCount]) (fun _ _ => t)) ∧
  Row .getTamper specGetTamper Always .ok
    (fun _ s => [pack [(b1 s.persist.tamperValid, 0, 0), (s.persist.tamperFirst, 2, 1), (b1 s.persist.vbatLow, 3, 3)],
      word s.persist.tamperCount, word s.persist.vbatMv,
      pack [(s.persist.tamperEn.toNat, 3, 0), (s.persist.tamperPol.toNat, 7, 4)]]) same ∧
  Row .setTamper specSetTamper (fun c s => bb c 0 8 = false ∨ s.persist.tamperValid = false) .ok nothing
    (fun c s => { s with persist := { s.persist with
      tamperEn := (bw c 0).extractLsb' 0 4, tamperPol := (bw c 0).extractLsb' 4 4 } }) ∧
  (∀ n : Nat, RowWaits .setTamper specSetTamper
    (fun c s => bb c 0 8 = true ∧ s.persist.tamperValid = true ∧ s.persist.tamperStore = some n)
    (fun _ _ => .tamper n)
    (fun c s => { s with persist := { s.persist with
      tamperEn := (bw c 0).extractLsb' 0 4, tamperPol := (bw c 0).extractLsb' 4 4 } })) ∧
  (∀ (l : List (Fin 13312)) (s : State), exec (.storeDone l) s = .next (finishStore (l.map (fun r => r.val)) s)) ∧
  (∀ (l : List (Fin 13312)) (s : State), s.persist.storing = none → exec (.storeDone l) s = .next s) ∧
  (∀ s : State, fwRuns s = true → s.persist.checkPtime + 2 ^ 30 ≤ now s →
    exec .checkpointTimer s = .next { s with persist := { s.persist with
      checkPtime := now s, checkBoot := s.sys.bootCount
      checkTag := Config.controlRowTag [now s, s.sys.bootCount.toNat, s.persist.checkStore] } }) ∧
  (∀ s : State, now s < s.persist.checkPtime + 2 ^ 30 → exec .checkpointTimer s = .next s) ∧
  (∀ (i : Fin 4) (high : Bool) (s : State), (s.persist.tamperEn.getLsbD i.val = false
      ∨ s.persist.tamperPol.getLsbD i.val ≠ high) → exec (.tamperEdge i high) s = .next s) ∧
  (∀ (i : Fin 4) (s t : State), s.persist.tamperEn.getLsbD i.val = true →
    t = { s with persist := { s.persist with
      tamperValid := true, tamperFirst := if s.persist.tamperValid then s.persist.tamperFirst else i.val
      tamperCount := min 65535 (s.persist.tamperCount + 1) } } →
    exec (.tamperEdge i (s.persist.tamperPol.getLsbD i.val)) s
      = .next (if fwRuns t = true then reportTamper false (raise 243 0 t) else t)) ∧
  (∀ (v : BitVec 16) (s : State), held s = false → s.sys.brownOut = false →
    (2200 ≤ v.toNat → exec (.vbatCheck v) s
      = .next { s with persist := { s.persist with vbatMv := v.toNat, vbatLow := false } }) ∧
    (v.toNat < 2200 → exec (.vbatCheck v) s
      = .next (raise 244 0 { s with persist := { s.persist with vbatMv := v.toNat, vbatLow := true } }))) ∧
  (∀ (v : BitVec 16) (s : State), s.sys.brownOut = true → exec (.vbatCheck v) s = .next s)

/-! ### Health (R402–R414) -/

/-- The envelope, the thermal limits, the analogue inputs and what the sensors report (R402–R414). The step of the clock where
THROTTLE is set at LIMIT is the model's reading (log entry 154). -/
def Obligations.HealthRows : Prop :=
  Row .setEnvelope specSetEnvelope (fun c _ => bf c 0 5 0 ≤ 50 ∧ bf c 0 5 0 % 5 = 0 ∧ bf c 0 12 8 ≤ 16) .ok nothing
    (fun c s => { s with health := { s.health with envelopeMv := bf c 0 5 0, linkEnv := bf c 0 12 8 } }) ∧
  RowRefuses .setEnvelope specSetEnvelope (fun c _ => 50 < bf c 0 5 0 ∨ bf c 0 5 0 % 5 ≠ 0 ∨ 16 < bf c 0 12 8) .range ∧
  Row .setThermal specSetThermal (fun c _ => 60 ≤ bf c 0 6 0 ∧ 10 * (bf c 0 6 0 : Int) ≤ tjLimit - 10) .ok nothing
    (fun c s => { s with health := { s.health with warn := some (bf c 0 6 0), throttle := bb c 0 8 } }) ∧
  RowRefuses .setThermal specSetThermal (fun c _ => bf c 0 6 0 < 60 ∨ tjLimit - 10 < 10 * (bf c 0 6 0 : Int)) .range ∧
  Row .setAdc specSetAdc
    (fun c _ => 250 ≤ bf c 0 25 16 ∧ bf c 0 25 16 ≤ 1000 ∧ 16 ≤ bf c 2 11 0 ∧ bf c 2 11 0 ≤ 2000
      ∧ bf c 1 11 0 ≤ bf c 1 27 16) .ok nothing
    (fun c s => { s with health := { s.health with
      convUs := bf c 0 25 16, scanAt := if bf c 0 25 16 = s.health.convUs then s.health.scanAt else now s
      adcSlots := if bf c 0 25 16 = s.health.convUs then s.health.adcSlots else 0
      adc := tset s.health.adc (bf c 0 2 0) { adcGet s (bf c 0 2 0) with
        enable := bb c 0 3, owEn := bb c 0 4, lo := bf c 1 11 0, hi := bf c 1 27 16, owDelta := bf c 2 11 0
        isOpen := (adcGet s (bf c 0 2 0)).isOpen && bb c 0 4
        passes := if bb c 0 4 then (adcGet s (bf c 0 2 0)).passes else 0
        biasedNext := (adcGet s (bf c 0 2 0)).biasedNext && bb c 0 4 } } }) ∧
  RowRefuses .setAdc specSetAdc (fun c _ => 250 ≤ bf c 0 25 16 ∧ bf c 0 25 16 ≤ 1000 ∧ 16 ≤ bf c 2 11 0
    ∧ bf c 2 11 0 ≤ 2000 ∧ bf c 1 27 16 < bf c 1 11 0) .inconsistent ∧
  Row .getHealth specGetHealth (fun c _ => bf c 0 1 0 = 0) .ok
    (fun _ s => [word (twos s.health.tj 32), word (twos (s.health.hbmTemps.foldl max (s.health.hbmTemps.headD 0)) 32), word s.engines.clockMHz,
      pack [(s.health.oMv, 7, 0), (needMv s, 15, 8)], word (worstSlowdown s), word ((worstMonitors s).headD 0)]) same ∧
  Row .getHealth specGetHealth (fun c _ => bf c 0 1 0 = 1) .ok
    (fun _ s => [pack [(adcHalf s 0, 15, 0), (adcHalf s 1, 31, 16)], pack [(adcHalf s 2, 15, 0), (adcHalf s 3, 31, 16)],
      pack [(adcHalf s 4, 15, 0), (adcHalf s 5, 31, 16)], pack [(adcHalf s 6, 15, 0), (adcHalf s 7, 31, 16)]]) same ∧
  Row .getHealth specGetHealth (fun c _ => bf c 0 1 0 = 2) .ok
    (fun _ s => ((worstMonitors s).take 6).map (fun k => pack [(slowdownOf s k, 23, 0), (k, 31, 24)])) same ∧
  RowRefuses .getHealth specGetHealth (fun c _ => bf c 0 1 0 = 3) .range ∧
  (∀ (l : List (BitVec 24)) (nack : Bool) (es : List (Fin 5 × Fin 32 × Fin 4 × Bool)) (s : State), l.length = 96 →
    fwRuns s = true → s.health.lastPlan + 60000000 ≤ now s →
    exec (.plannerRun l nack es) s = .next ((onceALane es []).foldl recentre (stepMv nack { s with health := { s.health with
      slowdown := (List.range 96).map (fun i => (i, (l.getD i 0).toNat)), lastPlan := now s } }))) ∧
  (∀ (l : List (BitVec 24)) (nack : Bool) (es : List (Fin 5 × Fin 32 × Fin 4 × Bool)) (s : State), l.length = 96 →
    (fwRuns s = false ∨ now s < s.health.lastPlan + 60000000) → exec (.plannerRun l nack es) s = .next s) ∧
  (∀ (l : List Int) (t : Int) (s : State), held s = false → l.length = 16 → t = l.foldl max (l.headD 0) →
    t < tjWarn s → t < tjLimit → tjWarn s - 30 < t →
    exec (.thermalSample l none) s = .next { s with health := { s.health with
      sensors := l, tj := t, atLimit := false, hotSince := none
      coolSince := if t < tjLimit - 50 then some (s.health.coolSince.getD (now s)) else none } }) ∧
  (∀ (l : List Int) (t : Int) (s : State), held s = false → l.length = 16 → t = l.foldl max (l.headD 0) →
    t < tjWarn s → t < tjLimit → t ≤ tjWarn s - 30 →
    exec (.thermalSample l none) s = .next { s with health := { s.health with
      sensors := l, tj := t, warned := false, atLimit := false, hotSince := none
      coolSince := if t < tjLimit - 50 then some (s.health.coolSince.getD (now s)) else none } }) ∧
  (∀ (l : List Int) (t : Int) (s : State), held s = false → l.length = 16 → t = l.foldl max (l.headD 0) → tjWarn s ≤ t → t < tjLimit →
    exec (.thermalSample l none) s = .next ((fun u => if s.health.warned = true then u else raise 231 0 u)
      { s with health := { s.health with
        sensors := l, tj := t, warned := true, atLimit := false, hotSince := none
        coolSince := if t < tjLimit - 50 then some (s.health.coolSince.getD (now s)) else none } })) ∧
  (∀ (l : List Int) (t : Int) (lost : Option (Fin 512 × Bool)) (s u : State), held s = false → l.length = 16 → t = l.foldl max (l.headD 0) →
    tjWarn s ≤ t → tjLimit ≤ t → s.health.atLimit = false →
    u = raise 231 1 ((fun u => if s.health.warned = true then u else raise 231 0 u) { s with health := { s.health with
        sensors := l, tj := t, warned := true, atLimit := true, hotSince := some (now s), coolSince := none } }) →
    exec (.thermalSample l lost) s = .next (setClock
      (if s.health.throttle = true then min 1200 u.engines.clockMHz else u.engines.clockMHz) lost u)) ∧
  (∀ (l : List Int) (t : Int) (lost : Option (Fin 512 × Bool)) (s u : State), held s = false → l.length = 16 → t = l.foldl max (l.headD 0) →
    tjWarn s ≤ t → tjLimit ≤ t → s.health.atLimit = true → s.health.warned = true →
    u = { s with health := { s.health with sensors := l, tj := t, coolSince := none } } →
    (s.health.throttle = true → 1200 < s.engines.clockMHz → exec (.thermalSample l lost) s
      = .next (setClock 1200 lost { u with health := { u.health with hotSince := some (now s) } })) ∧
    (s.health.throttle = false ∨ s.engines.clockMHz ≤ 1200 → exec (.thermalSample l lost) s
      = .next (setClock s.engines.clockMHz lost u))) ∧
  (∀ (e : Fin 512) (trap : Bool) (mhz : Nat) (s : State), e.val ∉ s.engines.offline → setClock mhz (some (e, trap)) s
      = dispatch (capacityCheck (engineOff e trap { s with engines := { s.engines with clockMHz := mhz } })) ∧
    setClock s.engines.clockMHz none s = s) ∧
  (∀ (l : List Int) (lost : Option (Fin 512 × Bool)) (s : State), l.length ≠ 16 →
    exec (.thermalSample l lost) s = .fault .illFormed) ∧
  (∀ (t : Nat) (lost : Option (Fin 512 × Bool)) (s : State), held s = false → s.health.atLimit = true →
    s.health.throttle = true → s.health.hotSince = some t →
    t + 1000000 ≤ now s → 800 < s.engines.clockMHz → s.engines.clockMHz ≤ 1200 →
    exec (.throttleHoldExpiry lost) s = .next (setClock 800 lost { s with health := { s.health with hotSince := none } })) ∧
  (∀ (t : Nat) (lost : Option (Fin 512 × Bool)) (s : State), held s = false → s.health.hotSince = none → s.health.coolSince = some t → t + 10000000 ≤ now s →
    s.engines.clockMHz < 1600 →
    exec (.throttleHoldExpiry lost) s = .next (setClock (if s.engines.clockMHz < 1200 then 1200 else 1600) lost
      { s with health := { s.health with coolSince := some (now s) } })) ∧
  (∀ s : State, s.health.hotSince = none → s.health.coolSince = none → exec (.throttleHoldExpiry none) s = .next s) ∧
  (∀ (t : Int) (k : Fin 2) (s : State), held s = false → t < 850 → exec (.hbmTemperature t k) s = .next { s with health := { s.health with
    hbmTemps := s.health.hbmTemps.set k.val t, hbmWarned := markStack s.health.hbmWarned k.val false
    hbmLimited := markStack s.health.hbmLimited k.val false
    doubledRefresh := decide (markStack s.health.hbmLimited k.val false ≠ 0) } }) ∧
  (∀ (t : Int) (k : Fin 2) (s : State), held s = false → 850 ≤ t → t < 950 → exec (.hbmTemperature t k) s
    = .next ((fun u => if s.health.hbmWarned.getLsbD k.val = true then u else raise 236 0 u) { s with health := { s.health with
      hbmTemps := s.health.hbmTemps.set k.val t, hbmWarned := markStack s.health.hbmWarned k.val true
      hbmLimited := markStack s.health.hbmLimited k.val false
      doubledRefresh := decide (markStack s.health.hbmLimited k.val false ≠ 0) } })) ∧
  (∀ (t : Int) (k : Fin 2) (s : State), held s = false → 950 ≤ t → exec (.hbmTemperature t k) s
    = .next ((fun u => if s.health.hbmLimited.getLsbD k.val = true then u else raise 236 1 u)
      ((fun u => if s.health.hbmWarned.getLsbD k.val = true then u else raise 236 0 u) { s with health := { s.health with
        hbmTemps := s.health.hbmTemps.set k.val t, hbmWarned := markStack s.health.hbmWarned k.val true
        hbmLimited := markStack s.health.hbmLimited k.val true, doubledRefresh := true } }))) ∧
  (∀ (r : Fin 10) (above : Bool) (back : Nat) (s u : State), held s = false →
    u = { s with health := { s.health with rails := tset s.health.rails (2 * r.val + b1 above) (now s) } } →
    (tget s.health.rails (2 * r.val + b1 above) = none →
      exec (.railExcursion r above back) s = .next (raise 232 (b1 above) u)) ∧
    (∀ t, tget s.health.rails (2 * r.val + b1 above) = some t →
      exec (.railExcursion r above back) s = .next (if 1000000 ≤ back ∧ t + 1000000 ≤ now s then raise 232 (b1 above) u else u))) ∧
  (∀ (i : Fin 8) (a b : BitVec 12) (s : State), adcDue s i.val = true → held s = false → (adcGet s i.val).enable = false →
    exec (.adcConversionDone i a b) s = .next (slotTaken s)) ∧
  (∀ (i : Fin 8) (a b : BitVec 12) (s : State), (adcDue s i.val = false ∨ held s = true) →
    exec (.adcConversionDone i a b) s = .next s) ∧
  (∀ (i : Nat) (s : State), adcDue s i = true → 0 < s.health.convUs ∧
    s.health.scanAt + (i % 8 + 1) * s.health.convUs ≤ now s) ∧
  (∀ (i : Fin 8) (a b : BitVec 12) (s : State), SlotEnds i s →
    (a.toNat + 16 < b.toNat ∨ b.toNat + 16 < a.toNat) →
    exec (.adcConversionDone i a b) s = .next (raise 234 1 (adcPut i.val { adcGet s i.val with
      suspect := true, biasedNext := (adcGet s i.val).owEn } (slotTaken s)))) ∧
  (∀ (i : Fin 8) (a b : BitVec 12) (s : State), SlotEnds i s → (adcGet s i.val).owEn = false →
    a.toNat ≤ b.toNat + 16 → b.toNat ≤ a.toNat + 16 → (adcGet s i.val).isOpen = false →
    (adcGet s i.val).lo ≤ adcRead a.toNat b.toNat → adcRead a.toNat b.toNat ≤ (adcGet s i.val).hi →
    exec (.adcConversionDone i a b) s = .next (adcPut i.val { adcGet s i.val with
      suspect := false, biasedNext := false, value := adcRead a.toNat b.toNat, outside := false } (slotTaken s))) ∧
  (∀ (i : Fin 8) (a b : BitVec 12) (s : State), SlotEnds i s → (adcGet s i.val).owEn = true →
    (adcGet s i.val).biasedNext = true → a.toNat ≤ b.toNat + 16 → b.toNat ≤ a.toNat + 16 →
    (4064 ≤ adcRead a.toNat b.toNat ∨ (adcGet s i.val).value + (adcGet s i.val).owDelta < adcRead a.toNat b.toNat) →
    exec (.adcConversionDone i a b) s = .next (raise 235 0 (adcPut i.val { adcGet s i.val with
      suspect := false, biasedNext := false, isOpen := true, passes := 0 } (slotTaken s))))

/-! ### Reset, start-up and the flash (R415–R426) -/

/-- The flash and firmware commands, and what starts, resets and stops the device (R58, R387–R390, R415–R426, R434). -/
def Obligations.StartupRows : Prop :=
  Row .getFwStatus specGetFwStatus Always .ok
    (fun _ s => [pack [(s.sys.bootSlot, 1, 0), (b1 s.flash.trialRunning, 2, 2), ((bootNow s.flash).active, 5, 4),
        (b1 s.flash.op.isSome, 8, 8)],
      if headerGood s 0 = true then headerWord s 0 2 else 0, if headerGood s 1 = true then headerWord s 1 2 else 0,
      if headerGood s 2 = true then headerWord s 2 2 else 0,
      pack [(s.flash.checks.getD 0 15, 3, 0), (s.flash.checks.getD 1 15, 7, 4), (s.flash.checks.getD 2 15, 11, 8)],
      s.vault.minSvn]) same ∧
  Row .flashRead specFlashRead (fun c s => 4 ≤ bn c 1 ∧ bn c 1 ≤ 262144 ∧ bn c 0 + bn c 1 ≤ s.flash.sfdpBytes
      ∧ s.flash.op = none ∧ Reaches s (bn64 c 2) (flashBytes s (bn c 0) (bn c 1)).length) .ok nothing
    (fun c s => wrote (bn64 c 2) (flashBytes s (bn c 0) (bn c 1)) s) ∧
  Row .flashErase specFlashErase (fun c s => bn c 0 % 4096 = 0 ∧ 1 ≤ bn c 1 ∧ bn c 1 ≤ 8192
      ∧ areaFault s (bn c 0) (4096 * bn c 1) = none ∧ s.flash.op = none) .ok nothing
    (fun c s => { s with flash := { s.flash with
      op := some { opcode := 0x1302, addr := bn c 0, length := 4096 * bn c 1, data := [] } } }) ∧
  Row .flashWrite specFlashWrite (fun c s => 8 ≤ c.len ∧ bn c 0 % 4 = 0
      ∧ areaFault s (bn c 0) ((bytesOf c.body).drop 4).length = none ∧ s.flash.op = none
      ∧ ∀ b ∈ flashBytes s (bn c 0) ((bytesOf c.body).drop 4).length, b = 0xFF) .ok nothing
    (fun c s => { s with flash := { s.flash with
      op := some { opcode := 0x1303, addr := bn c 0, length := ((bytesOf c.body).drop 4).length
                   data := (bytesOf c.body).drop 4 } } }) ∧
  RowRefuses .flashWrite specFlashWrite (fun c s => 8 ≤ c.len ∧ bn c 0 % 4 = 0
      ∧ areaFault s (bn c 0) ((bytesOf c.body).drop 4).length = none ∧ s.flash.op = none
      ∧ ∃ b ∈ flashBytes s (bn c 0) ((bytesOf c.body).drop 4).length, b ≠ 0xFF) .notErased ∧
  RowRefuses .flashErase specFlashErase (fun c s => bn c 0 % 4096 = 0 ∧ 1 ≤ bn c 1 ∧ bn c 1 ≤ 8192
      ∧ areaFault s (bn c 0) (4096 * bn c 1) = none ∧ s.flash.op ≠ none) .busy ∧
  Row .fwActivate specFwActivate (fun c s => bf c 0 1 0 ≤ 1 ∧ bf c 0 1 0 ≠ s.sys.bootSlot ∧ s.flash.op = none
      ∧ slotCheck s (bf c 0 1 0) = 0) .ok nothing
    (fun c s => writeBoot (bootNow s.flash).active (some (bf c 0 1 0)) s) ∧
  RowRefuses .fwActivate specFwActivate (fun c s => bf c 0 1 0 ≤ 1 ∧ bf c 0 1 0 = s.sys.bootSlot) .state ∧
  RowFails .fwActivate specFwActivate (fun c s => bf c 0 1 0 ≤ 1 ∧ bf c 0 1 0 ≠ s.sys.bootSlot ∧ s.flash.op = none
      ∧ slotCheck s (bf c 0 1 0) ≠ 0) .inconsistent (fun c s => [word (slotCheck s (bf c 0 1 0))]) ∧
  Row .fwConfirm specFwConfirm (fun _ s => s.flash.trialRunning = true) .ok nothing
    (fun _ s => { writeBoot s.sys.bootSlot none s with
      vault := { s.vault with minSvn :=
        if s.vault.minSvn.toNat < (headerWord s s.sys.bootSlot 5).toNat then headerWord s s.sys.bootSlot 5 else s.vault.minSvn }
      flash := { (writeBoot s.sys.bootSlot none s).flash with trialRunning := false } }) ∧
  RowRefuses .fwConfirm specFwConfirm (fun _ s => s.flash.trialRunning = false) .state ∧
  (∀ (b : Option (BitVec 32)) (s : State), s.flash.op = none → exec (.flashDone b) s = .next s) ∧
  (∀ (o : FlashOp) (s : State), s.flash.op = some o → o.opcode = 0x1302 → exec (.flashDone none) s
    = .next (postNtf 0 0x1301 [0x1302, 0, word o.addr] (raise 251 0 { s with flash := { s.flash with
      op := none, torn := s.flash.torn.filter (fun t => !decide (t ∈ opSectors o))
      bytes := s.flash.bytes.filter (fun c => !decide (o.addr ≤ c.1 ∧ c.1 < o.addr + o.length)) } }))) ∧
  (∀ (o : FlashOp) (s : State), s.flash.op = some o → o.opcode = 0x1303 → exec (.flashDone none) s
    = .next (postNtf 0 0x1301 [0x1303, 0, word o.addr] (raise 251 0 { s with flash := { s.flash with
      op := none, bytes := memWrite 0xFF s.flash.bytes o.addr o.data } }))) ∧
  (∀ (b : BitVec 32) (o : FlashOp) (s : State), s.flash.op = some o → o.addr ≤ b.toNat → b.toNat < o.addr + o.length →
    ∃ m, exec (.flashDone (some b)) s = .next (postNtf 0 0x1301 [word o.opcode, word (statusCode .state), b]
      (raise 251 1 { s with flash := { s.flash with op := none, bytes := m }, free := s.free + 1 }))) ∧
  (∀ (st : Straps) (s : State), s.sys.porstLow = false → exec (.porstNRelease st) s = .next s) ∧
  (∀ (st : Straps) (s : State), s.sys.porstLow = true → s.sys.brownOut = false → st.testMode = false →
    exec (.porstNRelease st) s = .next (boot 0 st (cold { s with sys := { s.sys with porstLow := false } }))) ∧
  (∀ (st : Straps) (s : State), s.sys.porstLow = true → s.sys.brownOut = true →
    exec (.porstNRelease st) s = .next { s with sys := { s.sys with porstLow := false } }) ∧
  (∀ (st : Straps) (s : State), s.sys.porstLow = true → s.sys.brownOut = false → st.testMode = true →
    exec (.porstNRelease st) s = .next { s with sys := { s.sys with porstLow := false, phase := .factoryTest } }) ∧
  (∀ s : State, s.sys.porstLow = true → exec .porstNAssert s = .next s) ∧
  (∀ s : State, s.sys.porstLow = false → ∃ t, exec .porstNAssert s = .next t ∧ t.sys.porstLow = true
    ∧ t.sys.phase = .held ∧ t.sys.ptimeRuns = false ∧ t.sys.ptime = s.sys.ptime ∧ t.exec = none
    ∧ (∀ p < 16, (box t p).active = false) ∧ t.vault.slots = s.vault.slots ∧ t.hostMem = s.hostMem) ∧
  (∀ s : State, (s.sys.watchdog = false ∨ now s < s.sys.watchdogAt + 2000000) → exec .watchdogExpiry s = .next s) ∧
  (∀ s : State, s.sys.watchdog = true → s.sys.watchdogAt + 2000000 ≤ now s → exec .watchdogExpiry s
    = .next (raise 248 0 { s with sys := { s.sys with
      watchdog := false, resetDue := some (s.sys.resetDue.getD (2, now s + 10000)) } })) ∧
  (∀ (done : Bool) (l : List (Fin 13312)) (f : List Nat) (s : State), f = l.map (fun r => r.val) → s.persist.powerFail = false → (s.sys.phase = .ready ∨ s.sys.phase = .romRecovery) →
    exec (.powerFailDetect false true done l) s = .next (powerFail 0 done f s) ∧
    (s.sys.brownOut = false → exec (.powerFailDetect true true done l) s
      = .next (cold { tornStore (powerFail 0 done f s) with
          sys := { (powerFail 0 done f s).sys with brownOut := true } }) ∧
      exec (.powerFailDetect true false done l) s
      = .next (cold { tornStore (powerFail 1 done f s) with
          sys := { (powerFail 1 done f s).sys with brownOut := true } }))) ∧
  (∀ (pf done : Bool) (l : List (Fin 13312)) (s : State), s.persist.powerFail = true →
    exec (.powerFailDetect false pf done l) s = .next s) ∧
  (∀ (st : Straps) (s : State), s.sys.brownOut = false → exec (.vddCoreBrownOutEnd st) s = .next s) ∧
  (∀ (st : Straps) (s : State), s.sys.brownOut = true → s.sys.porstLow = false → st.testMode = false →
    exec (.vddCoreBrownOutEnd st) s = .next (boot 0 st (cold { s with sys := { s.sys with brownOut := false } })))
end

