-- ==== Sys2Proof/Laws/Tables.lean ====
section
/-! SUPPORT. Tables by number and byte memories: a read after a write, and the canonical form of host memory. -/

namespace Sys2Proof.Laws

open Sys2Proof Sys2Proof.Machine

/-! ### Tables -/

@[simp] theorem tget_tset_self {α : Type} (t : Tbl α) (k : Nat) (a : α) : tget (tset t k a) k = some a := by
  induction t with
  | nil => simp [tset, tget]
  | cons e t ih =>
    obtain ⟨j, b⟩ := e
    by_cases h : j = k
    · simp [tset, tget, h]
    · by_cases h2 : k < j <;> simp [tset, tget, h, h2, ih]

theorem tget_tset_ne {α : Type} (t : Tbl α) {k q : Nat} (a : α) (h : q ≠ k) : tget (tset t k a) q = tget t q := by
  induction t with
  | nil => simp [tset, tget, Ne.symm h]
  | cons e t ih =>
    obtain ⟨j, b⟩ := e
    by_cases h1 : j = k
    · subst h1; simp [tset, tget, Ne.symm h]
    · by_cases h2 : k < j
      · simp [tset, tget, h1, h2, Ne.symm h]
      · simp only [tset, h1, h2, if_false, tget, ih]

theorem tget_tset {α : Type} (t : Tbl α) (k q : Nat) (a : α) :
    tget (tset t k a) q = if q = k then some a else tget t q := by
  by_cases h : q = k
  · simp [h]
  · simp [h, tget_tset_ne t a h]

@[simp] theorem tget_tdel_self {α : Type} (t : Tbl α) (k : Nat) : tget (tdel t k) k = none := by
  induction t with
  | nil => rfl
  | cons e t ih =>
    obtain ⟨j, b⟩ := e
    by_cases h : j = k
    · simpa [tdel, h] using ih
    · simpa [tdel, h, tget] using ih

theorem tget_tmod {α : Type} (t : Tbl α) (k q : Nat) (f : α → α) :
    tget (tmod t k f) q = if q = k then (tget t q).map f else tget t q := by
  induction t with
  | nil => simp [tmod, tget]
  | cons e t ih =>
    obtain ⟨j, b⟩ := e
    by_cases h1 : j = k <;> by_cases h2 : j = q <;> simp_all [tmod, tget]

/-! ### Byte memories -/

/-- A byte below every listed address is not listed. -/
theorem memGet_below {d : Byte} {m : Mem} {lo a : Nat} (h : memWfFrom d lo m = true) (ha : a < lo) :
    memGet d m a = d := by
  induction m generalizing lo with
  | nil => rfl
  | cons e t ih =>
    obtain ⟨j, b⟩ := e
    simp only [memWfFrom, Bool.and_eq_true, decide_eq_true_eq] at h
    simp [memGet, show j ≠ a by omega, ih h.2 (by omega)]

theorem memWfFrom_mono {d : Byte} {m : Mem} {lo hi : Nat} (h : memWfFrom d hi m = true) (hl : lo ≤ hi) :
    memWfFrom d lo m = true := by
  cases m with
  | nil => rfl
  | cons e t =>
    simp only [memWfFrom, Bool.and_eq_true, decide_eq_true_eq] at h ⊢
    exact ⟨⟨by omega, h.1.2⟩, h.2⟩

theorem memSet_wfFrom {d b : Byte} {m : Mem} {lo a : Nat} (h : memWfFrom d lo m = true) (ha : lo ≤ a) :
    memWfFrom d lo (memSet d m a b) = true := by
  induction m generalizing lo with
  | nil => by_cases hb : b = d <;> simp [memSet, memWfFrom, hb, ha]
  | cons e t ih =>
    obtain ⟨j, x⟩ := e
    simp only [memWfFrom, Bool.and_eq_true, decide_eq_true_eq] at h
    unfold memSet
    split
    · split
      · simp [memWfFrom, h]
      · simp_all [memWfFrom]
    · split
      · split
        · exact memWfFrom_mono h.2 (by omega)
        · simp_all [memWfFrom]
      · simp only [memWfFrom, Bool.and_eq_true, decide_eq_true_eq]
        exact ⟨h.1, ih h.2 (by omega)⟩

/-- Writing one byte keeps the canonical form. -/
theorem memSet_wf {d b : Byte} {m : Mem} {a : Nat} (h : memWf d m = true) : memWf d (memSet d m a b) = true :=
  memSet_wfFrom h (Nat.zero_le a)

/-- Writing a block keeps the canonical form. -/
theorem memWrite_wf {d : Byte} {m : Mem} {a : Nat} {bs : List Byte} (h : memWf d m = true) :
    memWf d (memWrite d m a bs) = true := by
  induction bs generalizing m a with
  | nil => exact h
  | cons b t ih => exact ih (memSet_wf h)

theorem memGet_memSet {d b : Byte} {m : Mem} {a q lo : Nat} (h : memWfFrom d lo m = true) :
    memGet d (memSet d m a b) q = if q = a then b else memGet d m q := by
  induction m generalizing lo with
  | nil =>
    by_cases hb : b = d
    · simp [memSet, memGet, hb]
    · by_cases hq : q = a
      · simp [memSet, memGet, hb, hq]
      · simp [memSet, memGet, hb, hq, Ne.symm hq]
  | cons e t ih =>
    obtain ⟨j, x⟩ := e
    simp only [memWfFrom, Bool.and_eq_true, decide_eq_true_eq] at h
    have below : ∀ r, r ≤ j → memGet d t r = d := fun r hr => memGet_below h.2 (by omega)
    unfold memSet
    split
    · rename_i haj
      split
      · by_cases hq : q = a
        · subst hq; simp_all [memGet, show j ≠ q by omega, below q (by omega)]
        · simp [hq]
      · by_cases hq : q = a
        · simp [memGet, hq]
        · simp [memGet, hq, Ne.symm hq]
    · split
      · rename_i hja
        subst hja
        split
        · by_cases hq : q = j
          · subst hq; simp_all
          · simp [memGet, hq, Ne.symm hq]
        · by_cases hq : q = j
          · simp [memGet, hq]
          · simp [memGet, hq, Ne.symm hq]
      · by_cases hj : j = q
        · subst hj; simp_all [memGet]
        · simp [memGet, hj, ih h.2]

/-- A read after a write of a block: the block's bytes, and every other byte as it was. -/
theorem memGet_memWrite {d : Byte} {m : Mem} {a q : Nat} {bs : List Byte} (h : memWf d m = true) :
    memGet d (memWrite d m a bs) q = if a ≤ q ∧ q < a + bs.length then bs.getD (q - a) d else memGet d m q := by
  induction bs generalizing m a with
  | nil => simp [memWrite, show ¬(a ≤ q ∧ q < a) by omega]
  | cons b t ih =>
    rw [memWrite, ih (memSet_wf h), memGet_memSet h]
    by_cases h1 : q = a
    · subst h1; simp [show ¬(q + 1 ≤ q) by omega]
    · by_cases h2 : a + 1 ≤ q ∧ q < a + 1 + t.length
      · simp [h2, show a ≤ q by omega, show q < a + (t.length + 1) by omega, show q - a = (q - (a + 1)) + 1 by omega]
      · rw [if_neg h2, if_neg h1, if_neg (by simp only [List.length_cons]; omega)]

/-- What has been written is read back. -/
theorem memRead_memWrite {d : Byte} {m : Mem} {a : Nat} {bs : List Byte} (h : memWf d m = true) :
    memRead d (memWrite d m a bs) a bs.length = bs := by
  apply List.ext_getElem
  · simp [memRead]
  · intro i h1 h2
    simp [memRead, memGet_memWrite h, h2]

end Sys2Proof.Laws
end

