-- ==== Sys2Proof/Laws/Handles.lean ====
section
/-! SUPPORT. A command whose handle passes the steps of R11 goes on with what the handle names; a block of host memory
that is reached is written. -/

namespace Sys2Proof.Laws

open Sys2Proof Sys2Proof.Machine Sys2Proof.Safety

theorem withHandle_named {α : Type} {page : Nat} {s : State} {h : Handle} {type : Nat} {x : α} {k : α → CmdOut}
    (hf : handleFault page s h [type] = none) : withHandle page s h type (some x) k = k x := by
  simp [withHandle, hf]

theorem withSource_reads {c : Ctx} {s : State} {x : Source} {k : Source → CmdOut} (h : Reads c s x) :
    withSource c.page s (bn c 0) k = k x := by
  unfold withSource
  rw [h.2]
  exact withHandle_named h.1

theorem withOwnSource_owns {c : Ctx} {s : State} {x : Source} {k : Source → CmdOut} (h : Owns c s x) :
    withOwnSource c.page s (bn c 0) k = k x := by
  unfold withOwnSource
  rw [withSource_reads h.1]
  rw [if_neg]
  rintro ⟨h0, h1⟩
  rcases h.2 with h2 | h2
  · exact h0 h2
  · exact h1 h2

theorem withStream_owns {c : Ctx} {s : State} {x : Source} {k : Source → CmdOut} (h : Owns c s x)
    (hi : isIngress x = true) : withStream c s k = k x := by
  unfold withStream
  rw [withOwnSource_owns h, if_pos hi]

theorem withProc_owns {c : Ctx} {s : State} {x : Source} {y : Proc} {k : Proc → CmdOut} (h : Owns c s x)
    (hy : tget s.procs (bn c 0) = some y) : withProc c s (bn c 0) k = k y := by
  unfold withProc
  rw [withOwnSource_owns h, hy]

theorem withShift_owns {c : Ctx} {s : State} {x : Source} {y : Shift} {k : Shift → CmdOut} (h : Owns c s x)
    (hy : tget s.shifts (bn c 0) = some y) : withShift c s k = k y := by
  unfold withShift
  rw [withOwnSource_owns h, hy]

theorem withEntry_owns {c : Ctx} {s : State} {x : Source} {y : Entry} {k : Entry → CmdOut} (h : Owns c s x)
    (hy : tget s.eth.entries (bn c 0) = some y) : withEntry c s k = k y := by
  unfold withEntry
  rw [withOwnSource_owns h, hy]

theorem withDecode_named {c : Ctx} {s : State} {x : DecodeCtx} {k : DecodeCtx → CmdOut} (h : Names c s 8)
    (hx : tget s.decodes (bn c 0) = some x) : withDecode c s k = k x := by
  unfold withDecode
  rw [hx]
  exact withHandle_named h

theorem withRoute_named {c : Ctx} {s : State} {x : Route} {k : Route → CmdOut} (h : Names c s 3)
    (hx : tget s.routes (bn c 0) = some x) : withRoute c s k = k x := by
  unfold withRoute
  rw [hx]
  exact withHandle_named h

theorem withObject_named {c : Ctx} {s : State} {id : Nat} {k : Nat → Obj → CmdOut} (h : Names c s 2)
    (hx : objOfHandle s (bn c 0) = some id) : withObject c s k = k id (objGet s id) := by
  unfold withObject
  rw [hx]
  exact withHandle_named h

theorem withJob_named {c : Ctx} {s : State} {x : Job} {k : Handle → Job → CmdOut} (h : Names c s 5)
    (hx : tget s.engines.jobs (bn c 0) = some x) (hs : x.stream = none) : withJob c s k = k (bn c 0) x := by
  unfold withJob
  rw [hx]
  simp only [hs, Option.isNone_none, if_true]
  exact withHandle_named h

theorem withRecording_named {c : Ctx} {s : State} {x : Recording} {k : Recording → CmdOut} (h : Names c s 6)
    (hx : recGet s (bn c 0) = some x) : withRecording c s k = k x := by
  unfold withRecording
  rw [hx]
  exact withHandle_named h

theorem withEncode_named {c : Ctx} {s : State} {x : EncodeCtx} {k : EncodeCtx → CmdOut} (h : Names c s 9)
    (hx : tget s.pool.encodes (bn c 0) = some x) : withEncode c s k = k x := by
  unfold withEncode
  rw [hx]
  exact withHandle_named h

theorem withKey_named {c : Ctx} {s : State} {p0 : Bool} {i : Nat} {x : KeySlot} {k : Nat → KeySlot → CmdOut}
    (h : Names c s 7) (ho : p0 = true ∨ hPart (bn c 0) = c.page) (hx : keySlot s (bn c 0) = some (i, x)) :
    withKey c s p0 k = tested s (k i x) := by
  have h1 : handleFault c.page s (bn c 0) [7] = none := h
  unfold withKey
  rw [h1]
  dsimp only
  rw [if_neg, hx]
  rintro ⟨a, b⟩
  rcases ho with ho | ho
  · simp [ho] at a
  · exact b ho

theorem tested_good {s : State} {k : CmdOut} (h : s.vault.selfTest = true) : tested s k = k := by simp [tested, h]

theorem withHead_held {c : Ctx} {s : State} {h : Nat} {half : Bool} {k : CmdOut}
    (ho : c.page = 0 ∨ holder s 0 h = c.page) (hp : oddPaired s h = false ∨ half = true) : withHead c s h half k = k := by
  unfold withHead
  rw [if_neg, if_neg]
  · rcases hp with hp | hp <;> simp [hp]
  · rintro ⟨a, b⟩
    rcases ho with ho | ho
    · exact a ho
    · exact b ho

theorem withLayer_held {c : Ctx} {s : State} {k : CmdOut} (hd : destGood (bn c 0) = true) (hk : dKind (bn c 0) = 1)
    (ho : c.page = 0 ∨ holder s 0 (dHead (bn c 0)) = c.page) (hp : oddPaired s (dHead (bn c 0)) = false) :
    withLayer c s k = k := by
  unfold withLayer
  dsimp only
  rw [if_neg (by simp [hd, hk]), withHead_held ho (.inl hp)]

theorem withPort_held {c : Ctx} {s : State} {k : Nat → CmdOut} (ho : c.page = 0 ∨ holder s 1 (bf c 0 4 0) = c.page) :
    withPort c s k = k (bf c 0 4 0) := by
  unfold withPort
  dsimp only
  rw [if_neg]
  rintro ⟨a, b⟩
  rcases ho with ho | ho
  · exact a ho
  · exact b ho

theorem withOutput_owned {c : Ctx} {s : State} {o : AudioOut} {k : AudioOut → CmdOut} (hg : outputGood (bn c 0) = true)
    (ho : c.page = 0 ∨ outputOwner s (bn c 0) = c.page) (hx : outGet s (bn c 0) = some o) : withOutput c s k = k o := by
  unfold withOutput
  dsimp only
  rw [if_neg (by simp [hg]), if_neg, hx]
  rintro ⟨a, b⟩
  rcases ho with ho | ho
  · exact a ho
  · exact b ho

/-- A block of host memory that is reached is written, and the command goes on (R37). -/
theorem hostWrite_reached {s : State} {a : Nat} {bs : List Byte} {k : State → CmdOut} (h : Reaches s a bs.length) :
    hostWrite s a bs k = k (wrote a bs s) := by
  unfold hostWrite wrote
  exact if_neg (Nat.not_lt.mpr h)

/-- An item that fits is staged, and the result is the number of staged items (R46). -/
theorem restage_room {c : Ctx} {f : Staged → Bool} {i : Staged} {s : State} (h : HasRoom c.page f s) :
    restage c f i (fun n => [word n]) s
      = .done .ok [word (restaged c.page f i s).length] (withStaged c.page f i s) := by
  unfold restage withStaged restaged
  dsimp only
  split
  · simp
  · rcases h with h | h
    · contradiction
    · unfold stage
      dsimp only
      rw [if_neg (by simp only [List.length_singleton]; omega)]
      simp

/-- A create command whose needs stay within every limit is admitted (R48). -/
theorem admitted_fits {s t : State} {k : CmdOut} (h : shortfall s t = none) : admitted s t k = k := by
  simp [admitted, h]

theorem flashIdle_idle {s : State} {k : CmdOut} (h : s.flash.op = none) : flashIdle s k = k := by simp [flashIdle, h]

end Sys2Proof.Laws
end

