-- ==== Sys2Proof/Laws/PerInstr.lean ====
section
/-! SUPPORT. The well-formedness of a row that is an opcode is that of its descriptor: one lemma for each row. -/

namespace Sys2Proof.Laws.Wf

open Sys2Proof

/-- Where the row is a mailbox opcode, its opcode is one word half, and its term is a command of the table where its
descriptor has its twelve body words. -/
def Statement (i : Instr) : Prop :=
  ∀ (p : Fin 16) (op : Nat) (d : Desc), i.command = some (p, op, d) → op < 65536 ∧ (i.wf = true ↔ d.Wf)

theorem of_command {i : Instr} {q : Fin 16} {o : Nat} {e : Desc} (h : i.command = some (q, o, e)) (ho : o < 65536)
    (hw : i.wf = decide e.Wf) : Statement i := by
  intro p op d hi
  rw [h] at hi
  cases hi
  exact ⟨ho, by rw [hw]; exact decide_eq_true_iff⟩

theorem of_none {i : Instr} (h : i.command = none) : Statement i := fun _ _ _ hi => absurd (h.symm.trans hi) nofun

theorem cmdTailWrite (page : Fin 16) (value : Word) : Statement (.cmdTailWrite page value) := of_none rfl
theorem cplHeadWrite (page : Fin 16) (value : Word) : Statement (.cplHeadWrite page value) := of_none rfl
theorem ntfHeadWrite (page : Fin 16) (value : Word) : Statement (.ntfHeadWrite page value) := of_none rfl
theorem ntfOvfClear (page : Fin 16) (again : Bool) : Statement (.ntfOvfClear page again) := of_none rfl
theorem ptrErrClear (page : Fin 16) (again : Bool) : Statement (.ptrErrClear page again) := of_none rfl
theorem ntfLostRead (page : Fin 16) (again : Bool) : Statement (.ntfLostRead page again) := of_none rfl
theorem ptimeLoRead (wide : Bool) : Statement (.ptimeLoRead wide) := of_none rfl
theorem errValidClear (rival : Option Access) : Statement (.errValidClear rival) := of_none rfl
theorem errMoreClear (rival : Option Access) : Statement (.errMoreClear rival) := of_none rfl
theorem accessRefused (a : Access) : Statement (.accessRefused a) := of_none rfl
theorem causeClear (source : Fin 256) (clear : BitVec 16) (raised : BitVec 16) : Statement (.causeClear source clear raised) := of_none rfl
theorem severityWrite (source : Fin 256) (value : Word) : Statement (.severityWrite source value) := of_none rfl
theorem firstValidClear (rival : Option (Fin 256 × Fin 16)) : Statement (.firstValidClear rival) := of_none rfl
theorem overflowClear (rival : Option (Fin 256 × Fin 16)) : Statement (.overflowClear rival) := of_none rfl
theorem quietMsWrite (value : Word) : Statement (.quietMsWrite value) := of_none rfl
theorem registerWrite (fn : Fin 16) (offset : BitVec 23) (value : Word) (high : Option Word) :
    Statement (.registerWrite fn offset value high) := of_none rfl
theorem msixUnmask (fn : Fin 16) (w : MsixWrite) : Statement (.msixUnmask fn w) := of_none rfl
theorem bar2AccessRefused (a : Access) : Statement (.bar2AccessRefused a) := of_none rfl
theorem commandTake : Statement (.commandTake) := of_none rfl
theorem lateCompletion (page : Fin 16) : Statement (.lateCompletion page) := of_none rfl
theorem commitHandOff : Statement (.commitHandOff) := of_none rfl
theorem identify (p : Fin 16) (d : Desc) : Statement (.identify p d) := of_command rfl (by decide) rfl
theorem getCapabilities (p : Fin 16) (d : Desc) : Statement (.getCapabilities p d) := of_command rfl (by decide) rfl
theorem getVersions (p : Fin 16) (d : Desc) : Statement (.getVersions p d) := of_command rfl (by decide) rfl
theorem reset (p : Fin 16) (d : Desc) : Statement (.reset p d) := of_command rfl (by decide) rfl
theorem partitionResetQuiet : Statement (.partitionResetQuiet) := of_none rfl
theorem deviceResetDelay (st : Straps) : Statement (.deviceResetDelay st) := of_none rfl
theorem echo (p : Fin 16) (d : Desc) : Statement (.echo p d) := of_command rfl (by decide) rfl
theorem commit (p : Fin 16) (d : Desc) : Statement (.commit p d) := of_command rfl (by decide) rfl
theorem discardStaged (p : Fin 16) (d : Desc) : Statement (.discardStaged p d) := of_command rfl (by decide) rfl
theorem getEpoch (p : Fin 16) (d : Desc) : Statement (.getEpoch p d) := of_command rfl (by decide) rfl
theorem createPartition (p : Fin 16) (d : Desc) : Statement (.createPartition p d) := of_command rfl (by decide) rfl
theorem deletePartition (p : Fin 16) (d : Desc) : Statement (.deletePartition p d) := of_command rfl (by decide) rfl
theorem partitionFreed (part : Fin 16) : Statement (.partitionFreed part) := of_none rfl
theorem setQuota (p : Fin 16) (d : Desc) : Statement (.setQuota p d) := of_command rfl (by decide) rfl
theorem getQuota (p : Fin 16) (d : Desc) : Statement (.getQuota p d) := of_command rfl (by decide) rfl
theorem grantSource (p : Fin 16) (d : Desc) : Statement (.grantSource p d) := of_command rfl (by decide) rfl
theorem revokeGrant (p : Fin 16) (d : Desc) : Statement (.revokeGrant p d) := of_command rfl (by decide) rfl
theorem listGrants (p : Fin 16) (d : Desc) : Statement (.listGrants p d) := of_command rfl (by decide) rfl
theorem readChangeLog (p : Fin 16) (d : Desc) : Statement (.readChangeLog p d) := of_command rfl (by decide) rfl
theorem createLinkStream (p : Fin 16) (d : Desc) : Statement (.createLinkStream p d) := of_command rfl (by decide) rfl
theorem create2110Stream (p : Fin 16) (d : Desc) : Statement (.create2110Stream p d) := of_command rfl (by decide) rfl
theorem createSurfaceSource (p : Fin 16) (d : Desc) : Statement (.createSurfaceSource p d) := of_command rfl (by decide) rfl
theorem modifyStream (p : Fin 16) (d : Desc) : Statement (.modifyStream p d) := of_command rfl (by decide) rfl
theorem startStream (p : Fin 16) (d : Desc) : Statement (.startStream p d) := of_command rfl (by decide) rfl
theorem stopStream (p : Fin 16) (d : Desc) : Statement (.stopStream p d) := of_command rfl (by decide) rfl
theorem deleteStream (p : Fin 16) (d : Desc) : Statement (.deleteStream p d) := of_command rfl (by decide) rfl
theorem getStreamStatus (p : Fin 16) (d : Desc) : Statement (.getStreamStatus p d) := of_command rfl (by decide) rfl
theorem readAnc (p : Fin 16) (d : Desc) : Statement (.readAnc p d) := of_command rfl (by decide) rfl
theorem uploadSurface (p : Fin 16) (d : Desc) : Statement (.uploadSurface p d) := of_command rfl (by decide) rfl
theorem surfaceDone (source : Word) (pcieError : Bool) : Statement (.surfaceDone source pcieError) := of_none rfl
theorem createDecodeContext (p : Fin 16) (d : Desc) : Statement (.createDecodeContext p d) := of_command rfl (by decide) rfl
theorem deleteDecodeContext (p : Fin 16) (d : Desc) : Statement (.deleteDecodeContext p d) := of_command rfl (by decide) rfl
theorem getDecodeStatus (p : Fin 16) (d : Desc) : Statement (.getDecodeStatus p d) := of_command rfl (by decide) rfl
theorem resyncDecode (p : Fin 16) (d : Desc) : Statement (.resyncDecode p d) := of_command rfl (by decide) rfl
theorem frameStart (source : Word) (bottom : Bool) : Statement (.frameStart source bottom) := of_none rfl
theorem frameClose (source : Word) : Statement (.frameClose source) := of_none rfl
theorem patchCopyDone (source : Word) : Statement (.patchCopyDone source) := of_none rfl
theorem streamStallTimeout (source : Word) : Statement (.streamStallTimeout source) := of_none rfl
theorem st2110Packet (flow : Fin 1024) (p : Rtp) : Statement (.st2110Packet flow p) := of_none rfl
theorem ancPacket (source : Word) (a : Anc) : Statement (.ancPacket source a) := of_none rfl
theorem streamEntryPacket (entry : Word) (p : Rtp) : Statement (.streamEntryPacket entry p) := of_none rfl
theorem decodePictureDone (ctx : Word) (pic : Picture) : Statement (.decodePictureDone ctx pic) := of_none rfl
theorem decodeBudgetExpiry (ctx : Word) (pic : Picture) : Statement (.decodeBudgetExpiry ctx pic) := of_none rfl
theorem acquireObject (p : Fin 16) (d : Desc) (rivals : Nat) : Statement (.acquireObject p d rivals) := by
  cases rivals
  · exact of_command rfl (by decide) rfl
  · exact of_none rfl
theorem releaseObject (p : Fin 16) (d : Desc) : Statement (.releaseObject p d) := of_command rfl (by decide) rfl
theorem getObjectInfo (p : Fin 16) (d : Desc) : Statement (.getObjectInfo p d) := of_command rfl (by decide) rfl
theorem readObject (p : Fin 16) (d : Desc) : Statement (.readObject p d) := of_command rfl (by decide) rfl
theorem setPlacement (p : Fin 16) (d : Desc) : Statement (.setPlacement p d) := of_command rfl (by decide) rfl
theorem createTimeshift (p : Fin 16) (d : Desc) : Statement (.createTimeshift p d) := of_command rfl (by decide) rfl
theorem seekTimeshift (p : Fin 16) (d : Desc) : Statement (.seekTimeshift p d) := of_command rfl (by decide) rfl
theorem deleteTimeshift (p : Fin 16) (d : Desc) : Statement (.deleteTimeshift p d) := of_command rfl (by decide) rfl
theorem getRingStatus (p : Fin 16) (d : Desc) : Statement (.getRingStatus p d) := of_command rfl (by decide) rfl
theorem getToyboxStatus (p : Fin 16) (d : Desc) : Statement (.getToyboxStatus p d) := of_command rfl (by decide) rfl
theorem spillCopyDone (source : Word) (failed : Bool) : Statement (.spillCopyDone source failed) := of_none rfl
theorem spillLate (source : Word) : Statement (.spillLate source) := of_none rfl
theorem recallStart (source : Word) : Statement (.recallStart source) := of_none rfl
theorem recallDone (source : Word) (failed : Bool) : Statement (.recallDone source failed) := of_none rfl
theorem timeshiftPresentation (source : Word) : Statement (.timeshiftPresentation source) := of_none rfl
theorem createProcessedSource (p : Fin 16) (d : Desc) : Statement (.createProcessedSource p d) := of_command rfl (by decide) rfl
theorem modifyProcessedSource (p : Fin 16) (d : Desc) : Statement (.modifyProcessedSource p d) := of_command rfl (by decide) rfl
theorem deleteProcessedSource (p : Fin 16) (d : Desc) : Statement (.deleteProcessedSource p d) := of_command rfl (by decide) rfl
theorem loadKernelData (p : Fin 16) (d : Desc) : Statement (.loadKernelData p d) := of_command rfl (by decide) rfl
theorem setLadder (p : Fin 16) (d : Desc) : Statement (.setLadder p d) := of_command rfl (by decide) rfl
theorem submitJob (p : Fin 16) (d : Desc) (rivals : Nat) : Statement (.submitJob p d rivals) := by
  cases rivals
  · exact of_command rfl (by decide) rfl
  · exact of_none rfl
theorem cancelJob (p : Fin 16) (d : Desc) : Statement (.cancelJob p d) := of_command rfl (by decide) rfl
theorem getJobStatus (p : Fin 16) (d : Desc) : Statement (.getJobStatus p d) := of_command rfl (by decide) rfl
theorem getEngineStatus (p : Fin 16) (d : Desc) : Statement (.getEngineStatus p d) := of_command rfl (by decide) rfl
theorem getKernelLibrary (p : Fin 16) (d : Desc) : Statement (.getKernelLibrary p d) := of_command rfl (by decide) rfl
theorem loadKernel (p : Fin 16) (d : Desc) : Statement (.loadKernel p d) := of_command rfl (by decide) rfl
theorem jobRelease (route : Word) (same : Bool) (more : Nat) : Statement (.jobRelease route same more) := of_none rfl
theorem workItemDone (engine : Fin 512) : Statement (.workItemDone engine) := of_none rfl
theorem deadlineMiss (job : Word) : Statement (.deadlineMiss job) := of_none rfl
theorem engineFault (engine : Fin 512) (trap : Bool) : Statement (.engineFault engine trap) := of_none rfl
theorem lmEccCorrected (engine : Fin 512) : Statement (.lmEccCorrected engine) := of_none rfl
theorem capacityRiseHold : Statement (.capacityRiseHold) := of_none rfl
theorem addRoute (p : Fin 16) (d : Desc) : Statement (.addRoute p d) := of_command rfl (by decide) rfl
theorem modifyRoute (p : Fin 16) (d : Desc) : Statement (.modifyRoute p d) := of_command rfl (by decide) rfl
theorem deleteRoute (p : Fin 16) (d : Desc) : Statement (.deleteRoute p d) := of_command rfl (by decide) rfl
theorem stageSalvo (p : Fin 16) (d : Desc) : Statement (.stageSalvo p d) := of_command rfl (by decide) rfl
theorem getRouteStatus (p : Fin 16) (d : Desc) : Statement (.getRouteStatus p d) := of_command rfl (by decide) rfl
theorem getDestination (p : Fin 16) (d : Desc) : Statement (.getDestination p d) := of_command rfl (by decide) rfl
theorem setLayer (p : Fin 16) (d : Desc) : Statement (.setLayer p d) := of_command rfl (by decide) rfl
theorem setComposition (p : Fin 16) (d : Desc) : Statement (.setComposition p d) := of_command rfl (by decide) rfl
theorem setMatrix (p : Fin 16) (d : Desc) : Statement (.setMatrix p d) := of_command rfl (by decide) rfl
theorem loadCoefficients (p : Fin 16) (d : Desc) : Statement (.loadCoefficients p d) := of_command rfl (by decide) rfl
theorem readCoefficients (p : Fin 16) (d : Desc) : Statement (.readCoefficients p d) := of_command rfl (by decide) rfl
theorem getLayerStatus (p : Fin 16) (d : Desc) : Statement (.getLayerStatus p d) := of_command rfl (by decide) rfl
theorem getHeadBudget (p : Fin 16) (d : Desc) : Statement (.getHeadBudget p d) := of_command rfl (by decide) rfl
theorem setHeadMode (p : Fin 16) (d : Desc) : Statement (.setHeadMode p d) := of_command rfl (by decide) rfl
theorem bindSink (p : Fin 16) (d : Desc) : Statement (.bindSink p d) := of_command rfl (by decide) rfl
theorem setCrcRects (p : Fin 16) (d : Desc) : Statement (.setCrcRects p d) := of_command rfl (by decide) rfl
theorem getHeadStatus (p : Fin 16) (d : Desc) : Statement (.getHeadStatus p d) := of_command rfl (by decide) rfl
theorem headApplyLine (head : Fin 64) (same : Bool) (more : Nat) : Statement (.headApplyLine head same more) := of_none rfl
theorem blankStart (head : Fin 64) (rivals : Nat) : Statement (.blankStart head rivals) := of_none rfl
theorem lineMatch (head : Fin 64) (rivals : Nat) : Statement (.lineMatch head rivals) := of_none rfl
theorem headFetchStart (head : Fin 64) : Statement (.headFetchStart head) := of_none rfl
theorem headLineZero (head : Fin 64) : Statement (.headLineZero head) := of_none rfl
theorem layerUnderrun (head : Fin 64) (layer : Fin 8) (line : BitVec 16) (pixel : BitVec 16) : Statement (.layerUnderrun head layer line pixel) := of_none rfl
theorem domainFrameTick (td : Fin 16) (same : Bool) (more : Nat) : Statement (.domainFrameTick td same more) := of_none rfl
theorem createAudioInput (p : Fin 16) (d : Desc) : Statement (.createAudioInput p d) := of_command rfl (by decide) rfl
theorem deleteAudioInput (p : Fin 16) (d : Desc) : Statement (.deleteAudioInput p d) := of_command rfl (by decide) rfl
theorem createAudioOutput (p : Fin 16) (d : Desc) : Statement (.createAudioOutput p d) := of_command rfl (by decide) rfl
theorem deleteAudioOutput (p : Fin 16) (d : Desc) : Statement (.deleteAudioOutput p d) := of_command rfl (by decide) rfl
theorem setOutputChannels (p : Fin 16) (d : Desc) : Statement (.setOutputChannels p d) := of_command rfl (by decide) rfl
theorem getAudioStatus (p : Fin 16) (d : Desc) : Statement (.getAudioStatus p d) := of_command rfl (by decide) rfl
theorem setAudioClock (p : Fin 16) (d : Desc) : Statement (.setAudioClock p d) := of_command rfl (by decide) rfl
theorem audioClockMove : Statement (.audioClockMove) := of_none rfl
theorem audioPacket (source : Word) (p : AudPacket) : Statement (.audioPacket source p) := of_none rfl
theorem audioPlayoutMissing (source : Word) : Statement (.audioPlayoutMissing source) := of_none rfl
theorem audioBufferTarget (source : Word) : Statement (.audioBufferTarget source) := of_none rfl
theorem srcUnlock (source : Word) : Statement (.srcUnlock source) := of_none rfl
theorem audioRampEnd (output : Word) (channel : Fin 64) : Statement (.audioRampEnd output channel) := of_none rfl
theorem setCandidate (p : Fin 16) (d : Desc) : Statement (.setCandidate p d) := of_command rfl (by decide) rfl
theorem setSelection (p : Fin 16) (d : Desc) : Statement (.setSelection p d) := of_command rfl (by decide) rfl
theorem setTimingDomain (p : Fin 16) (d : Desc) : Statement (.setTimingDomain p d) := of_command rfl (by decide) rfl
theorem setFramePulse (p : Fin 16) (d : Desc) : Statement (.setFramePulse p d) := of_command rfl (by decide) rfl
theorem getTimingStatus (p : Fin 16) (d : Desc) : Statement (.getTimingStatus p d) := of_command rfl (by decide) rfl
theorem selectorEvaluation : Statement (.selectorEvaluation) := of_none rfl
theorem candidateFault (index : Fin 8) : Statement (.candidateFault index) := of_none rfl
theorem qualTimeExpiry (index : Fin 8) : Statement (.qualTimeExpiry index) := of_none rfl
theorem refinEdge (refin : Fin 4) (falling : Bool) (phaseNs : Int) : Statement (.refinEdge refin falling phaseNs) := of_none rfl
theorem ptpMessage (port : Fin 8) (m : PtpMsg) : Statement (.ptpMessage port m) := of_none rfl
theorem slewDone : Statement (.slewDone) := of_none rfl
theorem holdoverDataValid : Statement (.holdoverDataValid) := of_none rfl
theorem setLinkPort (p : Fin 16) (d : Desc) : Statement (.setLinkPort p d) := of_command rfl (by decide) rfl
theorem retrain (p : Fin 16) (d : Desc) : Statement (.retrain p d) := of_command rfl (by decide) rfl
theorem getLinkStatus (p : Fin 16) (d : Desc) : Statement (.getLinkStatus p d) := of_command rfl (by decide) rfl
theorem setLinkTest (p : Fin 16) (d : Desc) : Statement (.setLinkTest p d) := of_command rfl (by decide) rfl
theorem getLinkCaps (p : Fin 16) (d : Desc) : Statement (.getLinkCaps p d) := of_command rfl (by decide) rfl
theorem linkCkDetected (port : Fin 32) : Statement (.linkCkDetected port) := of_none rfl
theorem trainBlock (port : Fin 32) (b : CtlBlock) (locked : BitVec 4) : Statement (.trainBlock port b locked) := of_none rfl
theorem linkLockHeld (port : Fin 32) : Statement (.linkLockHeld port) := of_none rfl
theorem alignBlock (port : Fin 32) (b : CtlBlock) (agree : Bool) : Statement (.alignBlock port b agree) := of_none rfl
theorem alignInterval (port : Fin 32) (lane : Fin 4) : Statement (.alignInterval port lane) := of_none rfl
theorem capsBlock (port : Fin 32) (b : CtlBlock) : Statement (.capsBlock port b) := of_none rfl
theorem capsMessage (port : Fin 32) (m : BackMsg) : Statement (.capsMessage port m) := of_none rfl
theorem statusMessage (port : Fin 32) (m : BackMsg) : Statement (.statusMessage port m) := of_none rfl
theorem statusPeriod (port : Fin 32) : Statement (.statusPeriod port) := of_none rfl
theorem backLost (port : Fin 32) : Statement (.backLost port) := of_none rfl
theorem lpBlock (port : Fin 32) (b : CtlBlock) : Statement (.lpBlock port b) := of_none rfl
theorem lpAck (port : Fin 32) (m : BackMsg) : Statement (.lpAck port m) := of_none rfl
theorem lpNak (port : Fin 32) (m : BackMsg) : Statement (.lpNak port m) := of_none rfl
theorem low2IdleExpiry (port : Fin 32) : Statement (.low2IdleExpiry port) := of_none rfl
theorem fsBlock (port : Fin 32) (b : CtlBlock) : Statement (.fsBlock port b) := of_none rfl
theorem lsBlock (port : Fin 32) (b : CtlBlock) (data : List CtlBlock) (full : Bool) : Statement (.lsBlock port b data full) := of_none rfl
theorem feBlock (port : Fin 32) (b : CtlBlock) : Statement (.feBlock port b) := of_none rfl
theorem ancBlock (port : Fin 32) (b : CtlBlock) (data : List CtlBlock) : Statement (.ancBlock port b data) := of_none rfl
theorem audBlock (port : Fin 32) (b : CtlBlock) (data : List CtlBlock) : Statement (.audBlock port b data) := of_none rfl
theorem linkLos (port : Fin 32) : Statement (.linkLos port) := of_none rfl
theorem linkLol (port : Fin 32) : Statement (.linkLol port) := of_none rfl
theorem linkStateTimeout (port : Fin 32) : Statement (.linkStateTimeout port) := of_none rfl
theorem linkErrorHold (port : Fin 32) : Statement (.linkErrorHold port) := of_none rfl
theorem linkActiveHold (port : Fin 32) : Statement (.linkActiveHold port) := of_none rfl
theorem setEthPort (p : Fin 16) (d : Desc) : Statement (.setEthPort p d) := of_command rfl (by decide) rfl
theorem createStreamEntry (p : Fin 16) (d : Desc) : Statement (.createStreamEntry p d) := of_command rfl (by decide) rfl
theorem deleteStreamEntry (p : Fin 16) (d : Desc) : Statement (.deleteStreamEntry p d) := of_command rfl (by decide) rfl
theorem setRelay (p : Fin 16) (d : Desc) : Statement (.setRelay p d) := of_command rfl (by decide) rfl
theorem createFlow (p : Fin 16) (d : Desc) : Statement (.createFlow p d) := of_command rfl (by decide) rfl
theorem deleteFlow (p : Fin 16) (d : Desc) : Statement (.deleteFlow p d) := of_command rfl (by decide) rfl
theorem armYoyo (p : Fin 16) (d : Desc) : Statement (.armYoyo p d) := of_command rfl (by decide) rfl
theorem yoyoSwitch (p : Fin 16) (d : Desc) : Statement (.yoyoSwitch p d) := of_command rfl (by decide) rfl
theorem getEthStatus (p : Fin 16) (d : Desc) : Statement (.getEthStatus p d) := of_command rfl (by decide) rfl
theorem sendAnc (p : Fin 16) (d : Desc) : Statement (.sendAnc p d) := of_command rfl (by decide) rfl
theorem ethPacket (port : Fin 8) (p : EthPacket) : Statement (.ethPacket port p) := of_none rfl
theorem ethLinkDown (port : Fin 8) (sub : Fin 4) : Statement (.ethLinkDown port sub) := of_none rfl
theorem ethLinkUp (port : Fin 8) (sub : Fin 4) : Statement (.ethLinkUp port sub) := of_none rfl
theorem yoyoEvaluation (pair : Fin 4) : Statement (.yoyoEvaluation pair) := of_none rfl
theorem silenceTimeout (pair : Fin 4) : Statement (.silenceTimeout pair) := of_none rfl
theorem nexthopProbe (pair : Fin 4) : Statement (.nexthopProbe pair) := of_none rfl
theorem nexthopTimeout (pair : Fin 4) : Statement (.nexthopTimeout pair) := of_none rfl
theorem arpReply (port : Fin 8) (address : BitVec 128) (mac : BitVec 48) (sub : Fin 4) : Statement (.arpReply port address mac sub) := of_none rfl
theorem nexthopRefresh : Statement (.nexthopRefresh) := of_none rfl
theorem holdoffExpiry (pair : Fin 4) : Statement (.holdoffExpiry pair) := of_none rfl
theorem holdoffRestore (pair : Fin 4) : Statement (.holdoffRestore pair) := of_none rfl
theorem bothLostNexthopHold (pair : Fin 4) (portB : Bool) : Statement (.bothLostNexthopHold pair portB) := of_none rfl
theorem getPoolDrives (p : Fin 16) (d : Desc) : Statement (.getPoolDrives p d) := of_command rfl (by decide) rfl
theorem formatPool (p : Fin 16) (d : Desc) : Statement (.formatPool p d) := of_command rfl (by decide) rfl
theorem poolDone : Statement (.poolDone) := of_none rfl
theorem getPoolStatus (p : Fin 16) (d : Desc) : Statement (.getPoolStatus p d) := of_command rfl (by decide) rfl
theorem createRecording (p : Fin 16) (d : Desc) : Statement (.createRecording p d) := of_command rfl (by decide) rfl
theorem closeRecording (p : Fin 16) (d : Desc) : Statement (.closeRecording p d) := of_command rfl (by decide) rfl
theorem assignRecording (p : Fin 16) (d : Desc) : Statement (.assignRecording p d) := of_command rfl (by decide) rfl
theorem exportSegments (p : Fin 16) (d : Desc) : Statement (.exportSegments p d) := of_command rfl (by decide) rfl
theorem readManifest (p : Fin 16) (d : Desc) : Statement (.readManifest p d) := of_command rfl (by decide) rfl
theorem markExported (p : Fin 16) (d : Desc) : Statement (.markExported p d) := of_command rfl (by decide) rfl
theorem deleteSegments (p : Fin 16) (d : Desc) : Statement (.deleteSegments p d) := of_command rfl (by decide) rfl
theorem getRecordingStatus (p : Fin 16) (d : Desc) : Statement (.getRecordingStatus p d) := of_command rfl (by decide) rfl
theorem createEncodeContext (p : Fin 16) (d : Desc) : Statement (.createEncodeContext p d) := of_command rfl (by decide) rfl
theorem deleteEncodeContext (p : Fin 16) (d : Desc) : Statement (.deleteEncodeContext p d) := of_command rfl (by decide) rfl
theorem getEncodeStatus (p : Fin 16) (d : Desc) : Statement (.getEncodeStatus p d) := of_command rfl (by decide) rfl
theorem encodeFrameDone (ctx : Word) (bytes : BitVec 32) (clipped : Bool) : Statement (.encodeFrameDone ctx bytes clipped) := of_none rfl
theorem drivePresenceChange (root : Fin 4) (d : DriveInfo) (added : Bool) : Statement (.drivePresenceChange root d added) := of_none rfl
theorem nvmeCompletion (slot : Fin 256) (ok : Bool) : Statement (.nvmeCompletion slot ok) := of_none rfl
theorem nvmeTimeout (slot : Fin 256) : Statement (.nvmeTimeout slot) := of_none rfl
theorem stallHeaderRetry (slot : Fin 256) (ok : Bool) : Statement (.stallHeaderRetry slot ok) := of_none rfl
theorem smartPoll (root : Fin 4) (warning : Bool) : Statement (.smartPoll root warning) := of_none rfl
theorem segmentTimeLimit (stream : Word) : Statement (.segmentTimeLimit stream) := of_none rfl
theorem postrollExpiry (stream : Word) : Statement (.postrollExpiry stream) := of_none rfl
theorem manifestSigned : Statement (.manifestSigned) := of_none rfl
theorem generateKey (p : Fin 16) (d : Desc) : Statement (.generateKey p d) := of_command rfl (by decide) rfl
theorem zeroiseKey (p : Fin 16) (d : Desc) : Statement (.zeroiseKey p d) := of_command rfl (by decide) rfl
theorem getAttestation (p : Fin 16) (d : Desc) : Statement (.getAttestation p d) := of_command rfl (by decide) rfl
theorem getIdentity (p : Fin 16) (d : Desc) : Statement (.getIdentity p d) := of_command rfl (by decide) rfl
theorem signDigest (p : Fin 16) (d : Desc) : Statement (.signDigest p d) := of_command rfl (by decide) rfl
theorem cryptData (p : Fin 16) (d : Desc) : Statement (.cryptData p d) := of_command rfl (by decide) rfl
theorem getVaultStatus (p : Fin 16) (d : Desc) : Statement (.getVaultStatus p d) := of_command rfl (by decide) rfl
theorem entropyHealthChange (healthy : Bool) : Statement (.entropyHealthChange healthy) := of_none rfl
theorem setDomino (p : Fin 16) (d : Desc) : Statement (.setDomino p d) := of_command rfl (by decide) rfl
theorem getDominoStatus (p : Fin 16) (d : Desc) : Statement (.getDominoStatus p d) := of_command rfl (by decide) rfl
theorem createExport (p : Fin 16) (d : Desc) : Statement (.createExport p d) := of_command rfl (by decide) rfl
theorem deleteExport (p : Fin 16) (d : Desc) : Statement (.deleteExport p d) := of_command rfl (by decide) rfl
theorem createImport (p : Fin 16) (d : Desc) : Statement (.createImport p d) := of_command rfl (by decide) rfl
theorem dominoQuery (p : Fin 16) (d : Desc) : Statement (.dominoQuery p d) := of_command rfl (by decide) rfl
theorem groupFrameStart : Statement (.groupFrameStart) := of_none rfl
theorem beaconBlock (ring : Fin 4) (b : CtlBlock) (dNs : Int) : Statement (.beaconBlock ring b dNs) := of_none rfl
theorem markBlock (ring : Fin 4) (b : CtlBlock) (dNs : Int) : Statement (.markBlock ring b dNs) := of_none rfl
theorem stateBlock (ring : Fin 4) (b : CtlBlock) : Statement (.stateBlock ring b) := of_none rfl
theorem requestBlock (ring : Fin 4) (b : CtlBlock) : Statement (.requestBlock ring b) := of_none rfl
theorem answerBlock (ring : Fin 4) (b : CtlBlock) : Statement (.answerBlock ring b) := of_none rfl
theorem importRequestTimeout : Statement (.importRequestTimeout) := of_none rfl
theorem subscriptionRenew (source : Word) : Statement (.subscriptionRenew source) := of_none rfl
theorem renewExpired (member : Fin 4) (xport : Fin 64) (ring : Fin 4) : Statement (.renewExpired member xport ring) := of_none rfl
theorem leaderlessTimeout : Statement (.leaderlessTimeout) := of_none rfl
theorem formFail (loopNs : BitVec 32) : Statement (.formFail loopNs) := of_none rfl
theorem divergencePersist : Statement (.divergencePersist) := of_none rfl
theorem setEventDelivery (p : Fin 16) (d : Desc) : Statement (.setEventDelivery p d) := of_command rfl (by decide) rfl
theorem readEvents (p : Fin 16) (d : Desc) : Statement (.readEvents p d) := of_command rfl (by decide) rfl
theorem setSeverity (p : Fin 16) (d : Desc) : Statement (.setSeverity p d) := of_command rfl (by decide) rfl
theorem getFaultStatus (p : Fin 16) (d : Desc) : Statement (.getFaultStatus p d) := of_command rfl (by decide) rfl
theorem setQuietPeriod (p : Fin 16) (d : Desc) : Statement (.setQuietPeriod p d) := of_command rfl (by decide) rfl
theorem ackFault (p : Fin 16) (d : Desc) : Statement (.ackFault p d) := of_command rfl (by decide) rfl
theorem setEventTimer (p : Fin 16) (d : Desc) : Statement (.setEventTimer p d) := of_command rfl (by decide) rfl
theorem eventTimerExpiry (timer : Fin 4) : Statement (.eventTimerExpiry timer) := of_none rfl
theorem hbmEccUncorrected (rivals : List (Fin 256 × Fin 16)) : Statement (.hbmEccUncorrected rivals) := of_none rfl
theorem hbmEccCorrected : Statement (.hbmEccCorrected) := of_none rfl
theorem faultExit (rival : Option (Fin 256 × Fin 16)) : Statement (.faultExit rival) := of_none rfl
theorem musicBoxFoldExpiry (source : Fin 256) : Statement (.musicBoxFoldExpiry source) := of_none rfl
theorem firmwareException : Statement (.firmwareException) := of_none rfl
theorem writeParamPage (p : Fin 16) (d : Desc) : Statement (.writeParamPage p d) := of_command rfl (by decide) rfl
theorem readParamPage (p : Fin 16) (d : Desc) : Statement (.readParamPage p d) := of_command rfl (by decide) rfl
theorem store (p : Fin 16) (d : Desc) : Statement (.store p d) := of_command rfl (by decide) rfl
theorem recallParams (p : Fin 16) (d : Desc) : Statement (.recallParams p d) := of_command rfl (by decide) rfl
theorem readMusicBox (p : Fin 16) (d : Desc) : Statement (.readMusicBox p d) := of_command rfl (by decide) rfl
theorem writeNote (p : Fin 16) (d : Desc) : Statement (.writeNote p d) := of_command rfl (by decide) rfl
theorem getPersistStatus (p : Fin 16) (d : Desc) : Statement (.getPersistStatus p d) := of_command rfl (by decide) rfl
theorem getTamper (p : Fin 16) (d : Desc) : Statement (.getTamper p d) := of_command rfl (by decide) rfl
theorem setTamper (p : Fin 16) (d : Desc) : Statement (.setTamper p d) := of_command rfl (by decide) rfl
theorem storeDone (failed : List (Fin 13312)) : Statement (.storeDone failed) := of_none rfl
theorem powerFailDetect (brownOut : Bool) (pfail : Bool) (storeCompletes : Bool) (failed : List (Fin 13312)) : Statement (.powerFailDetect brownOut pfail storeCompletes failed) := of_none rfl
theorem checkpointTimer : Statement (.checkpointTimer) := of_none rfl
theorem tamperEdge (input : Fin 4) (high : Bool) : Statement (.tamperEdge input high) := of_none rfl
theorem vbatCheck (millivolts : BitVec 16) : Statement (.vbatCheck millivolts) := of_none rfl
theorem setEnvelope (p : Fin 16) (d : Desc) : Statement (.setEnvelope p d) := of_command rfl (by decide) rfl
theorem setThermal (p : Fin 16) (d : Desc) : Statement (.setThermal p d) := of_command rfl (by decide) rfl
theorem setAdc (p : Fin 16) (d : Desc) : Statement (.setAdc p d) := of_command rfl (by decide) rfl
theorem getHealth (p : Fin 16) (d : Desc) : Statement (.getHealth p d) := of_command rfl (by decide) rfl
theorem plannerRun (slowdowns : List (BitVec 24)) (nack : Bool) (edges : List (Fin 5 × Fin 32 × Fin 4 × Bool)) : Statement (.plannerRun slowdowns nack edges) := of_none rfl
theorem thermalSample (readings : List Int) (lost : Option (Fin 512 × Bool)) : Statement (.thermalSample readings lost) := of_none rfl
theorem throttleHoldExpiry (lost : Option (Fin 512 × Bool)) : Statement (.throttleHoldExpiry lost) := of_none rfl
theorem hbmTemperature (tenths : Int) (stack : Fin 2) : Statement (.hbmTemperature tenths stack) := of_none rfl
theorem railExcursion (rail : Fin 10) (above : Bool) (back : Nat) : Statement (.railExcursion rail above back) := of_none rfl
theorem adcConversionDone (input : Fin 8) (startCode : BitVec 12) (endCode : BitVec 12) : Statement (.adcConversionDone input startCode endCode) := of_none rfl
theorem getFwStatus (p : Fin 16) (d : Desc) : Statement (.getFwStatus p d) := of_command rfl (by decide) rfl
theorem flashRead (p : Fin 16) (d : Desc) : Statement (.flashRead p d) := of_command rfl (by decide) rfl
theorem flashErase (p : Fin 16) (d : Desc) : Statement (.flashErase p d) := of_command rfl (by decide) rfl
theorem flashWrite (p : Fin 16) (d : Desc) : Statement (.flashWrite p d) := of_command rfl (by decide) rfl
theorem flashDone (badAddress : Option (BitVec 32)) : Statement (.flashDone badAddress) := of_none rfl
theorem fwActivate (p : Fin 16) (d : Desc) : Statement (.fwActivate p d) := of_command rfl (by decide) rfl
theorem fwConfirm (p : Fin 16) (d : Desc) : Statement (.fwConfirm p d) := of_command rfl (by decide) rfl
theorem porstNRelease (st : Straps) : Statement (.porstNRelease st) := of_none rfl
theorem porstNAssert : Statement (.porstNAssert) := of_none rfl
theorem watchdogExpiry : Statement (.watchdogExpiry) := of_none rfl
theorem lockedSequenceTimeout (master : Fin 6) (target : BitVec 23) : Statement (.lockedSequenceTimeout master target) := of_none rfl
theorem pcieLinkDown : Statement (.pcieLinkDown) := of_none rfl
theorem pcieLinkUp : Statement (.pcieLinkUp) := of_none rfl
theorem pcieHotReset : Statement (.pcieHotReset) := of_none rfl
theorem vfFlr (fn : Fin 16) : Statement (.vfFlr fn) := of_none rfl
theorem pfFlr : Statement (.pfFlr) := of_none rfl
theorem gpioEdge (pin : Fin 16) : Statement (.gpioEdge pin) := of_none rfl
theorem srcRelock (source : Word) : Statement (.srcRelock source) := of_none rfl
theorem prbsSync (port : Fin 32) (lane : Fin 4) : Statement (.prbsSync port lane) := of_none rfl
theorem prbsSyncLost (port : Fin 32) (lane : Fin 4) (errors : BitVec 32) (blocks : BitVec 32) : Statement (.prbsSyncLost port lane errors blocks) := of_none rfl
theorem fecCodewordUncorrected (port : Fin 8) (sub : Fin 4) : Statement (.fecCodewordUncorrected port sub) := of_none rfl
theorem resolveFail (port : Fin 8) (address : BitVec 128) (sub : Fin 4) : Statement (.resolveFail port address sub) := of_none rfl
theorem readObjectDone (rows : BitVec 16) (pcieError : Bool) : Statement (.readObjectDone rows pcieError) := of_none rfl
theorem exportDone (units : BitVec 16) (pcieError : Bool) : Statement (.exportDone units pcieError) := of_none rfl
theorem digestSigned : Statement (.digestSigned) := of_none rfl
theorem hbmSleepExit : Statement (.hbmSleepExit) := of_none rfl
theorem audioOutputPacket (output : Word) : Statement (.audioOutputPacket output) := of_none rfl
theorem pcieAerError (uncorrectable : Bool) : Statement (.pcieAerError uncorrectable) := of_none rfl
theorem debugAttach : Statement (.debugAttach) := of_none rfl
theorem debugDetach : Statement (.debugDetach) := of_none rfl
theorem debugHalt : Statement (.debugHalt) := of_none rfl
theorem vddCoreBrownOutEnd (st : Straps) : Statement (.vddCoreBrownOutEnd st) := of_none rfl

end Sys2Proof.Laws.Wf
end

