-- ==== Sys2Proof/Laws/Raise.lean ====
section
/-! SUPPORT. Everything that raising an event, writing a record, posting a completion or a notification and
finishing a command can change. -/

namespace Sys2Proof.Laws

open Sys2Proof Sys2Proof.Machine

/-- Delivering a source changes the event registers and what leaves the device, and nothing else. -/
theorem settle_eq (n : Nat) (s : State) : ∃ e o, settle n s = { s with events := e, out := o } := by
  unfold settle message
  dsimp only
  repeat' split
  all_goals exact ⟨_, _, rfl⟩

theorem setCause_eq (n sub : Nat) (s : State) : ∃ e o, setCause n sub s = { s with events := e, out := o } := by
  obtain ⟨e, o, h⟩ := settle_eq n (evPut n { evGet s n with cause := (evGet s n).cause ||| BitVec.ofNat 16 (2 ^ sub) } s)
  exact ⟨e, o, h⟩

/-- Putting a page back changes that page, the event registers and what leaves the device. -/
theorem setBox_eq (p : Nat) (m : Mailbox) (s : State) :
    ∃ e o, setBox p m s = { s with boxes := tset s.boxes p m, events := e, out := o } := by
  obtain ⟨e, o, h⟩ := settle_eq (195 + p) { s with boxes := tset s.boxes p m }
  exact ⟨e, o, h⟩

@[simp] theorem box_setBox (p q : Nat) (m : Mailbox) (s : State) :
    box (setBox p m s) q = if q = p then m else box s q := by
  obtain ⟨e, o, h⟩ := setBox_eq p m s
  rw [h]
  by_cases hq : q = p <;> simp [box, tget_tset, hq]

@[simp] theorem box_modBox (p q : Nat) (f : Mailbox → Mailbox) (s : State) :
    box (modBox p f s) q = if q = p then f (box s p) else box s q := box_setBox p q _ s

/-- Copying a row to the medium changes the persistent image alone. -/
theorem copyRow_eq (n r : Nat) (s : State) : ∃ p, copyRow n r s = { s with persist := p } := by
  unfold copyRow
  dsimp only
  repeat' split
  all_goals exact ⟨_, rfl⟩

theorem copyRows_eq (n : Nat) (l : List Nat) (s : State) :
    ∃ p, l.foldl (fun s r => copyRow n r s) s = { s with persist := p } := by
  induction l generalizing s with
  | nil => exact ⟨_, rfl⟩
  | cons r l ih =>
    obtain ⟨p, h⟩ := copyRow_eq n r s
    obtain ⟨q, k⟩ := ih (copyRow n r s)
    exact ⟨q, by rw [List.foldl_cons, k, h]⟩

/-- Bringing the running store up to now changes the persistent image alone. -/
theorem storeAdvance_eq (s : State) : ∃ p, storeAdvance s = { s with persist := p } := by
  unfold storeAdvance copyTo
  split
  · exact ⟨_, rfl⟩
  · next n _ =>
    obtain ⟨p, h⟩ := copyRows_eq n ((s.persist.storeRows.take (rowsDone s)).drop s.persist.storeCopied) s
    exact ⟨_, by rw [setPersist, h]⟩

/-- A record of the Music Box changes the persistent image alone. -/
theorem boxPut_eq (k : Nat) (r : RecordOf) (b : Bool) (s : State) : ∃ p, boxPut k r b s = { s with persist := p } := by
  obtain ⟨p, h⟩ := storeAdvance_eq s
  exact ⟨_, by unfold boxPut; rw [h]⟩

theorem boxAppend_eq (r : RecordOf) (s : State) : ∃ p, (boxAppend r s).1 = { s with persist := p } := by
  obtain ⟨p, h⟩ := boxPut_eq (ringSlot s) r false s
  unfold boxAppend
  dsimp only
  rw [h]
  split
  · exact ⟨_, rfl⟩
  · exact ⟨_, rfl⟩

theorem startStore_eq (s : State) : ∃ p, startStore s = { s with persist := p } := by
  unfold startStore
  split
  · exact ⟨_, rfl⟩
  · exact ⟨_, rfl⟩

/-- What a raise may change: the event registers, the persistent image and what leaves the device. -/
def Raised (s t : State) : Prop := ∃ e o p, t = { s with events := e, out := o, persist := p }

theorem Raised.refl (s : State) : Raised s s := ⟨_, _, _, rfl⟩

theorem Raised.trans {a b c : State} (h : Raised a b) (k : Raised b c) : Raised a c := by
  obtain ⟨_, _, _, rfl⟩ := h
  obtain ⟨_, _, _, rfl⟩ := k
  exact ⟨_, _, _, rfl⟩

theorem Raised.ite {c : Prop} [Decidable c] {s a b : State} (h : Raised s a) (k : Raised s b) :
    Raised s (if c then a else b) := by
  split
  · exact h
  · exact k

theorem raised_setCause (n sub : Nat) (s : State) : Raised s (setCause n sub s) := by
  obtain ⟨e, o, h⟩ := setCause_eq n sub s
  exact ⟨e, o, _, h⟩

theorem raised_evPut (n : Nat) (x : EventSrc) (s : State) : Raised s (evPut n x s) := ⟨_, _, _, rfl⟩

theorem raised_setHub (h : Hub) (s : State) : Raised s (setHub h s) := ⟨_, _, _, rfl⟩

theorem raised_append (r : RecordOf) (s : State) : Raised s (boxAppend r s).1 := by
  obtain ⟨p, h⟩ := boxAppend_eq r s
  exact ⟨_, _, p, h⟩

theorem raised_boxPut (k : Nat) (r : RecordOf) (b : Bool) (s : State) : Raised s (boxPut k r b s) := by
  obtain ⟨p, h⟩ := boxPut_eq k r b s
  exact ⟨_, _, p, h⟩

theorem raised_startStore (s : State) : Raised s (startStore s) := by
  obtain ⟨p, h⟩ := startStore_eq s
  exact ⟨_, _, p, h⟩

theorem raised_fwRecord {more : Nat → Nat → State → State} (hm : ∀ a b s, Raised s (more a b s)) (n sub sev : Nat)
    (s : State) : Raised s (fwRecord more n sub sev s) := by
  have h : ∀ x, Raised s (evPut n x (boxAppend (eventRecord s n sub sev 0) s).1) :=
    fun x => (raised_append _ _).trans (raised_evPut _ _ _)
  exact Raised.ite (raised_evPut _ _ _) (Raised.ite ((h _).trans (hm _ _ _)) (h _))

theorem raised_critical {more : Nat → Nat → State → State} (hm : ∀ a b s, Raised s (more a b s)) (n sub : Nat)
    (s : State) : Raised s (critical more n sub s) := by
  unfold critical
  dsimp only
  have tail : ∀ t, Raised s t → Raised s (if s.events.hub.fault then t else setCause 247 0 t) := by
    intro t ht
    split
    · exact ht
    · exact ht.trans (raised_setCause _ _ _)
  apply tail
  split
  · exact (raised_setHub _ _).trans (raised_setCause _ _ _)
  · split
    · refine Raised.ite (Raised.trans ?_ (hm 230 2 _)) ?_
      all_goals exact ((raised_setHub _ _).trans (raised_boxPut _ _ _ _)).trans (raised_startStore _)
    · exact Raised.ite (((raised_setHub _ _).trans (raised_append _ _)).trans (hm _ _ _))
        ((raised_setHub _ _).trans (raised_append _ _))

theorem raised_raiseN (k n sub : Nat) (s : State) : Raised s (raiseN k n sub s) := by
  induction k generalizing n sub s with
  | zero => exact Raised.refl s
  | succ k ih =>
    have h2 : Raised s (if sevOf s n sub = 3 then critical (raiseN k) n sub (setCause n sub s) else setCause n sub s) :=
      Raised.ite ((raised_setCause _ _ _).trans (raised_critical (fun _ _ _ => ih _ _ _) _ _ _)) (raised_setCause _ _ _)
    exact Raised.ite (Raised.refl s) (Raised.ite (h2.trans (raised_evPut _ _ _))
      (Raised.ite (h2.trans (raised_fwRecord (fun _ _ _ => ih _ _ _) _ _ _ _)) h2))

/-- What a device does unless it is held in reset. -/
theorem awake_live {s : State} (h : held s = false) (f : State → State) : awake f s = f s := by simp [awake, h]

theorem awake_held {s : State} (h : held s = true) (f : State → State) : awake f s = s := by simp [awake, h]

/-- Raising a sub-cause. -/
theorem raised_raise (n sub : Nat) (s : State) : Raised s (raise n sub s) :=
  Raised.ite (Raised.refl s) (raised_raiseN 4 n sub s)

/-- Writing a record. -/
theorem raised_record (r : RecordOf) (s : State) : Raised s (record r s) := by
  exact Raised.ite ((raised_append _ _).trans (raised_raise _ _ _)) (raised_append _ _)

/-- What an operation on page p may change: that page, the event registers, the persistent image and what leaves
the device. -/
def OnPage (p : Nat) (s t : State) : Prop :=
  (∃ b e o r, t = { s with boxes := b, events := e, out := o, persist := r }) ∧ ∀ q, q ≠ p → box t q = box s q

theorem OnPage.refl (p : Nat) (s : State) : OnPage p s s := ⟨⟨_, _, _, _, rfl⟩, fun _ _ => rfl⟩

theorem OnPage.trans {p : Nat} {a b c : State} (h : OnPage p a b) (k : OnPage p b c) : OnPage p a c := by
  obtain ⟨⟨_, _, _, _, e⟩, hq⟩ := h
  obtain ⟨⟨_, _, _, _, f⟩, kq⟩ := k
  refine ⟨?_, fun q hp => (kq q hp).trans (hq q hp)⟩
  subst e f
  exact ⟨_, _, _, _, rfl⟩

theorem OnPage.ite {c : Prop} [Decidable c] {p : Nat} {s a b : State} (h : OnPage p s a) (k : OnPage p s b) :
    OnPage p s (if c then a else b) := by
  split
  · exact h
  · exact k

theorem Raised.onPage {s t : State} (p : Nat) (h : Raised s t) : OnPage p s t := by
  obtain ⟨e, o, r, rfl⟩ := h
  exact ⟨⟨_, _, _, _, rfl⟩, fun _ _ => rfl⟩

theorem onPage_setBox (p : Nat) (m : Mailbox) (s : State) : OnPage p s (setBox p m s) := by
  obtain ⟨e, o, h⟩ := setBox_eq p m s
  exact ⟨⟨_, e, o, _, h⟩, fun q hq => by simp [hq]⟩

theorem onPage_modBox (p : Nat) (f : Mailbox → Mailbox) (s : State) : OnPage p s (modBox p f s) := onPage_setBox p _ s

theorem onPage_postCpl (p : Nat) (ws : List Word) (s : State) : OnPage p s (postCpl p ws s) := onPage_modBox p _ s

/-- No notification falls due for a page whose partition is not active (R40). -/
theorem postNtf_inactive {p type : Nat} {data : List Word} {s : State} (h : (box s p).active = false) :
    postNtf p type data s = s := by
  unfold postNtf
  rw [if_pos (by simp [h])]

/-- With 511 unread, a notification is lost and counted (R33). -/
theorem postNtf_lost {p type : Nat} {data : List Word} {s : State} (h : (box s p).active = true)
    (f : ((box s p).ntfTail - (box s p).ntfHead).toNat = 511) :
    postNtf p type data s = setBox p { box s p with
      ntfSeq := (box s p).ntfSeq + 1, ntfOvf := true, ntfLost := sat 65535 (box s p).ntfLost 1 } s := by
  unfold postNtf
  dsimp only
  rw [if_neg (by simp [h]), if_pos f]
  rfl

/-- Otherwise it is posted at NTF_TAIL (R33). -/
theorem postNtf_post {p type : Nat} {data : List Word} {s : State} (h : (box s p).active = true)
    (f : ((box s p).ntfTail - (box s p).ntfHead).toNat ≠ 511) :
    postNtf p type data s = setBox p { box s p with
      ntfSeq := (box s p).ntfSeq + 1
      ntfRing := tset (box s p).ntfRing (box s p).ntfTail.toNat (ntfWords s (box s p) type data)
      ntfTail := (box s p).ntfTail + 1 } s := by
  unfold postNtf
  dsimp only
  rw [if_neg (by simp [h]), if_neg f]

theorem onPage_postNtf (p type : Nat) (data : List Word) (s : State) : OnPage p s (postNtf p type data s) := by
  unfold postNtf
  dsimp only
  split
  · exact OnPage.refl p s
  · split
    · exact onPage_setBox p _ s
    · exact onPage_setBox p _ s

end Sys2Proof.Laws
end

