-- ==== Sys2Proof/Laws/Pipeline.lean ====
section
/-! SUPPORT. What Puppeteer does with a descriptor that it takes, said once for every row of the table that is a
mailbox opcode (R31, R38–R42, R54). -/

namespace Sys2Proof.Laws

open Sys2Proof Sys2Proof.Machine Sys2Proof.Safety

/-- What a completion may change: its page, the event registers, the persistent image and what leaves the device. -/
theorem onPage_finish (p op : Nat) (tag : BitVec 16) (dg : BitVec 128) (enters logs : Bool) (h : Nat) (st : Status)
    (res : List Word) (s : State) : OnPage p s (finish p op tag dg enters logs h st res s) := by
  have h1 : OnPage p s (if enters then
      modBox p (fun m => { m with window := pushWindow m.window ⟨tag, dg, cplWords st tag (box s p).epochStaged res⟩ }) s
      else s) := OnPage.ite (onPage_modBox _ _ _) (OnPage.refl _ _)
  have h2 := h1.trans (onPage_postCpl p (cplWords st tag (box s p).epochStaged res) _)
  have h3 := OnPage.ite (c := st = .hostDma) (h2.trans ((raised_raise 112 5 _).onPage p)) h2
  exact OnPage.ite (h3.trans (OnPage.ite ((raised_record _ _).onPage p) (OnPage.refl _ _))) h3

/-- Taking a descriptor moves TAG_LAST of its page and the round-robin. -/
theorem taken_eq (page : Fin 16) (d : Desc) (s : State) :
    ∃ b e o, taken page d s = { s with lastServed := page.val, boxes := b, events := e, out := o } := by
  obtain ⟨e, o, h⟩ := setBox_eq page.val { box s page.val with tagLast := d.tag } { s with lastServed := page.val }
  exact ⟨_, e, o, h⟩

@[simp] theorem box_taken (page : Fin 16) (d : Desc) (s : State) (q : Nat) :
    box (taken page d s) q = if q = page.val then { box s page.val with tagLast := d.tag } else box s q :=
  box_modBox page.val q _ _

/-- While page p may have no command taken, none is taken. -/
theorem issue_blocked {sp : OpSpec} {page : Fin 16} {d : Desc} {s : State} (h : canTake s page.val = false) :
    issue sp page d s = s := by simp [issue, h]

/-- A descriptor whose tag is not in the window: the checks of R38, then its own section. -/
theorem issue_fresh {sp : OpSpec} {page : Fin 16} {d : Desc} {s : State} (h : Fresh page d s) :
    issue sp page d s =
      match checkDesc page.val sp.op (some sp) d (fetchBulk (some sp) d s) (bodyOf sp d s)
        { box s page.val with tagLast := d.tag } with
      | some (st, step) => finish page.val sp.op d.tag (digestOf sp.op d (fetchBulk (some sp) d s))
          (decide (step ≠ 4 ∧ step ≠ 5)) false 0 st [] (taken page d s)
      | none => runBody sp page.val d (digestOf sp.op d (fetchBulk (some sp) d s)) (ctxOf sp page d s)
          (taken page d s) := by
  obtain ⟨-, hc, hw⟩ := h
  have hb : box (modBox page.val (fun m => { m with tagLast := d.tag }) { s with lastServed := page.val }) page.val
      = { box s page.val with tagLast := d.tag } := by
    rw [box_modBox]; simp [box]
  simp only [issue, hc, if_true, runCommand, hb, hw]
  rfl

/-- The window and TAG_LAST play no part in the checks. -/
theorem checkDesc_tagLast (p op : Nat) (sp : Option OpSpec) (d : Desc) (b : Option (Option (List Byte)))
    (ws : List Word) (m : Mailbox) (t : BitVec 16) :
    checkDesc p op sp d b ws { m with tagLast := t } = checkDesc p op sp d b ws m := rfl

/-- An admitted descriptor is executed by its own section. -/
theorem issue_admitted {sp : OpSpec} {page : Fin 16} {d : Desc} {s : State} (h : Admitted sp page d s) :
    issue sp page d s = runBody sp page.val d (digestOf sp.op d (fetchBulk (some sp) d s)) (ctxOf sp page d s)
      (taken page d s) := by
  rw [issue_fresh h.1, checkDesc_tagLast, h.2.2]

/-- A device that runs from its ROM accepts an admitted command. -/
theorem admitted_rom {sp : OpSpec} {page : Fin 16} {d : Desc} {s : State} (h : Admitted sp page d s) :
    ¬((taken page d s).sys.phase = .romRecovery ∧ (!romAccepts sp.op (ctxOf sp page d s).body) = true) := by
  obtain ⟨b, e, o, ht⟩ := taken_eq page d s
  rintro ⟨h1, h2⟩
  have h3 := h.2.1 (by simpa [ht] using h1)
  simp [ctxOf, h3] at h2

/-- The section ends with a status and results: its completion is posted over what it did. -/
theorem issue_done {sp : OpSpec} {page : Fin 16} {d : Desc} {s t : State} {st : Status} {res : List Word}
    (h : Admitted sp page d s) (hr : sp.run (ctxOf sp page d s) (taken page d s) = .done st res t) :
    issue sp page d s = completion sp page d s (sp.named (bodyOf sp d s) res) st res t := by
  rw [issue_admitted h, runBody]
  simp only [admitted_rom h, if_false, hr]
  rfl

/-- The section refuses: what it was given is left as it was. -/
theorem issue_fail {sp : OpSpec} {page : Fin 16} {d : Desc} {s : State} {st : Status} {res : List Word}
    (h : Admitted sp page d s) (hr : sp.run (ctxOf sp page d s) (taken page d s) = .fail st res) :
    issue sp page d s = completion sp page d s 0 st res (taken page d s) := by
  rw [issue_admitted h, runBody]
  simp only [admitted_rom h, if_false, hr]
  rfl

/-- The section waits: nothing is posted yet. -/
theorem issue_wait {sp : OpSpec} {page : Fin 16} {d : Desc} {s t : State} {w : Waiting}
    (h : Admitted sp page d s) (hr : sp.run (ctxOf sp page d s) (taken page d s) = .wait w t) :
    issue sp page d s = { t with exec := some {
      page := page.val, opcode := sp.op, tag := d.tag, epoch := d.epoch
      digest := digestOf sp.op d (fetchBulk (some sp) d s), firstHandle := sp.named (bodyOf sp d s) []
      takenAt := now (taken page d s), bound := sp.bound, waits := w } } := by
  rw [issue_admitted h, runBody]
  simp only [admitted_rom h, if_false, hr]
  rfl

/-! ### Rows -/

/-- A row whose section ends as `pre` says it does. -/
theorem row_of_run {i : Fin 16 → Desc → Instr} {sp : OpSpec} {pre : Ctx → State → Prop} {st : Status}
    {res : Ctx → State → List Word} {post : Ctx → State → State}
    (hi : ∀ p d s, d.Wf → exec (i p d) s = .next (issue sp p d s))
    (hr : ∀ c s, pre c s → sp.run c s = .done st (res c s) (post c s)) : Row i sp pre st res post := by
  intro page d s h hp
  rw [hi page d s h.1.1, issue_done h (hr _ _ hp)]

theorem rowWaits_of_run {i : Fin 16 → Desc → Instr} {sp : OpSpec} {pre : Ctx → State → Prop}
    {wait : Ctx → State → Waiting} {post : Ctx → State → State}
    (hi : ∀ p d s, d.Wf → exec (i p d) s = .next (issue sp p d s))
    (hr : ∀ c s, pre c s → sp.run c s = .wait (wait c s) (post c s)) : RowWaits i sp pre wait post := by
  intro page d s h hp
  rw [hi page d s h.1.1, issue_wait h (hr _ _ hp)]

theorem rowRefuses_of_run {i : Fin 16 → Desc → Instr} {sp : OpSpec} {pre : Ctx → State → Prop} {st : Status}
    (hi : ∀ p d s, d.Wf → exec (i p d) s = .next (issue sp p d s))
    (hr : ∀ c s, pre c s → sp.run c s = refuse st) : RowRefuses i sp pre st := by
  intro page d s h hp
  rw [hi page d s h.1.1, issue_fail h (hr _ _ hp)]

theorem rowFails_of_run {i : Fin 16 → Desc → Instr} {sp : OpSpec} {pre : Ctx → State → Prop} {st : Status}
    {res : Ctx → State → List Word} (hi : ∀ p d s, d.Wf → exec (i p d) s = .next (issue sp p d s))
    (hr : ∀ c s, pre c s → sp.run c s = .fail st (res c s)) : RowFails i sp pre st res := by
  intro page d s h hp
  rw [hi page d s h.1.1, issue_fail h (hr _ _ hp)]

end Sys2Proof.Laws
end

