-- ==== Sys2Proof/Laws/State.lean ====
section
/-! SUPPORT. One lemma for each field of State and each named update of one field, true by rfl, so that no proof
unfolds a record update. -/

namespace Sys2Proof.Laws

open Sys2Proof Sys2Proof.Machine

variable (s : State)

/-! ### setSys -/

@[simp] theorem setSys_pending (x : Sys) : (setSys x s).pending = s.pending := rfl
@[simp] theorem setSys_sys (x : Sys) : (setSys x s).sys = x := rfl
@[simp] theorem setSys_boxes (x : Sys) : (setSys x s).boxes = s.boxes := rfl
@[simp] theorem setSys_exec (x : Sys) : (setSys x s).exec = s.exec := rfl
@[simp] theorem setSys_lastServed (x : Sys) : (setSys x s).lastServed = s.lastServed := rfl
@[simp] theorem setSys_hostMem (x : Sys) : (setSys x s).hostMem = s.hostMem := rfl
@[simp] theorem setSys_dmaFaults (x : Sys) : (setSys x s).dmaFaults = s.dmaFaults := rfl
@[simp] theorem setSys_parts (x : Sys) : (setSys x s).parts = s.parts := rfl
@[simp] theorem setSys_grants (x : Sys) : (setSys x s).grants = s.grants := rfl
@[simp] theorem setSys_nextIndex (x : Sys) : (setSys x s).nextIndex = s.nextIndex := rfl
@[simp] theorem setSys_sources (x : Sys) : (setSys x s).sources = s.sources := rfl
@[simp] theorem setSys_objects (x : Sys) : (setSys x s).objects = s.objects := rfl
@[simp] theorem setSys_slotGen (x : Sys) : (setSys x s).slotGen = s.slotGen := rfl
@[simp] theorem setSys_orphans (x : Sys) : (setSys x s).orphans = s.orphans := rfl
@[simp] theorem setSys_order (x : Sys) : (setSys x s).order = s.order := rfl
@[simp] theorem setSys_uploads (x : Sys) : (setSys x s).uploads = s.uploads := rfl
@[simp] theorem setSys_decodes (x : Sys) : (setSys x s).decodes = s.decodes := rfl
@[simp] theorem setSys_shifts (x : Sys) : (setSys x s).shifts = s.shifts := rfl
@[simp] theorem setSys_procs (x : Sys) : (setSys x s).procs = s.procs := rfl
@[simp] theorem setSys_engines (x : Sys) : (setSys x s).engines = s.engines := rfl
@[simp] theorem setSys_routes (x : Sys) : (setSys x s).routes = s.routes := rfl
@[simp] theorem setSys_dests (x : Sys) : (setSys x s).dests = s.dests := rfl
@[simp] theorem setSys_heads (x : Sys) : (setSys x s).heads = s.heads := rfl
@[simp] theorem setSys_audio (x : Sys) : (setSys x s).audio = s.audio := rfl
@[simp] theorem setSys_time (x : Sys) : (setSys x s).time = s.time := rfl
@[simp] theorem setSys_ports (x : Sys) : (setSys x s).ports = s.ports := rfl
@[simp] theorem setSys_eth (x : Sys) : (setSys x s).eth = s.eth := rfl
@[simp] theorem setSys_pool (x : Sys) : (setSys x s).pool = s.pool := rfl
@[simp] theorem setSys_vault (x : Sys) : (setSys x s).vault = s.vault := rfl
@[simp] theorem setSys_domino (x : Sys) : (setSys x s).domino = s.domino := rfl
@[simp] theorem setSys_events (x : Sys) : (setSys x s).events = s.events := rfl
@[simp] theorem setSys_persist (x : Sys) : (setSys x s).persist = s.persist := rfl
@[simp] theorem setSys_health (x : Sys) : (setSys x s).health = s.health := rfl
@[simp] theorem setSys_flash (x : Sys) : (setSys x s).flash = s.flash := rfl
@[simp] theorem setSys_lastClose (x : Sys) : (setSys x s).lastClose = s.lastClose := rfl
@[simp] theorem setSys_closes (x : Sys) : (setSys x s).closes = s.closes := rfl
@[simp] theorem setSys_free (x : Sys) : (setSys x s).free = s.free := rfl
@[simp] theorem setSys_out (x : Sys) : (setSys x s).out = s.out := rfl
@[simp] theorem setSys_bus (x : Sys) : (setSys x s).bus = s.bus := rfl

/-! ### setEngines -/

@[simp] theorem setEngines_pending (x : Engines) : (setEngines x s).pending = s.pending := rfl
@[simp] theorem setEngines_sys (x : Engines) : (setEngines x s).sys = s.sys := rfl
@[simp] theorem setEngines_boxes (x : Engines) : (setEngines x s).boxes = s.boxes := rfl
@[simp] theorem setEngines_exec (x : Engines) : (setEngines x s).exec = s.exec := rfl
@[simp] theorem setEngines_lastServed (x : Engines) : (setEngines x s).lastServed = s.lastServed := rfl
@[simp] theorem setEngines_hostMem (x : Engines) : (setEngines x s).hostMem = s.hostMem := rfl
@[simp] theorem setEngines_dmaFaults (x : Engines) : (setEngines x s).dmaFaults = s.dmaFaults := rfl
@[simp] theorem setEngines_parts (x : Engines) : (setEngines x s).parts = s.parts := rfl
@[simp] theorem setEngines_grants (x : Engines) : (setEngines x s).grants = s.grants := rfl
@[simp] theorem setEngines_nextIndex (x : Engines) : (setEngines x s).nextIndex = s.nextIndex := rfl
@[simp] theorem setEngines_sources (x : Engines) : (setEngines x s).sources = s.sources := rfl
@[simp] theorem setEngines_objects (x : Engines) : (setEngines x s).objects = s.objects := rfl
@[simp] theorem setEngines_slotGen (x : Engines) : (setEngines x s).slotGen = s.slotGen := rfl
@[simp] theorem setEngines_orphans (x : Engines) : (setEngines x s).orphans = s.orphans := rfl
@[simp] theorem setEngines_order (x : Engines) : (setEngines x s).order = s.order := rfl
@[simp] theorem setEngines_uploads (x : Engines) : (setEngines x s).uploads = s.uploads := rfl
@[simp] theorem setEngines_decodes (x : Engines) : (setEngines x s).decodes = s.decodes := rfl
@[simp] theorem setEngines_shifts (x : Engines) : (setEngines x s).shifts = s.shifts := rfl
@[simp] theorem setEngines_procs (x : Engines) : (setEngines x s).procs = s.procs := rfl
@[simp] theorem setEngines_engines (x : Engines) : (setEngines x s).engines = x := rfl
@[simp] theorem setEngines_routes (x : Engines) : (setEngines x s).routes = s.routes := rfl
@[simp] theorem setEngines_dests (x : Engines) : (setEngines x s).dests = s.dests := rfl
@[simp] theorem setEngines_heads (x : Engines) : (setEngines x s).heads = s.heads := rfl
@[simp] theorem setEngines_audio (x : Engines) : (setEngines x s).audio = s.audio := rfl
@[simp] theorem setEngines_time (x : Engines) : (setEngines x s).time = s.time := rfl
@[simp] theorem setEngines_ports (x : Engines) : (setEngines x s).ports = s.ports := rfl
@[simp] theorem setEngines_eth (x : Engines) : (setEngines x s).eth = s.eth := rfl
@[simp] theorem setEngines_pool (x : Engines) : (setEngines x s).pool = s.pool := rfl
@[simp] theorem setEngines_vault (x : Engines) : (setEngines x s).vault = s.vault := rfl
@[simp] theorem setEngines_domino (x : Engines) : (setEngines x s).domino = s.domino := rfl
@[simp] theorem setEngines_events (x : Engines) : (setEngines x s).events = s.events := rfl
@[simp] theorem setEngines_persist (x : Engines) : (setEngines x s).persist = s.persist := rfl
@[simp] theorem setEngines_health (x : Engines) : (setEngines x s).health = s.health := rfl
@[simp] theorem setEngines_flash (x : Engines) : (setEngines x s).flash = s.flash := rfl
@[simp] theorem setEngines_lastClose (x : Engines) : (setEngines x s).lastClose = s.lastClose := rfl
@[simp] theorem setEngines_closes (x : Engines) : (setEngines x s).closes = s.closes := rfl
@[simp] theorem setEngines_free (x : Engines) : (setEngines x s).free = s.free := rfl
@[simp] theorem setEngines_out (x : Engines) : (setEngines x s).out = s.out := rfl
@[simp] theorem setEngines_bus (x : Engines) : (setEngines x s).bus = s.bus := rfl

/-! ### setAudio -/

@[simp] theorem setAudio_pending (x : Audio) : (setAudio x s).pending = s.pending := rfl
@[simp] theorem setAudio_sys (x : Audio) : (setAudio x s).sys = s.sys := rfl
@[simp] theorem setAudio_boxes (x : Audio) : (setAudio x s).boxes = s.boxes := rfl
@[simp] theorem setAudio_exec (x : Audio) : (setAudio x s).exec = s.exec := rfl
@[simp] theorem setAudio_lastServed (x : Audio) : (setAudio x s).lastServed = s.lastServed := rfl
@[simp] theorem setAudio_hostMem (x : Audio) : (setAudio x s).hostMem = s.hostMem := rfl
@[simp] theorem setAudio_dmaFaults (x : Audio) : (setAudio x s).dmaFaults = s.dmaFaults := rfl
@[simp] theorem setAudio_parts (x : Audio) : (setAudio x s).parts = s.parts := rfl
@[simp] theorem setAudio_grants (x : Audio) : (setAudio x s).grants = s.grants := rfl
@[simp] theorem setAudio_nextIndex (x : Audio) : (setAudio x s).nextIndex = s.nextIndex := rfl
@[simp] theorem setAudio_sources (x : Audio) : (setAudio x s).sources = s.sources := rfl
@[simp] theorem setAudio_objects (x : Audio) : (setAudio x s).objects = s.objects := rfl
@[simp] theorem setAudio_slotGen (x : Audio) : (setAudio x s).slotGen = s.slotGen := rfl
@[simp] theorem setAudio_orphans (x : Audio) : (setAudio x s).orphans = s.orphans := rfl
@[simp] theorem setAudio_order (x : Audio) : (setAudio x s).order = s.order := rfl
@[simp] theorem setAudio_uploads (x : Audio) : (setAudio x s).uploads = s.uploads := rfl
@[simp] theorem setAudio_decodes (x : Audio) : (setAudio x s).decodes = s.decodes := rfl
@[simp] theorem setAudio_shifts (x : Audio) : (setAudio x s).shifts = s.shifts := rfl
@[simp] theorem setAudio_procs (x : Audio) : (setAudio x s).procs = s.procs := rfl
@[simp] theorem setAudio_engines (x : Audio) : (setAudio x s).engines = s.engines := rfl
@[simp] theorem setAudio_routes (x : Audio) : (setAudio x s).routes = s.routes := rfl
@[simp] theorem setAudio_dests (x : Audio) : (setAudio x s).dests = s.dests := rfl
@[simp] theorem setAudio_heads (x : Audio) : (setAudio x s).heads = s.heads := rfl
@[simp] theorem setAudio_audio (x : Audio) : (setAudio x s).audio = x := rfl
@[simp] theorem setAudio_time (x : Audio) : (setAudio x s).time = s.time := rfl
@[simp] theorem setAudio_ports (x : Audio) : (setAudio x s).ports = s.ports := rfl
@[simp] theorem setAudio_eth (x : Audio) : (setAudio x s).eth = s.eth := rfl
@[simp] theorem setAudio_pool (x : Audio) : (setAudio x s).pool = s.pool := rfl
@[simp] theorem setAudio_vault (x : Audio) : (setAudio x s).vault = s.vault := rfl
@[simp] theorem setAudio_domino (x : Audio) : (setAudio x s).domino = s.domino := rfl
@[simp] theorem setAudio_events (x : Audio) : (setAudio x s).events = s.events := rfl
@[simp] theorem setAudio_persist (x : Audio) : (setAudio x s).persist = s.persist := rfl
@[simp] theorem setAudio_health (x : Audio) : (setAudio x s).health = s.health := rfl
@[simp] theorem setAudio_flash (x : Audio) : (setAudio x s).flash = s.flash := rfl
@[simp] theorem setAudio_lastClose (x : Audio) : (setAudio x s).lastClose = s.lastClose := rfl
@[simp] theorem setAudio_closes (x : Audio) : (setAudio x s).closes = s.closes := rfl
@[simp] theorem setAudio_free (x : Audio) : (setAudio x s).free = s.free := rfl
@[simp] theorem setAudio_out (x : Audio) : (setAudio x s).out = s.out := rfl
@[simp] theorem setAudio_bus (x : Audio) : (setAudio x s).bus = s.bus := rfl

/-! ### setTime -/

@[simp] theorem setTime_pending (x : Timebase) : (setTime x s).pending = s.pending := rfl
@[simp] theorem setTime_sys (x : Timebase) : (setTime x s).sys = s.sys := rfl
@[simp] theorem setTime_boxes (x : Timebase) : (setTime x s).boxes = s.boxes := rfl
@[simp] theorem setTime_exec (x : Timebase) : (setTime x s).exec = s.exec := rfl
@[simp] theorem setTime_lastServed (x : Timebase) : (setTime x s).lastServed = s.lastServed := rfl
@[simp] theorem setTime_hostMem (x : Timebase) : (setTime x s).hostMem = s.hostMem := rfl
@[simp] theorem setTime_dmaFaults (x : Timebase) : (setTime x s).dmaFaults = s.dmaFaults := rfl
@[simp] theorem setTime_parts (x : Timebase) : (setTime x s).parts = s.parts := rfl
@[simp] theorem setTime_grants (x : Timebase) : (setTime x s).grants = s.grants := rfl
@[simp] theorem setTime_nextIndex (x : Timebase) : (setTime x s).nextIndex = s.nextIndex := rfl
@[simp] theorem setTime_sources (x : Timebase) : (setTime x s).sources = s.sources := rfl
@[simp] theorem setTime_objects (x : Timebase) : (setTime x s).objects = s.objects := rfl
@[simp] theorem setTime_slotGen (x : Timebase) : (setTime x s).slotGen = s.slotGen := rfl
@[simp] theorem setTime_orphans (x : Timebase) : (setTime x s).orphans = s.orphans := rfl
@[simp] theorem setTime_order (x : Timebase) : (setTime x s).order = s.order := rfl
@[simp] theorem setTime_uploads (x : Timebase) : (setTime x s).uploads = s.uploads := rfl
@[simp] theorem setTime_decodes (x : Timebase) : (setTime x s).decodes = s.decodes := rfl
@[simp] theorem setTime_shifts (x : Timebase) : (setTime x s).shifts = s.shifts := rfl
@[simp] theorem setTime_procs (x : Timebase) : (setTime x s).procs = s.procs := rfl
@[simp] theorem setTime_engines (x : Timebase) : (setTime x s).engines = s.engines := rfl
@[simp] theorem setTime_routes (x : Timebase) : (setTime x s).routes = s.routes := rfl
@[simp] theorem setTime_dests (x : Timebase) : (setTime x s).dests = s.dests := rfl
@[simp] theorem setTime_heads (x : Timebase) : (setTime x s).heads = s.heads := rfl
@[simp] theorem setTime_audio (x : Timebase) : (setTime x s).audio = s.audio := rfl
@[simp] theorem setTime_time (x : Timebase) : (setTime x s).time = x := rfl
@[simp] theorem setTime_ports (x : Timebase) : (setTime x s).ports = s.ports := rfl
@[simp] theorem setTime_eth (x : Timebase) : (setTime x s).eth = s.eth := rfl
@[simp] theorem setTime_pool (x : Timebase) : (setTime x s).pool = s.pool := rfl
@[simp] theorem setTime_vault (x : Timebase) : (setTime x s).vault = s.vault := rfl
@[simp] theorem setTime_domino (x : Timebase) : (setTime x s).domino = s.domino := rfl
@[simp] theorem setTime_events (x : Timebase) : (setTime x s).events = s.events := rfl
@[simp] theorem setTime_persist (x : Timebase) : (setTime x s).persist = s.persist := rfl
@[simp] theorem setTime_health (x : Timebase) : (setTime x s).health = s.health := rfl
@[simp] theorem setTime_flash (x : Timebase) : (setTime x s).flash = s.flash := rfl
@[simp] theorem setTime_lastClose (x : Timebase) : (setTime x s).lastClose = s.lastClose := rfl
@[simp] theorem setTime_closes (x : Timebase) : (setTime x s).closes = s.closes := rfl
@[simp] theorem setTime_free (x : Timebase) : (setTime x s).free = s.free := rfl
@[simp] theorem setTime_out (x : Timebase) : (setTime x s).out = s.out := rfl
@[simp] theorem setTime_bus (x : Timebase) : (setTime x s).bus = s.bus := rfl

/-! ### setEth -/

@[simp] theorem setEth_pending (x : Ethernet) : (setEth x s).pending = s.pending := rfl
@[simp] theorem setEth_sys (x : Ethernet) : (setEth x s).sys = s.sys := rfl
@[simp] theorem setEth_boxes (x : Ethernet) : (setEth x s).boxes = s.boxes := rfl
@[simp] theorem setEth_exec (x : Ethernet) : (setEth x s).exec = s.exec := rfl
@[simp] theorem setEth_lastServed (x : Ethernet) : (setEth x s).lastServed = s.lastServed := rfl
@[simp] theorem setEth_hostMem (x : Ethernet) : (setEth x s).hostMem = s.hostMem := rfl
@[simp] theorem setEth_dmaFaults (x : Ethernet) : (setEth x s).dmaFaults = s.dmaFaults := rfl
@[simp] theorem setEth_parts (x : Ethernet) : (setEth x s).parts = s.parts := rfl
@[simp] theorem setEth_grants (x : Ethernet) : (setEth x s).grants = s.grants := rfl
@[simp] theorem setEth_nextIndex (x : Ethernet) : (setEth x s).nextIndex = s.nextIndex := rfl
@[simp] theorem setEth_sources (x : Ethernet) : (setEth x s).sources = s.sources := rfl
@[simp] theorem setEth_objects (x : Ethernet) : (setEth x s).objects = s.objects := rfl
@[simp] theorem setEth_slotGen (x : Ethernet) : (setEth x s).slotGen = s.slotGen := rfl
@[simp] theorem setEth_orphans (x : Ethernet) : (setEth x s).orphans = s.orphans := rfl
@[simp] theorem setEth_order (x : Ethernet) : (setEth x s).order = s.order := rfl
@[simp] theorem setEth_uploads (x : Ethernet) : (setEth x s).uploads = s.uploads := rfl
@[simp] theorem setEth_decodes (x : Ethernet) : (setEth x s).decodes = s.decodes := rfl
@[simp] theorem setEth_shifts (x : Ethernet) : (setEth x s).shifts = s.shifts := rfl
@[simp] theorem setEth_procs (x : Ethernet) : (setEth x s).procs = s.procs := rfl
@[simp] theorem setEth_engines (x : Ethernet) : (setEth x s).engines = s.engines := rfl
@[simp] theorem setEth_routes (x : Ethernet) : (setEth x s).routes = s.routes := rfl
@[simp] theorem setEth_dests (x : Ethernet) : (setEth x s).dests = s.dests := rfl
@[simp] theorem setEth_heads (x : Ethernet) : (setEth x s).heads = s.heads := rfl
@[simp] theorem setEth_audio (x : Ethernet) : (setEth x s).audio = s.audio := rfl
@[simp] theorem setEth_time (x : Ethernet) : (setEth x s).time = s.time := rfl
@[simp] theorem setEth_ports (x : Ethernet) : (setEth x s).ports = s.ports := rfl
@[simp] theorem setEth_eth (x : Ethernet) : (setEth x s).eth = x := rfl
@[simp] theorem setEth_pool (x : Ethernet) : (setEth x s).pool = s.pool := rfl
@[simp] theorem setEth_vault (x : Ethernet) : (setEth x s).vault = s.vault := rfl
@[simp] theorem setEth_domino (x : Ethernet) : (setEth x s).domino = s.domino := rfl
@[simp] theorem setEth_events (x : Ethernet) : (setEth x s).events = s.events := rfl
@[simp] theorem setEth_persist (x : Ethernet) : (setEth x s).persist = s.persist := rfl
@[simp] theorem setEth_health (x : Ethernet) : (setEth x s).health = s.health := rfl
@[simp] theorem setEth_flash (x : Ethernet) : (setEth x s).flash = s.flash := rfl
@[simp] theorem setEth_lastClose (x : Ethernet) : (setEth x s).lastClose = s.lastClose := rfl
@[simp] theorem setEth_closes (x : Ethernet) : (setEth x s).closes = s.closes := rfl
@[simp] theorem setEth_free (x : Ethernet) : (setEth x s).free = s.free := rfl
@[simp] theorem setEth_out (x : Ethernet) : (setEth x s).out = s.out := rfl
@[simp] theorem setEth_bus (x : Ethernet) : (setEth x s).bus = s.bus := rfl

/-! ### setPool -/

@[simp] theorem setPool_pending (x : Pool) : (setPool x s).pending = s.pending := rfl
@[simp] theorem setPool_sys (x : Pool) : (setPool x s).sys = s.sys := rfl
@[simp] theorem setPool_boxes (x : Pool) : (setPool x s).boxes = s.boxes := rfl
@[simp] theorem setPool_exec (x : Pool) : (setPool x s).exec = s.exec := rfl
@[simp] theorem setPool_lastServed (x : Pool) : (setPool x s).lastServed = s.lastServed := rfl
@[simp] theorem setPool_hostMem (x : Pool) : (setPool x s).hostMem = s.hostMem := rfl
@[simp] theorem setPool_dmaFaults (x : Pool) : (setPool x s).dmaFaults = s.dmaFaults := rfl
@[simp] theorem setPool_parts (x : Pool) : (setPool x s).parts = s.parts := rfl
@[simp] theorem setPool_grants (x : Pool) : (setPool x s).grants = s.grants := rfl
@[simp] theorem setPool_nextIndex (x : Pool) : (setPool x s).nextIndex = s.nextIndex := rfl
@[simp] theorem setPool_sources (x : Pool) : (setPool x s).sources = s.sources := rfl
@[simp] theorem setPool_objects (x : Pool) : (setPool x s).objects = s.objects := rfl
@[simp] theorem setPool_slotGen (x : Pool) : (setPool x s).slotGen = s.slotGen := rfl
@[simp] theorem setPool_orphans (x : Pool) : (setPool x s).orphans = s.orphans := rfl
@[simp] theorem setPool_order (x : Pool) : (setPool x s).order = s.order := rfl
@[simp] theorem setPool_uploads (x : Pool) : (setPool x s).uploads = s.uploads := rfl
@[simp] theorem setPool_decodes (x : Pool) : (setPool x s).decodes = s.decodes := rfl
@[simp] theorem setPool_shifts (x : Pool) : (setPool x s).shifts = s.shifts := rfl
@[simp] theorem setPool_procs (x : Pool) : (setPool x s).procs = s.procs := rfl
@[simp] theorem setPool_engines (x : Pool) : (setPool x s).engines = s.engines := rfl
@[simp] theorem setPool_routes (x : Pool) : (setPool x s).routes = s.routes := rfl
@[simp] theorem setPool_dests (x : Pool) : (setPool x s).dests = s.dests := rfl
@[simp] theorem setPool_heads (x : Pool) : (setPool x s).heads = s.heads := rfl
@[simp] theorem setPool_audio (x : Pool) : (setPool x s).audio = s.audio := rfl
@[simp] theorem setPool_time (x : Pool) : (setPool x s).time = s.time := rfl
@[simp] theorem setPool_ports (x : Pool) : (setPool x s).ports = s.ports := rfl
@[simp] theorem setPool_eth (x : Pool) : (setPool x s).eth = s.eth := rfl
@[simp] theorem setPool_pool (x : Pool) : (setPool x s).pool = x := rfl
@[simp] theorem setPool_vault (x : Pool) : (setPool x s).vault = s.vault := rfl
@[simp] theorem setPool_domino (x : Pool) : (setPool x s).domino = s.domino := rfl
@[simp] theorem setPool_events (x : Pool) : (setPool x s).events = s.events := rfl
@[simp] theorem setPool_persist (x : Pool) : (setPool x s).persist = s.persist := rfl
@[simp] theorem setPool_health (x : Pool) : (setPool x s).health = s.health := rfl
@[simp] theorem setPool_flash (x : Pool) : (setPool x s).flash = s.flash := rfl
@[simp] theorem setPool_lastClose (x : Pool) : (setPool x s).lastClose = s.lastClose := rfl
@[simp] theorem setPool_closes (x : Pool) : (setPool x s).closes = s.closes := rfl
@[simp] theorem setPool_free (x : Pool) : (setPool x s).free = s.free := rfl
@[simp] theorem setPool_out (x : Pool) : (setPool x s).out = s.out := rfl
@[simp] theorem setPool_bus (x : Pool) : (setPool x s).bus = s.bus := rfl

/-! ### setVault -/

@[simp] theorem setVault_pending (x : Vault) : (setVault x s).pending = s.pending := rfl
@[simp] theorem setVault_sys (x : Vault) : (setVault x s).sys = s.sys := rfl
@[simp] theorem setVault_boxes (x : Vault) : (setVault x s).boxes = s.boxes := rfl
@[simp] theorem setVault_exec (x : Vault) : (setVault x s).exec = s.exec := rfl
@[simp] theorem setVault_lastServed (x : Vault) : (setVault x s).lastServed = s.lastServed := rfl
@[simp] theorem setVault_hostMem (x : Vault) : (setVault x s).hostMem = s.hostMem := rfl
@[simp] theorem setVault_dmaFaults (x : Vault) : (setVault x s).dmaFaults = s.dmaFaults := rfl
@[simp] theorem setVault_parts (x : Vault) : (setVault x s).parts = s.parts := rfl
@[simp] theorem setVault_grants (x : Vault) : (setVault x s).grants = s.grants := rfl
@[simp] theorem setVault_nextIndex (x : Vault) : (setVault x s).nextIndex = s.nextIndex := rfl
@[simp] theorem setVault_sources (x : Vault) : (setVault x s).sources = s.sources := rfl
@[simp] theorem setVault_objects (x : Vault) : (setVault x s).objects = s.objects := rfl
@[simp] theorem setVault_slotGen (x : Vault) : (setVault x s).slotGen = s.slotGen := rfl
@[simp] theorem setVault_orphans (x : Vault) : (setVault x s).orphans = s.orphans := rfl
@[simp] theorem setVault_order (x : Vault) : (setVault x s).order = s.order := rfl
@[simp] theorem setVault_uploads (x : Vault) : (setVault x s).uploads = s.uploads := rfl
@[simp] theorem setVault_decodes (x : Vault) : (setVault x s).decodes = s.decodes := rfl
@[simp] theorem setVault_shifts (x : Vault) : (setVault x s).shifts = s.shifts := rfl
@[simp] theorem setVault_procs (x : Vault) : (setVault x s).procs = s.procs := rfl
@[simp] theorem setVault_engines (x : Vault) : (setVault x s).engines = s.engines := rfl
@[simp] theorem setVault_routes (x : Vault) : (setVault x s).routes = s.routes := rfl
@[simp] theorem setVault_dests (x : Vault) : (setVault x s).dests = s.dests := rfl
@[simp] theorem setVault_heads (x : Vault) : (setVault x s).heads = s.heads := rfl
@[simp] theorem setVault_audio (x : Vault) : (setVault x s).audio = s.audio := rfl
@[simp] theorem setVault_time (x : Vault) : (setVault x s).time = s.time := rfl
@[simp] theorem setVault_ports (x : Vault) : (setVault x s).ports = s.ports := rfl
@[simp] theorem setVault_eth (x : Vault) : (setVault x s).eth = s.eth := rfl
@[simp] theorem setVault_pool (x : Vault) : (setVault x s).pool = s.pool := rfl
@[simp] theorem setVault_vault (x : Vault) : (setVault x s).vault = x := rfl
@[simp] theorem setVault_domino (x : Vault) : (setVault x s).domino = s.domino := rfl
@[simp] theorem setVault_events (x : Vault) : (setVault x s).events = s.events := rfl
@[simp] theorem setVault_persist (x : Vault) : (setVault x s).persist = s.persist := rfl
@[simp] theorem setVault_health (x : Vault) : (setVault x s).health = s.health := rfl
@[simp] theorem setVault_flash (x : Vault) : (setVault x s).flash = s.flash := rfl
@[simp] theorem setVault_lastClose (x : Vault) : (setVault x s).lastClose = s.lastClose := rfl
@[simp] theorem setVault_closes (x : Vault) : (setVault x s).closes = s.closes := rfl
@[simp] theorem setVault_free (x : Vault) : (setVault x s).free = s.free := rfl
@[simp] theorem setVault_out (x : Vault) : (setVault x s).out = s.out := rfl
@[simp] theorem setVault_bus (x : Vault) : (setVault x s).bus = s.bus := rfl

/-! ### setDomino -/

@[simp] theorem setDomino_pending (x : Domino) : (setDomino x s).pending = s.pending := rfl
@[simp] theorem setDomino_sys (x : Domino) : (setDomino x s).sys = s.sys := rfl
@[simp] theorem setDomino_boxes (x : Domino) : (setDomino x s).boxes = s.boxes := rfl
@[simp] theorem setDomino_exec (x : Domino) : (setDomino x s).exec = s.exec := rfl
@[simp] theorem setDomino_lastServed (x : Domino) : (setDomino x s).lastServed = s.lastServed := rfl
@[simp] theorem setDomino_hostMem (x : Domino) : (setDomino x s).hostMem = s.hostMem := rfl
@[simp] theorem setDomino_dmaFaults (x : Domino) : (setDomino x s).dmaFaults = s.dmaFaults := rfl
@[simp] theorem setDomino_parts (x : Domino) : (setDomino x s).parts = s.parts := rfl
@[simp] theorem setDomino_grants (x : Domino) : (setDomino x s).grants = s.grants := rfl
@[simp] theorem setDomino_nextIndex (x : Domino) : (setDomino x s).nextIndex = s.nextIndex := rfl
@[simp] theorem setDomino_sources (x : Domino) : (setDomino x s).sources = s.sources := rfl
@[simp] theorem setDomino_objects (x : Domino) : (setDomino x s).objects = s.objects := rfl
@[simp] theorem setDomino_slotGen (x : Domino) : (setDomino x s).slotGen = s.slotGen := rfl
@[simp] theorem setDomino_orphans (x : Domino) : (setDomino x s).orphans = s.orphans := rfl
@[simp] theorem setDomino_order (x : Domino) : (setDomino x s).order = s.order := rfl
@[simp] theorem setDomino_uploads (x : Domino) : (setDomino x s).uploads = s.uploads := rfl
@[simp] theorem setDomino_decodes (x : Domino) : (setDomino x s).decodes = s.decodes := rfl
@[simp] theorem setDomino_shifts (x : Domino) : (setDomino x s).shifts = s.shifts := rfl
@[simp] theorem setDomino_procs (x : Domino) : (setDomino x s).procs = s.procs := rfl
@[simp] theorem setDomino_engines (x : Domino) : (setDomino x s).engines = s.engines := rfl
@[simp] theorem setDomino_routes (x : Domino) : (setDomino x s).routes = s.routes := rfl
@[simp] theorem setDomino_dests (x : Domino) : (setDomino x s).dests = s.dests := rfl
@[simp] theorem setDomino_heads (x : Domino) : (setDomino x s).heads = s.heads := rfl
@[simp] theorem setDomino_audio (x : Domino) : (setDomino x s).audio = s.audio := rfl
@[simp] theorem setDomino_time (x : Domino) : (setDomino x s).time = s.time := rfl
@[simp] theorem setDomino_ports (x : Domino) : (setDomino x s).ports = s.ports := rfl
@[simp] theorem setDomino_eth (x : Domino) : (setDomino x s).eth = s.eth := rfl
@[simp] theorem setDomino_pool (x : Domino) : (setDomino x s).pool = s.pool := rfl
@[simp] theorem setDomino_vault (x : Domino) : (setDomino x s).vault = s.vault := rfl
@[simp] theorem setDomino_domino (x : Domino) : (setDomino x s).domino = x := rfl
@[simp] theorem setDomino_events (x : Domino) : (setDomino x s).events = s.events := rfl
@[simp] theorem setDomino_persist (x : Domino) : (setDomino x s).persist = s.persist := rfl
@[simp] theorem setDomino_health (x : Domino) : (setDomino x s).health = s.health := rfl
@[simp] theorem setDomino_flash (x : Domino) : (setDomino x s).flash = s.flash := rfl
@[simp] theorem setDomino_lastClose (x : Domino) : (setDomino x s).lastClose = s.lastClose := rfl
@[simp] theorem setDomino_closes (x : Domino) : (setDomino x s).closes = s.closes := rfl
@[simp] theorem setDomino_free (x : Domino) : (setDomino x s).free = s.free := rfl
@[simp] theorem setDomino_out (x : Domino) : (setDomino x s).out = s.out := rfl
@[simp] theorem setDomino_bus (x : Domino) : (setDomino x s).bus = s.bus := rfl

/-! ### setPersist -/

@[simp] theorem setPersist_pending (x : Persist) : (setPersist x s).pending = s.pending := rfl
@[simp] theorem setPersist_sys (x : Persist) : (setPersist x s).sys = s.sys := rfl
@[simp] theorem setPersist_boxes (x : Persist) : (setPersist x s).boxes = s.boxes := rfl
@[simp] theorem setPersist_exec (x : Persist) : (setPersist x s).exec = s.exec := rfl
@[simp] theorem setPersist_lastServed (x : Persist) : (setPersist x s).lastServed = s.lastServed := rfl
@[simp] theorem setPersist_hostMem (x : Persist) : (setPersist x s).hostMem = s.hostMem := rfl
@[simp] theorem setPersist_dmaFaults (x : Persist) : (setPersist x s).dmaFaults = s.dmaFaults := rfl
@[simp] theorem setPersist_parts (x : Persist) : (setPersist x s).parts = s.parts := rfl
@[simp] theorem setPersist_grants (x : Persist) : (setPersist x s).grants = s.grants := rfl
@[simp] theorem setPersist_nextIndex (x : Persist) : (setPersist x s).nextIndex = s.nextIndex := rfl
@[simp] theorem setPersist_sources (x : Persist) : (setPersist x s).sources = s.sources := rfl
@[simp] theorem setPersist_objects (x : Persist) : (setPersist x s).objects = s.objects := rfl
@[simp] theorem setPersist_slotGen (x : Persist) : (setPersist x s).slotGen = s.slotGen := rfl
@[simp] theorem setPersist_orphans (x : Persist) : (setPersist x s).orphans = s.orphans := rfl
@[simp] theorem setPersist_order (x : Persist) : (setPersist x s).order = s.order := rfl
@[simp] theorem setPersist_uploads (x : Persist) : (setPersist x s).uploads = s.uploads := rfl
@[simp] theorem setPersist_decodes (x : Persist) : (setPersist x s).decodes = s.decodes := rfl
@[simp] theorem setPersist_shifts (x : Persist) : (setPersist x s).shifts = s.shifts := rfl
@[simp] theorem setPersist_procs (x : Persist) : (setPersist x s).procs = s.procs := rfl
@[simp] theorem setPersist_engines (x : Persist) : (setPersist x s).engines = s.engines := rfl
@[simp] theorem setPersist_routes (x : Persist) : (setPersist x s).routes = s.routes := rfl
@[simp] theorem setPersist_dests (x : Persist) : (setPersist x s).dests = s.dests := rfl
@[simp] theorem setPersist_heads (x : Persist) : (setPersist x s).heads = s.heads := rfl
@[simp] theorem setPersist_audio (x : Persist) : (setPersist x s).audio = s.audio := rfl
@[simp] theorem setPersist_time (x : Persist) : (setPersist x s).time = s.time := rfl
@[simp] theorem setPersist_ports (x : Persist) : (setPersist x s).ports = s.ports := rfl
@[simp] theorem setPersist_eth (x : Persist) : (setPersist x s).eth = s.eth := rfl
@[simp] theorem setPersist_pool (x : Persist) : (setPersist x s).pool = s.pool := rfl
@[simp] theorem setPersist_vault (x : Persist) : (setPersist x s).vault = s.vault := rfl
@[simp] theorem setPersist_domino (x : Persist) : (setPersist x s).domino = s.domino := rfl
@[simp] theorem setPersist_events (x : Persist) : (setPersist x s).events = s.events := rfl
@[simp] theorem setPersist_persist (x : Persist) : (setPersist x s).persist = x := rfl
@[simp] theorem setPersist_health (x : Persist) : (setPersist x s).health = s.health := rfl
@[simp] theorem setPersist_flash (x : Persist) : (setPersist x s).flash = s.flash := rfl
@[simp] theorem setPersist_lastClose (x : Persist) : (setPersist x s).lastClose = s.lastClose := rfl
@[simp] theorem setPersist_closes (x : Persist) : (setPersist x s).closes = s.closes := rfl
@[simp] theorem setPersist_free (x : Persist) : (setPersist x s).free = s.free := rfl
@[simp] theorem setPersist_out (x : Persist) : (setPersist x s).out = s.out := rfl
@[simp] theorem setPersist_bus (x : Persist) : (setPersist x s).bus = s.bus := rfl

/-! ### setHealth -/

@[simp] theorem setHealth_pending (x : Health) : (setHealth x s).pending = s.pending := rfl
@[simp] theorem setHealth_sys (x : Health) : (setHealth x s).sys = s.sys := rfl
@[simp] theorem setHealth_boxes (x : Health) : (setHealth x s).boxes = s.boxes := rfl
@[simp] theorem setHealth_exec (x : Health) : (setHealth x s).exec = s.exec := rfl
@[simp] theorem setHealth_lastServed (x : Health) : (setHealth x s).lastServed = s.lastServed := rfl
@[simp] theorem setHealth_hostMem (x : Health) : (setHealth x s).hostMem = s.hostMem := rfl
@[simp] theorem setHealth_dmaFaults (x : Health) : (setHealth x s).dmaFaults = s.dmaFaults := rfl
@[simp] theorem setHealth_parts (x : Health) : (setHealth x s).parts = s.parts := rfl
@[simp] theorem setHealth_grants (x : Health) : (setHealth x s).grants = s.grants := rfl
@[simp] theorem setHealth_nextIndex (x : Health) : (setHealth x s).nextIndex = s.nextIndex := rfl
@[simp] theorem setHealth_sources (x : Health) : (setHealth x s).sources = s.sources := rfl
@[simp] theorem setHealth_objects (x : Health) : (setHealth x s).objects = s.objects := rfl
@[simp] theorem setHealth_slotGen (x : Health) : (setHealth x s).slotGen = s.slotGen := rfl
@[simp] theorem setHealth_orphans (x : Health) : (setHealth x s).orphans = s.orphans := rfl
@[simp] theorem setHealth_order (x : Health) : (setHealth x s).order = s.order := rfl
@[simp] theorem setHealth_uploads (x : Health) : (setHealth x s).uploads = s.uploads := rfl
@[simp] theorem setHealth_decodes (x : Health) : (setHealth x s).decodes = s.decodes := rfl
@[simp] theorem setHealth_shifts (x : Health) : (setHealth x s).shifts = s.shifts := rfl
@[simp] theorem setHealth_procs (x : Health) : (setHealth x s).procs = s.procs := rfl
@[simp] theorem setHealth_engines (x : Health) : (setHealth x s).engines = s.engines := rfl
@[simp] theorem setHealth_routes (x : Health) : (setHealth x s).routes = s.routes := rfl
@[simp] theorem setHealth_dests (x : Health) : (setHealth x s).dests = s.dests := rfl
@[simp] theorem setHealth_heads (x : Health) : (setHealth x s).heads = s.heads := rfl
@[simp] theorem setHealth_audio (x : Health) : (setHealth x s).audio = s.audio := rfl
@[simp] theorem setHealth_time (x : Health) : (setHealth x s).time = s.time := rfl
@[simp] theorem setHealth_ports (x : Health) : (setHealth x s).ports = s.ports := rfl
@[simp] theorem setHealth_eth (x : Health) : (setHealth x s).eth = s.eth := rfl
@[simp] theorem setHealth_pool (x : Health) : (setHealth x s).pool = s.pool := rfl
@[simp] theorem setHealth_vault (x : Health) : (setHealth x s).vault = s.vault := rfl
@[simp] theorem setHealth_domino (x : Health) : (setHealth x s).domino = s.domino := rfl
@[simp] theorem setHealth_events (x : Health) : (setHealth x s).events = s.events := rfl
@[simp] theorem setHealth_persist (x : Health) : (setHealth x s).persist = s.persist := rfl
@[simp] theorem setHealth_health (x : Health) : (setHealth x s).health = x := rfl
@[simp] theorem setHealth_flash (x : Health) : (setHealth x s).flash = s.flash := rfl
@[simp] theorem setHealth_lastClose (x : Health) : (setHealth x s).lastClose = s.lastClose := rfl
@[simp] theorem setHealth_closes (x : Health) : (setHealth x s).closes = s.closes := rfl
@[simp] theorem setHealth_free (x : Health) : (setHealth x s).free = s.free := rfl
@[simp] theorem setHealth_out (x : Health) : (setHealth x s).out = s.out := rfl
@[simp] theorem setHealth_bus (x : Health) : (setHealth x s).bus = s.bus := rfl

/-! ### setFlash -/

@[simp] theorem setFlash_pending (x : Flash) : (setFlash x s).pending = s.pending := rfl
@[simp] theorem setFlash_sys (x : Flash) : (setFlash x s).sys = s.sys := rfl
@[simp] theorem setFlash_boxes (x : Flash) : (setFlash x s).boxes = s.boxes := rfl
@[simp] theorem setFlash_exec (x : Flash) : (setFlash x s).exec = s.exec := rfl
@[simp] theorem setFlash_lastServed (x : Flash) : (setFlash x s).lastServed = s.lastServed := rfl
@[simp] theorem setFlash_hostMem (x : Flash) : (setFlash x s).hostMem = s.hostMem := rfl
@[simp] theorem setFlash_dmaFaults (x : Flash) : (setFlash x s).dmaFaults = s.dmaFaults := rfl
@[simp] theorem setFlash_parts (x : Flash) : (setFlash x s).parts = s.parts := rfl
@[simp] theorem setFlash_grants (x : Flash) : (setFlash x s).grants = s.grants := rfl
@[simp] theorem setFlash_nextIndex (x : Flash) : (setFlash x s).nextIndex = s.nextIndex := rfl
@[simp] theorem setFlash_sources (x : Flash) : (setFlash x s).sources = s.sources := rfl
@[simp] theorem setFlash_objects (x : Flash) : (setFlash x s).objects = s.objects := rfl
@[simp] theorem setFlash_slotGen (x : Flash) : (setFlash x s).slotGen = s.slotGen := rfl
@[simp] theorem setFlash_orphans (x : Flash) : (setFlash x s).orphans = s.orphans := rfl
@[simp] theorem setFlash_order (x : Flash) : (setFlash x s).order = s.order := rfl
@[simp] theorem setFlash_uploads (x : Flash) : (setFlash x s).uploads = s.uploads := rfl
@[simp] theorem setFlash_decodes (x : Flash) : (setFlash x s).decodes = s.decodes := rfl
@[simp] theorem setFlash_shifts (x : Flash) : (setFlash x s).shifts = s.shifts := rfl
@[simp] theorem setFlash_procs (x : Flash) : (setFlash x s).procs = s.procs := rfl
@[simp] theorem setFlash_engines (x : Flash) : (setFlash x s).engines = s.engines := rfl
@[simp] theorem setFlash_routes (x : Flash) : (setFlash x s).routes = s.routes := rfl
@[simp] theorem setFlash_dests (x : Flash) : (setFlash x s).dests = s.dests := rfl
@[simp] theorem setFlash_heads (x : Flash) : (setFlash x s).heads = s.heads := rfl
@[simp] theorem setFlash_audio (x : Flash) : (setFlash x s).audio = s.audio := rfl
@[simp] theorem setFlash_time (x : Flash) : (setFlash x s).time = s.time := rfl
@[simp] theorem setFlash_ports (x : Flash) : (setFlash x s).ports = s.ports := rfl
@[simp] theorem setFlash_eth (x : Flash) : (setFlash x s).eth = s.eth := rfl
@[simp] theorem setFlash_pool (x : Flash) : (setFlash x s).pool = s.pool := rfl
@[simp] theorem setFlash_vault (x : Flash) : (setFlash x s).vault = s.vault := rfl
@[simp] theorem setFlash_domino (x : Flash) : (setFlash x s).domino = s.domino := rfl
@[simp] theorem setFlash_events (x : Flash) : (setFlash x s).events = s.events := rfl
@[simp] theorem setFlash_persist (x : Flash) : (setFlash x s).persist = s.persist := rfl
@[simp] theorem setFlash_health (x : Flash) : (setFlash x s).health = s.health := rfl
@[simp] theorem setFlash_flash (x : Flash) : (setFlash x s).flash = x := rfl
@[simp] theorem setFlash_lastClose (x : Flash) : (setFlash x s).lastClose = s.lastClose := rfl
@[simp] theorem setFlash_closes (x : Flash) : (setFlash x s).closes = s.closes := rfl
@[simp] theorem setFlash_free (x : Flash) : (setFlash x s).free = s.free := rfl
@[simp] theorem setFlash_out (x : Flash) : (setFlash x s).out = s.out := rfl
@[simp] theorem setFlash_bus (x : Flash) : (setFlash x s).bus = s.bus := rfl

/-! ### setHub -/

@[simp] theorem setHub_pending (x : Hub) : (setHub x s).pending = s.pending := rfl
@[simp] theorem setHub_sys (x : Hub) : (setHub x s).sys = s.sys := rfl
@[simp] theorem setHub_boxes (x : Hub) : (setHub x s).boxes = s.boxes := rfl
@[simp] theorem setHub_exec (x : Hub) : (setHub x s).exec = s.exec := rfl
@[simp] theorem setHub_lastServed (x : Hub) : (setHub x s).lastServed = s.lastServed := rfl
@[simp] theorem setHub_hostMem (x : Hub) : (setHub x s).hostMem = s.hostMem := rfl
@[simp] theorem setHub_dmaFaults (x : Hub) : (setHub x s).dmaFaults = s.dmaFaults := rfl
@[simp] theorem setHub_parts (x : Hub) : (setHub x s).parts = s.parts := rfl
@[simp] theorem setHub_grants (x : Hub) : (setHub x s).grants = s.grants := rfl
@[simp] theorem setHub_nextIndex (x : Hub) : (setHub x s).nextIndex = s.nextIndex := rfl
@[simp] theorem setHub_sources (x : Hub) : (setHub x s).sources = s.sources := rfl
@[simp] theorem setHub_objects (x : Hub) : (setHub x s).objects = s.objects := rfl
@[simp] theorem setHub_slotGen (x : Hub) : (setHub x s).slotGen = s.slotGen := rfl
@[simp] theorem setHub_orphans (x : Hub) : (setHub x s).orphans = s.orphans := rfl
@[simp] theorem setHub_order (x : Hub) : (setHub x s).order = s.order := rfl
@[simp] theorem setHub_uploads (x : Hub) : (setHub x s).uploads = s.uploads := rfl
@[simp] theorem setHub_decodes (x : Hub) : (setHub x s).decodes = s.decodes := rfl
@[simp] theorem setHub_shifts (x : Hub) : (setHub x s).shifts = s.shifts := rfl
@[simp] theorem setHub_procs (x : Hub) : (setHub x s).procs = s.procs := rfl
@[simp] theorem setHub_engines (x : Hub) : (setHub x s).engines = s.engines := rfl
@[simp] theorem setHub_routes (x : Hub) : (setHub x s).routes = s.routes := rfl
@[simp] theorem setHub_dests (x : Hub) : (setHub x s).dests = s.dests := rfl
@[simp] theorem setHub_heads (x : Hub) : (setHub x s).heads = s.heads := rfl
@[simp] theorem setHub_audio (x : Hub) : (setHub x s).audio = s.audio := rfl
@[simp] theorem setHub_time (x : Hub) : (setHub x s).time = s.time := rfl
@[simp] theorem setHub_ports (x : Hub) : (setHub x s).ports = s.ports := rfl
@[simp] theorem setHub_eth (x : Hub) : (setHub x s).eth = s.eth := rfl
@[simp] theorem setHub_pool (x : Hub) : (setHub x s).pool = s.pool := rfl
@[simp] theorem setHub_vault (x : Hub) : (setHub x s).vault = s.vault := rfl
@[simp] theorem setHub_domino (x : Hub) : (setHub x s).domino = s.domino := rfl
@[simp] theorem setHub_events (x : Hub) : (setHub x s).events = { s.events with hub := x } := rfl
@[simp] theorem setHub_persist (x : Hub) : (setHub x s).persist = s.persist := rfl
@[simp] theorem setHub_health (x : Hub) : (setHub x s).health = s.health := rfl
@[simp] theorem setHub_flash (x : Hub) : (setHub x s).flash = s.flash := rfl
@[simp] theorem setHub_lastClose (x : Hub) : (setHub x s).lastClose = s.lastClose := rfl
@[simp] theorem setHub_closes (x : Hub) : (setHub x s).closes = s.closes := rfl
@[simp] theorem setHub_free (x : Hub) : (setHub x s).free = s.free := rfl
@[simp] theorem setHub_out (x : Hub) : (setHub x s).out = s.out := rfl
@[simp] theorem setHub_bus (x : Hub) : (setHub x s).bus = s.bus := rfl

/-! ### send -/

@[simp] theorem send_pending (x : Output) : (send x s).pending = s.pending := rfl
@[simp] theorem send_sys (x : Output) : (send x s).sys = s.sys := rfl
@[simp] theorem send_boxes (x : Output) : (send x s).boxes = s.boxes := rfl
@[simp] theorem send_exec (x : Output) : (send x s).exec = s.exec := rfl
@[simp] theorem send_lastServed (x : Output) : (send x s).lastServed = s.lastServed := rfl
@[simp] theorem send_hostMem (x : Output) : (send x s).hostMem = s.hostMem := rfl
@[simp] theorem send_dmaFaults (x : Output) : (send x s).dmaFaults = s.dmaFaults := rfl
@[simp] theorem send_parts (x : Output) : (send x s).parts = s.parts := rfl
@[simp] theorem send_grants (x : Output) : (send x s).grants = s.grants := rfl
@[simp] theorem send_nextIndex (x : Output) : (send x s).nextIndex = s.nextIndex := rfl
@[simp] theorem send_sources (x : Output) : (send x s).sources = s.sources := rfl
@[simp] theorem send_objects (x : Output) : (send x s).objects = s.objects := rfl
@[simp] theorem send_slotGen (x : Output) : (send x s).slotGen = s.slotGen := rfl
@[simp] theorem send_orphans (x : Output) : (send x s).orphans = s.orphans := rfl
@[simp] theorem send_order (x : Output) : (send x s).order = s.order := rfl
@[simp] theorem send_uploads (x : Output) : (send x s).uploads = s.uploads := rfl
@[simp] theorem send_decodes (x : Output) : (send x s).decodes = s.decodes := rfl
@[simp] theorem send_shifts (x : Output) : (send x s).shifts = s.shifts := rfl
@[simp] theorem send_procs (x : Output) : (send x s).procs = s.procs := rfl
@[simp] theorem send_engines (x : Output) : (send x s).engines = s.engines := rfl
@[simp] theorem send_routes (x : Output) : (send x s).routes = s.routes := rfl
@[simp] theorem send_dests (x : Output) : (send x s).dests = s.dests := rfl
@[simp] theorem send_heads (x : Output) : (send x s).heads = s.heads := rfl
@[simp] theorem send_audio (x : Output) : (send x s).audio = s.audio := rfl
@[simp] theorem send_time (x : Output) : (send x s).time = s.time := rfl
@[simp] theorem send_ports (x : Output) : (send x s).ports = s.ports := rfl
@[simp] theorem send_eth (x : Output) : (send x s).eth = s.eth := rfl
@[simp] theorem send_pool (x : Output) : (send x s).pool = s.pool := rfl
@[simp] theorem send_vault (x : Output) : (send x s).vault = s.vault := rfl
@[simp] theorem send_domino (x : Output) : (send x s).domino = s.domino := rfl
@[simp] theorem send_events (x : Output) : (send x s).events = s.events := rfl
@[simp] theorem send_persist (x : Output) : (send x s).persist = s.persist := rfl
@[simp] theorem send_health (x : Output) : (send x s).health = s.health := rfl
@[simp] theorem send_flash (x : Output) : (send x s).flash = s.flash := rfl
@[simp] theorem send_lastClose (x : Output) : (send x s).lastClose = s.lastClose := rfl
@[simp] theorem send_closes (x : Output) : (send x s).closes = s.closes := rfl
@[simp] theorem send_free (x : Output) : (send x s).free = s.free := rfl
@[simp] theorem send_out (x : Output) : (send x s).out = x :: s.out := rfl
@[simp] theorem send_bus (x : Output) : (send x s).bus = s.bus := rfl

/-! ### evPut -/

@[simp] theorem evPut_pending (n : Nat) (x : EventSrc) : (evPut n x s).pending = s.pending := rfl
@[simp] theorem evPut_sys (n : Nat) (x : EventSrc) : (evPut n x s).sys = s.sys := rfl
@[simp] theorem evPut_boxes (n : Nat) (x : EventSrc) : (evPut n x s).boxes = s.boxes := rfl
@[simp] theorem evPut_exec (n : Nat) (x : EventSrc) : (evPut n x s).exec = s.exec := rfl
@[simp] theorem evPut_lastServed (n : Nat) (x : EventSrc) : (evPut n x s).lastServed = s.lastServed := rfl
@[simp] theorem evPut_hostMem (n : Nat) (x : EventSrc) : (evPut n x s).hostMem = s.hostMem := rfl
@[simp] theorem evPut_dmaFaults (n : Nat) (x : EventSrc) : (evPut n x s).dmaFaults = s.dmaFaults := rfl
@[simp] theorem evPut_parts (n : Nat) (x : EventSrc) : (evPut n x s).parts = s.parts := rfl
@[simp] theorem evPut_grants (n : Nat) (x : EventSrc) : (evPut n x s).grants = s.grants := rfl
@[simp] theorem evPut_nextIndex (n : Nat) (x : EventSrc) : (evPut n x s).nextIndex = s.nextIndex := rfl
@[simp] theorem evPut_sources (n : Nat) (x : EventSrc) : (evPut n x s).sources = s.sources := rfl
@[simp] theorem evPut_objects (n : Nat) (x : EventSrc) : (evPut n x s).objects = s.objects := rfl
@[simp] theorem evPut_slotGen (n : Nat) (x : EventSrc) : (evPut n x s).slotGen = s.slotGen := rfl
@[simp] theorem evPut_orphans (n : Nat) (x : EventSrc) : (evPut n x s).orphans = s.orphans := rfl
@[simp] theorem evPut_order (n : Nat) (x : EventSrc) : (evPut n x s).order = s.order := rfl
@[simp] theorem evPut_uploads (n : Nat) (x : EventSrc) : (evPut n x s).uploads = s.uploads := rfl
@[simp] theorem evPut_decodes (n : Nat) (x : EventSrc) : (evPut n x s).decodes = s.decodes := rfl
@[simp] theorem evPut_shifts (n : Nat) (x : EventSrc) : (evPut n x s).shifts = s.shifts := rfl
@[simp] theorem evPut_procs (n : Nat) (x : EventSrc) : (evPut n x s).procs = s.procs := rfl
@[simp] theorem evPut_engines (n : Nat) (x : EventSrc) : (evPut n x s).engines = s.engines := rfl
@[simp] theorem evPut_routes (n : Nat) (x : EventSrc) : (evPut n x s).routes = s.routes := rfl
@[simp] theorem evPut_dests (n : Nat) (x : EventSrc) : (evPut n x s).dests = s.dests := rfl
@[simp] theorem evPut_heads (n : Nat) (x : EventSrc) : (evPut n x s).heads = s.heads := rfl
@[simp] theorem evPut_audio (n : Nat) (x : EventSrc) : (evPut n x s).audio = s.audio := rfl
@[simp] theorem evPut_time (n : Nat) (x : EventSrc) : (evPut n x s).time = s.time := rfl
@[simp] theorem evPut_ports (n : Nat) (x : EventSrc) : (evPut n x s).ports = s.ports := rfl
@[simp] theorem evPut_eth (n : Nat) (x : EventSrc) : (evPut n x s).eth = s.eth := rfl
@[simp] theorem evPut_pool (n : Nat) (x : EventSrc) : (evPut n x s).pool = s.pool := rfl
@[simp] theorem evPut_vault (n : Nat) (x : EventSrc) : (evPut n x s).vault = s.vault := rfl
@[simp] theorem evPut_domino (n : Nat) (x : EventSrc) : (evPut n x s).domino = s.domino := rfl
@[simp] theorem evPut_events (n : Nat) (x : EventSrc) : (evPut n x s).events = { s.events with sources := tset s.events.sources n x } := rfl
@[simp] theorem evPut_persist (n : Nat) (x : EventSrc) : (evPut n x s).persist = s.persist := rfl
@[simp] theorem evPut_health (n : Nat) (x : EventSrc) : (evPut n x s).health = s.health := rfl
@[simp] theorem evPut_flash (n : Nat) (x : EventSrc) : (evPut n x s).flash = s.flash := rfl
@[simp] theorem evPut_lastClose (n : Nat) (x : EventSrc) : (evPut n x s).lastClose = s.lastClose := rfl
@[simp] theorem evPut_closes (n : Nat) (x : EventSrc) : (evPut n x s).closes = s.closes := rfl
@[simp] theorem evPut_free (n : Nat) (x : EventSrc) : (evPut n x s).free = s.free := rfl
@[simp] theorem evPut_out (n : Nat) (x : EventSrc) : (evPut n x s).out = s.out := rfl
@[simp] theorem evPut_bus (n : Nat) (x : EventSrc) : (evPut n x s).bus = s.bus := rfl

/-! ### vecPut -/

@[simp] theorem vecPut_pending (f v : Nat) (x : Vector) : (vecPut f v x s).pending = s.pending := rfl
@[simp] theorem vecPut_sys (f v : Nat) (x : Vector) : (vecPut f v x s).sys = s.sys := rfl
@[simp] theorem vecPut_boxes (f v : Nat) (x : Vector) : (vecPut f v x s).boxes = s.boxes := rfl
@[simp] theorem vecPut_exec (f v : Nat) (x : Vector) : (vecPut f v x s).exec = s.exec := rfl
@[simp] theorem vecPut_lastServed (f v : Nat) (x : Vector) : (vecPut f v x s).lastServed = s.lastServed := rfl
@[simp] theorem vecPut_hostMem (f v : Nat) (x : Vector) : (vecPut f v x s).hostMem = s.hostMem := rfl
@[simp] theorem vecPut_dmaFaults (f v : Nat) (x : Vector) : (vecPut f v x s).dmaFaults = s.dmaFaults := rfl
@[simp] theorem vecPut_parts (f v : Nat) (x : Vector) : (vecPut f v x s).parts = s.parts := rfl
@[simp] theorem vecPut_grants (f v : Nat) (x : Vector) : (vecPut f v x s).grants = s.grants := rfl
@[simp] theorem vecPut_nextIndex (f v : Nat) (x : Vector) : (vecPut f v x s).nextIndex = s.nextIndex := rfl
@[simp] theorem vecPut_sources (f v : Nat) (x : Vector) : (vecPut f v x s).sources = s.sources := rfl
@[simp] theorem vecPut_objects (f v : Nat) (x : Vector) : (vecPut f v x s).objects = s.objects := rfl
@[simp] theorem vecPut_slotGen (f v : Nat) (x : Vector) : (vecPut f v x s).slotGen = s.slotGen := rfl
@[simp] theorem vecPut_orphans (f v : Nat) (x : Vector) : (vecPut f v x s).orphans = s.orphans := rfl
@[simp] theorem vecPut_order (f v : Nat) (x : Vector) : (vecPut f v x s).order = s.order := rfl
@[simp] theorem vecPut_uploads (f v : Nat) (x : Vector) : (vecPut f v x s).uploads = s.uploads := rfl
@[simp] theorem vecPut_decodes (f v : Nat) (x : Vector) : (vecPut f v x s).decodes = s.decodes := rfl
@[simp] theorem vecPut_shifts (f v : Nat) (x : Vector) : (vecPut f v x s).shifts = s.shifts := rfl
@[simp] theorem vecPut_procs (f v : Nat) (x : Vector) : (vecPut f v x s).procs = s.procs := rfl
@[simp] theorem vecPut_engines (f v : Nat) (x : Vector) : (vecPut f v x s).engines = s.engines := rfl
@[simp] theorem vecPut_routes (f v : Nat) (x : Vector) : (vecPut f v x s).routes = s.routes := rfl
@[simp] theorem vecPut_dests (f v : Nat) (x : Vector) : (vecPut f v x s).dests = s.dests := rfl
@[simp] theorem vecPut_heads (f v : Nat) (x : Vector) : (vecPut f v x s).heads = s.heads := rfl
@[simp] theorem vecPut_audio (f v : Nat) (x : Vector) : (vecPut f v x s).audio = s.audio := rfl
@[simp] theorem vecPut_time (f v : Nat) (x : Vector) : (vecPut f v x s).time = s.time := rfl
@[simp] theorem vecPut_ports (f v : Nat) (x : Vector) : (vecPut f v x s).ports = s.ports := rfl
@[simp] theorem vecPut_eth (f v : Nat) (x : Vector) : (vecPut f v x s).eth = s.eth := rfl
@[simp] theorem vecPut_pool (f v : Nat) (x : Vector) : (vecPut f v x s).pool = s.pool := rfl
@[simp] theorem vecPut_vault (f v : Nat) (x : Vector) : (vecPut f v x s).vault = s.vault := rfl
@[simp] theorem vecPut_domino (f v : Nat) (x : Vector) : (vecPut f v x s).domino = s.domino := rfl
@[simp] theorem vecPut_events (f v : Nat) (x : Vector) : (vecPut f v x s).events = { s.events with vectors := tset s.events.vectors (f * 64 + v) x } := rfl
@[simp] theorem vecPut_persist (f v : Nat) (x : Vector) : (vecPut f v x s).persist = s.persist := rfl
@[simp] theorem vecPut_health (f v : Nat) (x : Vector) : (vecPut f v x s).health = s.health := rfl
@[simp] theorem vecPut_flash (f v : Nat) (x : Vector) : (vecPut f v x s).flash = s.flash := rfl
@[simp] theorem vecPut_lastClose (f v : Nat) (x : Vector) : (vecPut f v x s).lastClose = s.lastClose := rfl
@[simp] theorem vecPut_closes (f v : Nat) (x : Vector) : (vecPut f v x s).closes = s.closes := rfl
@[simp] theorem vecPut_free (f v : Nat) (x : Vector) : (vecPut f v x s).free = s.free := rfl
@[simp] theorem vecPut_out (f v : Nat) (x : Vector) : (vecPut f v x s).out = s.out := rfl
@[simp] theorem vecPut_bus (f v : Nat) (x : Vector) : (vecPut f v x s).bus = s.bus := rfl

/-! ### objPut -/

@[simp] theorem objPut_pending (n : Nat) (x : Obj) : (objPut n x s).pending = s.pending := rfl
@[simp] theorem objPut_sys (n : Nat) (x : Obj) : (objPut n x s).sys = s.sys := rfl
@[simp] theorem objPut_boxes (n : Nat) (x : Obj) : (objPut n x s).boxes = s.boxes := rfl
@[simp] theorem objPut_exec (n : Nat) (x : Obj) : (objPut n x s).exec = s.exec := rfl
@[simp] theorem objPut_lastServed (n : Nat) (x : Obj) : (objPut n x s).lastServed = s.lastServed := rfl
@[simp] theorem objPut_hostMem (n : Nat) (x : Obj) : (objPut n x s).hostMem = s.hostMem := rfl
@[simp] theorem objPut_dmaFaults (n : Nat) (x : Obj) : (objPut n x s).dmaFaults = s.dmaFaults := rfl
@[simp] theorem objPut_parts (n : Nat) (x : Obj) : (objPut n x s).parts = s.parts := rfl
@[simp] theorem objPut_grants (n : Nat) (x : Obj) : (objPut n x s).grants = s.grants := rfl
@[simp] theorem objPut_nextIndex (n : Nat) (x : Obj) : (objPut n x s).nextIndex = s.nextIndex := rfl
@[simp] theorem objPut_sources (n : Nat) (x : Obj) : (objPut n x s).sources = s.sources := rfl
@[simp] theorem objPut_objects (n : Nat) (x : Obj) : (objPut n x s).objects = tset s.objects n x := rfl
@[simp] theorem objPut_slotGen (n : Nat) (x : Obj) : (objPut n x s).slotGen = s.slotGen := rfl
@[simp] theorem objPut_orphans (n : Nat) (x : Obj) : (objPut n x s).orphans = s.orphans := rfl
@[simp] theorem objPut_order (n : Nat) (x : Obj) : (objPut n x s).order = s.order := rfl
@[simp] theorem objPut_uploads (n : Nat) (x : Obj) : (objPut n x s).uploads = s.uploads := rfl
@[simp] theorem objPut_decodes (n : Nat) (x : Obj) : (objPut n x s).decodes = s.decodes := rfl
@[simp] theorem objPut_shifts (n : Nat) (x : Obj) : (objPut n x s).shifts = s.shifts := rfl
@[simp] theorem objPut_procs (n : Nat) (x : Obj) : (objPut n x s).procs = s.procs := rfl
@[simp] theorem objPut_engines (n : Nat) (x : Obj) : (objPut n x s).engines = s.engines := rfl
@[simp] theorem objPut_routes (n : Nat) (x : Obj) : (objPut n x s).routes = s.routes := rfl
@[simp] theorem objPut_dests (n : Nat) (x : Obj) : (objPut n x s).dests = s.dests := rfl
@[simp] theorem objPut_heads (n : Nat) (x : Obj) : (objPut n x s).heads = s.heads := rfl
@[simp] theorem objPut_audio (n : Nat) (x : Obj) : (objPut n x s).audio = s.audio := rfl
@[simp] theorem objPut_time (n : Nat) (x : Obj) : (objPut n x s).time = s.time := rfl
@[simp] theorem objPut_ports (n : Nat) (x : Obj) : (objPut n x s).ports = s.ports := rfl
@[simp] theorem objPut_eth (n : Nat) (x : Obj) : (objPut n x s).eth = s.eth := rfl
@[simp] theorem objPut_pool (n : Nat) (x : Obj) : (objPut n x s).pool = s.pool := rfl
@[simp] theorem objPut_vault (n : Nat) (x : Obj) : (objPut n x s).vault = s.vault := rfl
@[simp] theorem objPut_domino (n : Nat) (x : Obj) : (objPut n x s).domino = s.domino := rfl
@[simp] theorem objPut_events (n : Nat) (x : Obj) : (objPut n x s).events = s.events := rfl
@[simp] theorem objPut_persist (n : Nat) (x : Obj) : (objPut n x s).persist = s.persist := rfl
@[simp] theorem objPut_health (n : Nat) (x : Obj) : (objPut n x s).health = s.health := rfl
@[simp] theorem objPut_flash (n : Nat) (x : Obj) : (objPut n x s).flash = s.flash := rfl
@[simp] theorem objPut_lastClose (n : Nat) (x : Obj) : (objPut n x s).lastClose = s.lastClose := rfl
@[simp] theorem objPut_closes (n : Nat) (x : Obj) : (objPut n x s).closes = s.closes := rfl
@[simp] theorem objPut_free (n : Nat) (x : Obj) : (objPut n x s).free = s.free := rfl
@[simp] theorem objPut_out (n : Nat) (x : Obj) : (objPut n x s).out = s.out := rfl
@[simp] theorem objPut_bus (n : Nat) (x : Obj) : (objPut n x s).bus = s.bus := rfl

/-! ### srcPut -/

@[simp] theorem srcPut_pending (n : Handle) (x : Source) : (srcPut n x s).pending = s.pending := rfl
@[simp] theorem srcPut_sys (n : Handle) (x : Source) : (srcPut n x s).sys = s.sys := rfl
@[simp] theorem srcPut_boxes (n : Handle) (x : Source) : (srcPut n x s).boxes = s.boxes := rfl
@[simp] theorem srcPut_exec (n : Handle) (x : Source) : (srcPut n x s).exec = s.exec := rfl
@[simp] theorem srcPut_lastServed (n : Handle) (x : Source) : (srcPut n x s).lastServed = s.lastServed := rfl
@[simp] theorem srcPut_hostMem (n : Handle) (x : Source) : (srcPut n x s).hostMem = s.hostMem := rfl
@[simp] theorem srcPut_dmaFaults (n : Handle) (x : Source) : (srcPut n x s).dmaFaults = s.dmaFaults := rfl
@[simp] theorem srcPut_parts (n : Handle) (x : Source) : (srcPut n x s).parts = s.parts := rfl
@[simp] theorem srcPut_grants (n : Handle) (x : Source) : (srcPut n x s).grants = s.grants := rfl
@[simp] theorem srcPut_nextIndex (n : Handle) (x : Source) : (srcPut n x s).nextIndex = s.nextIndex := rfl
@[simp] theorem srcPut_sources (n : Handle) (x : Source) : (srcPut n x s).sources = tset s.sources n x := rfl
@[simp] theorem srcPut_objects (n : Handle) (x : Source) : (srcPut n x s).objects = s.objects := rfl
@[simp] theorem srcPut_slotGen (n : Handle) (x : Source) : (srcPut n x s).slotGen = s.slotGen := rfl
@[simp] theorem srcPut_orphans (n : Handle) (x : Source) : (srcPut n x s).orphans = s.orphans := rfl
@[simp] theorem srcPut_order (n : Handle) (x : Source) : (srcPut n x s).order = s.order := rfl
@[simp] theorem srcPut_uploads (n : Handle) (x : Source) : (srcPut n x s).uploads = s.uploads := rfl
@[simp] theorem srcPut_decodes (n : Handle) (x : Source) : (srcPut n x s).decodes = s.decodes := rfl
@[simp] theorem srcPut_shifts (n : Handle) (x : Source) : (srcPut n x s).shifts = s.shifts := rfl
@[simp] theorem srcPut_procs (n : Handle) (x : Source) : (srcPut n x s).procs = s.procs := rfl
@[simp] theorem srcPut_engines (n : Handle) (x : Source) : (srcPut n x s).engines = s.engines := rfl
@[simp] theorem srcPut_routes (n : Handle) (x : Source) : (srcPut n x s).routes = s.routes := rfl
@[simp] theorem srcPut_dests (n : Handle) (x : Source) : (srcPut n x s).dests = s.dests := rfl
@[simp] theorem srcPut_heads (n : Handle) (x : Source) : (srcPut n x s).heads = s.heads := rfl
@[simp] theorem srcPut_audio (n : Handle) (x : Source) : (srcPut n x s).audio = s.audio := rfl
@[simp] theorem srcPut_time (n : Handle) (x : Source) : (srcPut n x s).time = s.time := rfl
@[simp] theorem srcPut_ports (n : Handle) (x : Source) : (srcPut n x s).ports = s.ports := rfl
@[simp] theorem srcPut_eth (n : Handle) (x : Source) : (srcPut n x s).eth = s.eth := rfl
@[simp] theorem srcPut_pool (n : Handle) (x : Source) : (srcPut n x s).pool = s.pool := rfl
@[simp] theorem srcPut_vault (n : Handle) (x : Source) : (srcPut n x s).vault = s.vault := rfl
@[simp] theorem srcPut_domino (n : Handle) (x : Source) : (srcPut n x s).domino = s.domino := rfl
@[simp] theorem srcPut_events (n : Handle) (x : Source) : (srcPut n x s).events = s.events := rfl
@[simp] theorem srcPut_persist (n : Handle) (x : Source) : (srcPut n x s).persist = s.persist := rfl
@[simp] theorem srcPut_health (n : Handle) (x : Source) : (srcPut n x s).health = s.health := rfl
@[simp] theorem srcPut_flash (n : Handle) (x : Source) : (srcPut n x s).flash = s.flash := rfl
@[simp] theorem srcPut_lastClose (n : Handle) (x : Source) : (srcPut n x s).lastClose = s.lastClose := rfl
@[simp] theorem srcPut_closes (n : Handle) (x : Source) : (srcPut n x s).closes = s.closes := rfl
@[simp] theorem srcPut_free (n : Handle) (x : Source) : (srcPut n x s).free = s.free := rfl
@[simp] theorem srcPut_out (n : Handle) (x : Source) : (srcPut n x s).out = s.out := rfl
@[simp] theorem srcPut_bus (n : Handle) (x : Source) : (srcPut n x s).bus = s.bus := rfl

/-! ### srcMod -/

@[simp] theorem srcMod_pending (n : Handle) (f : Source → Source) : (srcMod n f s).pending = s.pending := rfl
@[simp] theorem srcMod_sys (n : Handle) (f : Source → Source) : (srcMod n f s).sys = s.sys := rfl
@[simp] theorem srcMod_boxes (n : Handle) (f : Source → Source) : (srcMod n f s).boxes = s.boxes := rfl
@[simp] theorem srcMod_exec (n : Handle) (f : Source → Source) : (srcMod n f s).exec = s.exec := rfl
@[simp] theorem srcMod_lastServed (n : Handle) (f : Source → Source) : (srcMod n f s).lastServed = s.lastServed := rfl
@[simp] theorem srcMod_hostMem (n : Handle) (f : Source → Source) : (srcMod n f s).hostMem = s.hostMem := rfl
@[simp] theorem srcMod_dmaFaults (n : Handle) (f : Source → Source) : (srcMod n f s).dmaFaults = s.dmaFaults := rfl
@[simp] theorem srcMod_parts (n : Handle) (f : Source → Source) : (srcMod n f s).parts = s.parts := rfl
@[simp] theorem srcMod_grants (n : Handle) (f : Source → Source) : (srcMod n f s).grants = s.grants := rfl
@[simp] theorem srcMod_nextIndex (n : Handle) (f : Source → Source) : (srcMod n f s).nextIndex = s.nextIndex := rfl
@[simp] theorem srcMod_sources (n : Handle) (f : Source → Source) : (srcMod n f s).sources = tmod s.sources n f := rfl
@[simp] theorem srcMod_objects (n : Handle) (f : Source → Source) : (srcMod n f s).objects = s.objects := rfl
@[simp] theorem srcMod_slotGen (n : Handle) (f : Source → Source) : (srcMod n f s).slotGen = s.slotGen := rfl
@[simp] theorem srcMod_orphans (n : Handle) (f : Source → Source) : (srcMod n f s).orphans = s.orphans := rfl
@[simp] theorem srcMod_order (n : Handle) (f : Source → Source) : (srcMod n f s).order = s.order := rfl
@[simp] theorem srcMod_uploads (n : Handle) (f : Source → Source) : (srcMod n f s).uploads = s.uploads := rfl
@[simp] theorem srcMod_decodes (n : Handle) (f : Source → Source) : (srcMod n f s).decodes = s.decodes := rfl
@[simp] theorem srcMod_shifts (n : Handle) (f : Source → Source) : (srcMod n f s).shifts = s.shifts := rfl
@[simp] theorem srcMod_procs (n : Handle) (f : Source → Source) : (srcMod n f s).procs = s.procs := rfl
@[simp] theorem srcMod_engines (n : Handle) (f : Source → Source) : (srcMod n f s).engines = s.engines := rfl
@[simp] theorem srcMod_routes (n : Handle) (f : Source → Source) : (srcMod n f s).routes = s.routes := rfl
@[simp] theorem srcMod_dests (n : Handle) (f : Source → Source) : (srcMod n f s).dests = s.dests := rfl
@[simp] theorem srcMod_heads (n : Handle) (f : Source → Source) : (srcMod n f s).heads = s.heads := rfl
@[simp] theorem srcMod_audio (n : Handle) (f : Source → Source) : (srcMod n f s).audio = s.audio := rfl
@[simp] theorem srcMod_time (n : Handle) (f : Source → Source) : (srcMod n f s).time = s.time := rfl
@[simp] theorem srcMod_ports (n : Handle) (f : Source → Source) : (srcMod n f s).ports = s.ports := rfl
@[simp] theorem srcMod_eth (n : Handle) (f : Source → Source) : (srcMod n f s).eth = s.eth := rfl
@[simp] theorem srcMod_pool (n : Handle) (f : Source → Source) : (srcMod n f s).pool = s.pool := rfl
@[simp] theorem srcMod_vault (n : Handle) (f : Source → Source) : (srcMod n f s).vault = s.vault := rfl
@[simp] theorem srcMod_domino (n : Handle) (f : Source → Source) : (srcMod n f s).domino = s.domino := rfl
@[simp] theorem srcMod_events (n : Handle) (f : Source → Source) : (srcMod n f s).events = s.events := rfl
@[simp] theorem srcMod_persist (n : Handle) (f : Source → Source) : (srcMod n f s).persist = s.persist := rfl
@[simp] theorem srcMod_health (n : Handle) (f : Source → Source) : (srcMod n f s).health = s.health := rfl
@[simp] theorem srcMod_flash (n : Handle) (f : Source → Source) : (srcMod n f s).flash = s.flash := rfl
@[simp] theorem srcMod_lastClose (n : Handle) (f : Source → Source) : (srcMod n f s).lastClose = s.lastClose := rfl
@[simp] theorem srcMod_closes (n : Handle) (f : Source → Source) : (srcMod n f s).closes = s.closes := rfl
@[simp] theorem srcMod_free (n : Handle) (f : Source → Source) : (srcMod n f s).free = s.free := rfl
@[simp] theorem srcMod_out (n : Handle) (f : Source → Source) : (srcMod n f s).out = s.out := rfl
@[simp] theorem srcMod_bus (n : Handle) (f : Source → Source) : (srcMod n f s).bus = s.bus := rfl

/-! ### modRoute -/

@[simp] theorem modRoute_pending (n : Handle) (f : Route → Route) : (modRoute n f s).pending = s.pending := rfl
@[simp] theorem modRoute_sys (n : Handle) (f : Route → Route) : (modRoute n f s).sys = s.sys := rfl
@[simp] theorem modRoute_boxes (n : Handle) (f : Route → Route) : (modRoute n f s).boxes = s.boxes := rfl
@[simp] theorem modRoute_exec (n : Handle) (f : Route → Route) : (modRoute n f s).exec = s.exec := rfl
@[simp] theorem modRoute_lastServed (n : Handle) (f : Route → Route) : (modRoute n f s).lastServed = s.lastServed := rfl
@[simp] theorem modRoute_hostMem (n : Handle) (f : Route → Route) : (modRoute n f s).hostMem = s.hostMem := rfl
@[simp] theorem modRoute_dmaFaults (n : Handle) (f : Route → Route) : (modRoute n f s).dmaFaults = s.dmaFaults := rfl
@[simp] theorem modRoute_parts (n : Handle) (f : Route → Route) : (modRoute n f s).parts = s.parts := rfl
@[simp] theorem modRoute_grants (n : Handle) (f : Route → Route) : (modRoute n f s).grants = s.grants := rfl
@[simp] theorem modRoute_nextIndex (n : Handle) (f : Route → Route) : (modRoute n f s).nextIndex = s.nextIndex := rfl
@[simp] theorem modRoute_sources (n : Handle) (f : Route → Route) : (modRoute n f s).sources = s.sources := rfl
@[simp] theorem modRoute_objects (n : Handle) (f : Route → Route) : (modRoute n f s).objects = s.objects := rfl
@[simp] theorem modRoute_slotGen (n : Handle) (f : Route → Route) : (modRoute n f s).slotGen = s.slotGen := rfl
@[simp] theorem modRoute_orphans (n : Handle) (f : Route → Route) : (modRoute n f s).orphans = s.orphans := rfl
@[simp] theorem modRoute_order (n : Handle) (f : Route → Route) : (modRoute n f s).order = s.order := rfl
@[simp] theorem modRoute_uploads (n : Handle) (f : Route → Route) : (modRoute n f s).uploads = s.uploads := rfl
@[simp] theorem modRoute_decodes (n : Handle) (f : Route → Route) : (modRoute n f s).decodes = s.decodes := rfl
@[simp] theorem modRoute_shifts (n : Handle) (f : Route → Route) : (modRoute n f s).shifts = s.shifts := rfl
@[simp] theorem modRoute_procs (n : Handle) (f : Route → Route) : (modRoute n f s).procs = s.procs := rfl
@[simp] theorem modRoute_engines (n : Handle) (f : Route → Route) : (modRoute n f s).engines = s.engines := rfl
@[simp] theorem modRoute_routes (n : Handle) (f : Route → Route) : (modRoute n f s).routes = tmod s.routes n f := rfl
@[simp] theorem modRoute_dests (n : Handle) (f : Route → Route) : (modRoute n f s).dests = s.dests := rfl
@[simp] theorem modRoute_heads (n : Handle) (f : Route → Route) : (modRoute n f s).heads = s.heads := rfl
@[simp] theorem modRoute_audio (n : Handle) (f : Route → Route) : (modRoute n f s).audio = s.audio := rfl
@[simp] theorem modRoute_time (n : Handle) (f : Route → Route) : (modRoute n f s).time = s.time := rfl
@[simp] theorem modRoute_ports (n : Handle) (f : Route → Route) : (modRoute n f s).ports = s.ports := rfl
@[simp] theorem modRoute_eth (n : Handle) (f : Route → Route) : (modRoute n f s).eth = s.eth := rfl
@[simp] theorem modRoute_pool (n : Handle) (f : Route → Route) : (modRoute n f s).pool = s.pool := rfl
@[simp] theorem modRoute_vault (n : Handle) (f : Route → Route) : (modRoute n f s).vault = s.vault := rfl
@[simp] theorem modRoute_domino (n : Handle) (f : Route → Route) : (modRoute n f s).domino = s.domino := rfl
@[simp] theorem modRoute_events (n : Handle) (f : Route → Route) : (modRoute n f s).events = s.events := rfl
@[simp] theorem modRoute_persist (n : Handle) (f : Route → Route) : (modRoute n f s).persist = s.persist := rfl
@[simp] theorem modRoute_health (n : Handle) (f : Route → Route) : (modRoute n f s).health = s.health := rfl
@[simp] theorem modRoute_flash (n : Handle) (f : Route → Route) : (modRoute n f s).flash = s.flash := rfl
@[simp] theorem modRoute_lastClose (n : Handle) (f : Route → Route) : (modRoute n f s).lastClose = s.lastClose := rfl
@[simp] theorem modRoute_closes (n : Handle) (f : Route → Route) : (modRoute n f s).closes = s.closes := rfl
@[simp] theorem modRoute_free (n : Handle) (f : Route → Route) : (modRoute n f s).free = s.free := rfl
@[simp] theorem modRoute_out (n : Handle) (f : Route → Route) : (modRoute n f s).out = s.out := rfl
@[simp] theorem modRoute_bus (n : Handle) (f : Route → Route) : (modRoute n f s).bus = s.bus := rfl

/-! ### portPut -/

@[simp] theorem portPut_pending (n : Nat) (x : Port) : (portPut n x s).pending = s.pending := rfl
@[simp] theorem portPut_sys (n : Nat) (x : Port) : (portPut n x s).sys = s.sys := rfl
@[simp] theorem portPut_boxes (n : Nat) (x : Port) : (portPut n x s).boxes = s.boxes := rfl
@[simp] theorem portPut_exec (n : Nat) (x : Port) : (portPut n x s).exec = s.exec := rfl
@[simp] theorem portPut_lastServed (n : Nat) (x : Port) : (portPut n x s).lastServed = s.lastServed := rfl
@[simp] theorem portPut_hostMem (n : Nat) (x : Port) : (portPut n x s).hostMem = s.hostMem := rfl
@[simp] theorem portPut_dmaFaults (n : Nat) (x : Port) : (portPut n x s).dmaFaults = s.dmaFaults := rfl
@[simp] theorem portPut_parts (n : Nat) (x : Port) : (portPut n x s).parts = s.parts := rfl
@[simp] theorem portPut_grants (n : Nat) (x : Port) : (portPut n x s).grants = s.grants := rfl
@[simp] theorem portPut_nextIndex (n : Nat) (x : Port) : (portPut n x s).nextIndex = s.nextIndex := rfl
@[simp] theorem portPut_sources (n : Nat) (x : Port) : (portPut n x s).sources = s.sources := rfl
@[simp] theorem portPut_objects (n : Nat) (x : Port) : (portPut n x s).objects = s.objects := rfl
@[simp] theorem portPut_slotGen (n : Nat) (x : Port) : (portPut n x s).slotGen = s.slotGen := rfl
@[simp] theorem portPut_orphans (n : Nat) (x : Port) : (portPut n x s).orphans = s.orphans := rfl
@[simp] theorem portPut_order (n : Nat) (x : Port) : (portPut n x s).order = s.order := rfl
@[simp] theorem portPut_uploads (n : Nat) (x : Port) : (portPut n x s).uploads = s.uploads := rfl
@[simp] theorem portPut_decodes (n : Nat) (x : Port) : (portPut n x s).decodes = s.decodes := rfl
@[simp] theorem portPut_shifts (n : Nat) (x : Port) : (portPut n x s).shifts = s.shifts := rfl
@[simp] theorem portPut_procs (n : Nat) (x : Port) : (portPut n x s).procs = s.procs := rfl
@[simp] theorem portPut_engines (n : Nat) (x : Port) : (portPut n x s).engines = s.engines := rfl
@[simp] theorem portPut_routes (n : Nat) (x : Port) : (portPut n x s).routes = s.routes := rfl
@[simp] theorem portPut_dests (n : Nat) (x : Port) : (portPut n x s).dests = s.dests := rfl
@[simp] theorem portPut_heads (n : Nat) (x : Port) : (portPut n x s).heads = s.heads := rfl
@[simp] theorem portPut_audio (n : Nat) (x : Port) : (portPut n x s).audio = s.audio := rfl
@[simp] theorem portPut_time (n : Nat) (x : Port) : (portPut n x s).time = s.time := rfl
@[simp] theorem portPut_ports (n : Nat) (x : Port) : (portPut n x s).ports = tset s.ports n x := rfl
@[simp] theorem portPut_eth (n : Nat) (x : Port) : (portPut n x s).eth = s.eth := rfl
@[simp] theorem portPut_pool (n : Nat) (x : Port) : (portPut n x s).pool = s.pool := rfl
@[simp] theorem portPut_vault (n : Nat) (x : Port) : (portPut n x s).vault = s.vault := rfl
@[simp] theorem portPut_domino (n : Nat) (x : Port) : (portPut n x s).domino = s.domino := rfl
@[simp] theorem portPut_events (n : Nat) (x : Port) : (portPut n x s).events = s.events := rfl
@[simp] theorem portPut_persist (n : Nat) (x : Port) : (portPut n x s).persist = s.persist := rfl
@[simp] theorem portPut_health (n : Nat) (x : Port) : (portPut n x s).health = s.health := rfl
@[simp] theorem portPut_flash (n : Nat) (x : Port) : (portPut n x s).flash = s.flash := rfl
@[simp] theorem portPut_lastClose (n : Nat) (x : Port) : (portPut n x s).lastClose = s.lastClose := rfl
@[simp] theorem portPut_closes (n : Nat) (x : Port) : (portPut n x s).closes = s.closes := rfl
@[simp] theorem portPut_free (n : Nat) (x : Port) : (portPut n x s).free = s.free := rfl
@[simp] theorem portPut_out (n : Nat) (x : Port) : (portPut n x s).out = s.out := rfl
@[simp] theorem portPut_bus (n : Nat) (x : Port) : (portPut n x s).bus = s.bus := rfl

/-! ### headPut -/

@[simp] theorem headPut_pending (n : Nat) (x : Head) : (headPut n x s).pending = s.pending := rfl
@[simp] theorem headPut_sys (n : Nat) (x : Head) : (headPut n x s).sys = s.sys := rfl
@[simp] theorem headPut_boxes (n : Nat) (x : Head) : (headPut n x s).boxes = s.boxes := rfl
@[simp] theorem headPut_exec (n : Nat) (x : Head) : (headPut n x s).exec = s.exec := rfl
@[simp] theorem headPut_lastServed (n : Nat) (x : Head) : (headPut n x s).lastServed = s.lastServed := rfl
@[simp] theorem headPut_hostMem (n : Nat) (x : Head) : (headPut n x s).hostMem = s.hostMem := rfl
@[simp] theorem headPut_dmaFaults (n : Nat) (x : Head) : (headPut n x s).dmaFaults = s.dmaFaults := rfl
@[simp] theorem headPut_parts (n : Nat) (x : Head) : (headPut n x s).parts = s.parts := rfl
@[simp] theorem headPut_grants (n : Nat) (x : Head) : (headPut n x s).grants = s.grants := rfl
@[simp] theorem headPut_nextIndex (n : Nat) (x : Head) : (headPut n x s).nextIndex = s.nextIndex := rfl
@[simp] theorem headPut_sources (n : Nat) (x : Head) : (headPut n x s).sources = s.sources := rfl
@[simp] theorem headPut_objects (n : Nat) (x : Head) : (headPut n x s).objects = s.objects := rfl
@[simp] theorem headPut_slotGen (n : Nat) (x : Head) : (headPut n x s).slotGen = s.slotGen := rfl
@[simp] theorem headPut_orphans (n : Nat) (x : Head) : (headPut n x s).orphans = s.orphans := rfl
@[simp] theorem headPut_order (n : Nat) (x : Head) : (headPut n x s).order = s.order := rfl
@[simp] theorem headPut_uploads (n : Nat) (x : Head) : (headPut n x s).uploads = s.uploads := rfl
@[simp] theorem headPut_decodes (n : Nat) (x : Head) : (headPut n x s).decodes = s.decodes := rfl
@[simp] theorem headPut_shifts (n : Nat) (x : Head) : (headPut n x s).shifts = s.shifts := rfl
@[simp] theorem headPut_procs (n : Nat) (x : Head) : (headPut n x s).procs = s.procs := rfl
@[simp] theorem headPut_engines (n : Nat) (x : Head) : (headPut n x s).engines = s.engines := rfl
@[simp] theorem headPut_routes (n : Nat) (x : Head) : (headPut n x s).routes = s.routes := rfl
@[simp] theorem headPut_dests (n : Nat) (x : Head) : (headPut n x s).dests = s.dests := rfl
@[simp] theorem headPut_heads (n : Nat) (x : Head) : (headPut n x s).heads = tset s.heads n x := rfl
@[simp] theorem headPut_audio (n : Nat) (x : Head) : (headPut n x s).audio = s.audio := rfl
@[simp] theorem headPut_time (n : Nat) (x : Head) : (headPut n x s).time = s.time := rfl
@[simp] theorem headPut_ports (n : Nat) (x : Head) : (headPut n x s).ports = s.ports := rfl
@[simp] theorem headPut_eth (n : Nat) (x : Head) : (headPut n x s).eth = s.eth := rfl
@[simp] theorem headPut_pool (n : Nat) (x : Head) : (headPut n x s).pool = s.pool := rfl
@[simp] theorem headPut_vault (n : Nat) (x : Head) : (headPut n x s).vault = s.vault := rfl
@[simp] theorem headPut_domino (n : Nat) (x : Head) : (headPut n x s).domino = s.domino := rfl
@[simp] theorem headPut_events (n : Nat) (x : Head) : (headPut n x s).events = s.events := rfl
@[simp] theorem headPut_persist (n : Nat) (x : Head) : (headPut n x s).persist = s.persist := rfl
@[simp] theorem headPut_health (n : Nat) (x : Head) : (headPut n x s).health = s.health := rfl
@[simp] theorem headPut_flash (n : Nat) (x : Head) : (headPut n x s).flash = s.flash := rfl
@[simp] theorem headPut_lastClose (n : Nat) (x : Head) : (headPut n x s).lastClose = s.lastClose := rfl
@[simp] theorem headPut_closes (n : Nat) (x : Head) : (headPut n x s).closes = s.closes := rfl
@[simp] theorem headPut_free (n : Nat) (x : Head) : (headPut n x s).free = s.free := rfl
@[simp] theorem headPut_out (n : Nat) (x : Head) : (headPut n x s).out = s.out := rfl
@[simp] theorem headPut_bus (n : Nat) (x : Head) : (headPut n x s).bus = s.bus := rfl

/-! ### destPut -/

@[simp] theorem destPut_pending (n : Nat) (x : Dest) : (destPut n x s).pending = s.pending := rfl
@[simp] theorem destPut_sys (n : Nat) (x : Dest) : (destPut n x s).sys = s.sys := rfl
@[simp] theorem destPut_boxes (n : Nat) (x : Dest) : (destPut n x s).boxes = s.boxes := rfl
@[simp] theorem destPut_exec (n : Nat) (x : Dest) : (destPut n x s).exec = s.exec := rfl
@[simp] theorem destPut_lastServed (n : Nat) (x : Dest) : (destPut n x s).lastServed = s.lastServed := rfl
@[simp] theorem destPut_hostMem (n : Nat) (x : Dest) : (destPut n x s).hostMem = s.hostMem := rfl
@[simp] theorem destPut_dmaFaults (n : Nat) (x : Dest) : (destPut n x s).dmaFaults = s.dmaFaults := rfl
@[simp] theorem destPut_parts (n : Nat) (x : Dest) : (destPut n x s).parts = s.parts := rfl
@[simp] theorem destPut_grants (n : Nat) (x : Dest) : (destPut n x s).grants = s.grants := rfl
@[simp] theorem destPut_nextIndex (n : Nat) (x : Dest) : (destPut n x s).nextIndex = s.nextIndex := rfl
@[simp] theorem destPut_sources (n : Nat) (x : Dest) : (destPut n x s).sources = s.sources := rfl
@[simp] theorem destPut_objects (n : Nat) (x : Dest) : (destPut n x s).objects = s.objects := rfl
@[simp] theorem destPut_slotGen (n : Nat) (x : Dest) : (destPut n x s).slotGen = s.slotGen := rfl
@[simp] theorem destPut_orphans (n : Nat) (x : Dest) : (destPut n x s).orphans = s.orphans := rfl
@[simp] theorem destPut_order (n : Nat) (x : Dest) : (destPut n x s).order = s.order := rfl
@[simp] theorem destPut_uploads (n : Nat) (x : Dest) : (destPut n x s).uploads = s.uploads := rfl
@[simp] theorem destPut_decodes (n : Nat) (x : Dest) : (destPut n x s).decodes = s.decodes := rfl
@[simp] theorem destPut_shifts (n : Nat) (x : Dest) : (destPut n x s).shifts = s.shifts := rfl
@[simp] theorem destPut_procs (n : Nat) (x : Dest) : (destPut n x s).procs = s.procs := rfl
@[simp] theorem destPut_engines (n : Nat) (x : Dest) : (destPut n x s).engines = s.engines := rfl
@[simp] theorem destPut_routes (n : Nat) (x : Dest) : (destPut n x s).routes = s.routes := rfl
@[simp] theorem destPut_dests (n : Nat) (x : Dest) : (destPut n x s).dests = tset s.dests n x := rfl
@[simp] theorem destPut_heads (n : Nat) (x : Dest) : (destPut n x s).heads = s.heads := rfl
@[simp] theorem destPut_audio (n : Nat) (x : Dest) : (destPut n x s).audio = s.audio := rfl
@[simp] theorem destPut_time (n : Nat) (x : Dest) : (destPut n x s).time = s.time := rfl
@[simp] theorem destPut_ports (n : Nat) (x : Dest) : (destPut n x s).ports = s.ports := rfl
@[simp] theorem destPut_eth (n : Nat) (x : Dest) : (destPut n x s).eth = s.eth := rfl
@[simp] theorem destPut_pool (n : Nat) (x : Dest) : (destPut n x s).pool = s.pool := rfl
@[simp] theorem destPut_vault (n : Nat) (x : Dest) : (destPut n x s).vault = s.vault := rfl
@[simp] theorem destPut_domino (n : Nat) (x : Dest) : (destPut n x s).domino = s.domino := rfl
@[simp] theorem destPut_events (n : Nat) (x : Dest) : (destPut n x s).events = s.events := rfl
@[simp] theorem destPut_persist (n : Nat) (x : Dest) : (destPut n x s).persist = s.persist := rfl
@[simp] theorem destPut_health (n : Nat) (x : Dest) : (destPut n x s).health = s.health := rfl
@[simp] theorem destPut_flash (n : Nat) (x : Dest) : (destPut n x s).flash = s.flash := rfl
@[simp] theorem destPut_lastClose (n : Nat) (x : Dest) : (destPut n x s).lastClose = s.lastClose := rfl
@[simp] theorem destPut_closes (n : Nat) (x : Dest) : (destPut n x s).closes = s.closes := rfl
@[simp] theorem destPut_free (n : Nat) (x : Dest) : (destPut n x s).free = s.free := rfl
@[simp] theorem destPut_out (n : Nat) (x : Dest) : (destPut n x s).out = s.out := rfl
@[simp] theorem destPut_bus (n : Nat) (x : Dest) : (destPut n x s).bus = s.bus := rfl

end Sys2Proof.Laws
end

