-- ==== Sys2Proof/Laws/Ports.lean ====
section
/-! SUPPORT. Blocks and messages that a port takes reach their meaning, and those of a port in OFF have no effect; a
command whose head, layer, port or stream fits goes on. -/

namespace Sys2Proof.Laws

open Sys2Proof Sys2Proof.Machine Sys2Proof.Safety

theorem withCtl_hears {s : State} {p : Nat} {b : CtlBlock} {t : Nat} {k : Nat → State} (h : Hears s p b t) :
    withCtl p b s k = k t := by
  obtain ⟨h1, h2, h3, h4, h5, h6⟩ := h
  unfold withCtl
  dsimp only
  rw [if_neg (by simp [h1, h2]), if_neg (by simp [h3]), if_neg (by simp [h3, h4]), if_neg (by simp [h5]), h6]

theorem withCtl_off {s : State} {p : Nat} {b : CtlBlock} {k : Nat → State} (h : (portGet s p).mode = 0) :
    withCtl p b s k = s := by
  unfold withCtl
  dsimp only
  rw [if_pos (by simp [h])]

theorem withMsg_hears {s : State} {p : Nat} {m : BackMsg} {k : State → State} (h : HearsMsg s p m) :
    withMsg p m s k = k (heardMsg p s) := by
  obtain ⟨h1, h2, h3⟩ := h
  unfold withMsg
  dsimp only
  rw [if_neg (by simp [h1, h2, h3])]
  rfl

theorem withMsg_off {s : State} {p : Nat} {m : BackMsg} {k : State → State} (h : (portGet s p).mode = 0) :
    withMsg p m s k = s := by
  unfold withMsg
  dsimp only
  rw [if_pos (by simp [h])]

/-- A port or a head that has been set reads as it was set. -/
@[simp] theorem portGet_portPut (p : Nat) (x : Port) (s : State) : portGet (portPut p x s) p = x := by
  simp [portGet, portPut]

@[simp] theorem headGet_headPut (h : Nat) (x : Head) (s : State) : headGet (headPut h x s) h = x := by
  simp [headGet, headPut]

/-- Counting data blocks moves two counters of the port and nothing else. -/
theorem countData_eq (p : Nat) (b : CtlBlock) (d : List CtlBlock) (s : State) : countData p b d s = s ∨
    ∃ e l, countData p b d s = portPut p { portGet s p with headerErrs := e, dropped := l } s := by
  unfold countData
  dsimp only
  split
  · exact .inl rfl
  · generalize (if (portGet s p).mode = 2 then 0 else _) = l
    split
    · exact .inl rfl
    · exact .inr ⟨_, _, rfl⟩

@[simp] theorem countData_nil (p : Nat) (b : CtlBlock) (s : State) : countData p b [] s = s := by simp [countData]

/-- So a stream block belongs to the same source after the count as before it. -/
theorem carries_count {s : State} {p t : Nat} {b : CtlBlock} {h : Handle} (d : List CtlBlock) (hc : Carries s p b t h) :
    Carries (countData p b d s) p b t h := by
  obtain e | ⟨_, _, e⟩ := countData_eq p b d s
  · rwa [e]
  · rw [e]
    obtain ⟨⟨h1, h2⟩, h3⟩ := hc
    exact ⟨⟨by simpa using h1, by simpa using h2⟩, by simpa [streamOn] using h3⟩

/-- And the data blocks are the same. -/
theorem dataOf_count (p : Nat) (b : CtlBlock) (d ds : List CtlBlock) (s : State) :
    dataOf (countData p b d s) p b ds = dataOf s p b ds := by
  obtain e | ⟨_, _, e⟩ := countData_eq p b d s <;> simp [e, dataOf, streamOn]

theorem withStreamBlock_carries {s : State} {p : Fin 32} {b : CtlBlock} {t : Nat} {h : Handle} {d : List CtlBlock}
    {act : List (BitVec 128) → Handle → State → State} (hc : Carries s p.val b t h) :
    withStreamBlock p t b d act s = act (dataOf s p.val b d) h (countData p.val b d s) := by
  obtain ⟨h1, h2, h3, h4, h5⟩ := carries_count d hc
  unfold withStreamBlock
  dsimp only
  rw [withCtl_hears h1, if_neg (by simp [h2, h3]), if_neg h4, h5, dataOf_count]

theorem withDomino_hears {s : State} {r t : Nat} {b : CtlBlock} {k : State → State} (h : RingHears s r b t) :
    withDomino r t b s k = k s := by
  obtain ⟨h1, h2, h3⟩ := h
  unfold withDomino
  rw [if_neg (by simp [h1]), withCtl_hears h2, if_pos ⟨rfl, h3⟩]

theorem withPort_has {c : Ctx} {s : State} {p : Nat} {k : Nat → CmdOut} (h : HasPort c s p) : withPort c s k = k p := by
  obtain ⟨rfl, h⟩ := h
  exact withPort_held h

theorem withHead_has {c : Ctx} {s : State} {h : Nat} {half : Bool} {k : CmdOut} (hh : HasHead c s h half) :
    withHead c s h half k = k := withHead_held hh.1 hh.2

theorem withLayer_has {c : Ctx} {s : State} {k : CmdOut} (hh : HasLayer c s) : withLayer c s k = k := by
  obtain ⟨h1, h2, h3, h4⟩ := hh
  exact withLayer_held h1 h2 h3 (h4.resolve_right Bool.false_ne_true)

theorem createStream_fits {c : Ctx} {k : SrcKind} {f : Format} {u : Nat} {s : State} (h : StreamFits c k f u s) :
    createStream c k f s = .done .ok (madeWords u (makeSource c.page k f u s)) (makeSource c.page k f u s).2 := by
  obtain ⟨h1, h2, h3, h4⟩ := h
  have hu : (if f.ic = 15 then chooseIc s f else if icStreams s f.ic < 32 then some f.ic else none) = some u := by
    split at h2
    · rw [if_pos (by assumption), h2]
    · rw [if_neg (by assumption), if_pos h2.1, h2.2]
  unfold createStream
  rw [if_neg (by omega)]
  dsimp only
  rw [hu]
  dsimp only
  rw [if_neg (by omega), admitted_fits h4]
  rfl

/-- The opcode rows' form, where a descriptor has its twelve body words. -/
theorem issues {i : Fin 16 → Desc → Instr} {sp : OpSpec}
    (h : ∀ p d s, exec (i p d) s = if d.Wf then .next (issue sp p d s) else .fault .illFormed) :
    ∀ p d s, d.Wf → exec (i p d) s = .next (issue sp p d s) := fun p d s hd => by rw [h, if_pos hd]

theorem rowStages_of_run {i : Fin 16 → Desc → Instr} {sp : OpSpec} {pre : Ctx → State → Prop} {f : Ctx → Staged → Bool}
    {item : Ctx → State → Staged} (hi : ∀ p d s, d.Wf → exec (i p d) s = .next (issue sp p d s))
    (h : ∀ c s, pre c s → sp.run c s = restage c (f c) (item c s) (fun n => [word n]) s) : RowStages i sp pre f item := by
  refine row_of_run hi ?_
  rintro c s ⟨h1, h2⟩
  rw [h c s h1, restage_room h2]

end Sys2Proof.Laws
end

