-- ==== Sys2Proof/Laws/Words.lean ====
section
/-! SUPPORT. Fields of words read back: a half word, a 64-bit quantity in two words, and the words of a descriptor
(R4, R36). -/

namespace Sys2Proof.Laws

open Sys2Proof Sys2Proof.Machine

/-- Two half words as a number. -/
theorem pack_halves (a b : Nat) :
    (pack [(a, 15, 0), (b, 31, 16)]).toNat = b % 65536 * 65536 + a % 65536 := by
  have ha : a % 65536 < 2 ^ 16 := Nat.mod_lt _ (by decide)
  have h : (b % 65536) <<< 16 ||| a % 65536 = (b % 65536) <<< 16 + a % 65536 := (Nat.shiftLeft_add_eq_or_of_lt ha _).symm
  have e : (pack [(a, 15, 0), (b, 31, 16)]).toNat = a % 65536 ||| (b % 65536) <<< 16 := by
    have h1 : a % 65536 < 4294967296 := by omega
    have h2 : (b % 65536) <<< 16 < 4294967296 := by rw [Nat.shiftLeft_eq]; omega
    simp [pack, word, Nat.mod_eq_of_lt h1, Nat.mod_eq_of_lt h2]
  rw [e, Nat.lor_comm, h, Nat.shiftLeft_eq]

/-- The low half of a word of two half words. -/
theorem bits_lo_pack (a b : Nat) : bits (pack [(a, 15, 0), (b, 31, 16)]) 15 0 = a % 65536 := by
  simp only [bits, pack_halves]
  rw [Nat.shiftRight_zero]
  omega

/-- The high half of a word of two half words. -/
theorem bits_hi_pack (a b : Nat) : bits (pack [(a, 15, 0), (b, 31, 16)]) 31 16 = b % 65536 := by
  simp only [bits, pack_halves]
  rw [Nat.shiftRight_eq_div_pow]
  omega

/-- A 64-bit quantity in two words. -/
theorem wide_words (n : Nat) : wide (word n) (word (n / 2 ^ 32)) = n % 2 ^ 64 := by
  simp only [wide, word, BitVec.toNat_ofNat]
  omega

/-- Word 1 of a descriptor as a number. -/
theorem desc_word1_toNat (a : BitVec 16) (b : Bool) (c : BitVec 15) :
    (pack [(a.toNat, 15, 0), (b1 b, 16, 16), (c.toNat, 31, 17)]).toNat = c.toNat * 131072 + (b1 b * 65536 + a.toNat) := by
  have h0 := a.isLt; have h1 := c.isLt
  have hb : b1 b < 2 := by cases b <;> decide
  have e1 : b1 b <<< 16 ||| a.toNat = b1 b <<< 16 + a.toNat := (Nat.shiftLeft_add_eq_or_of_lt h0 _).symm
  have e2 : c.toNat <<< 17 ||| (b1 b <<< 16 + a.toNat) = c.toNat <<< 17 + (b1 b <<< 16 + a.toNat) :=
    (Nat.shiftLeft_add_eq_or_of_lt (by rw [Nat.shiftLeft_eq]; omega) _).symm
  have l : (pack [(a.toNat, 15, 0), (b1 b, 16, 16), (c.toNat, 31, 17)]).toNat = a.toNat ||| (b1 b <<< 16 ||| c.toNat <<< 17) := by
    have h2 : b1 b <<< 16 < 4294967296 := by rw [Nat.shiftLeft_eq]; omega
    have h3 : c.toNat <<< 17 < 4294967296 := by rw [Nat.shiftLeft_eq]; omega
    simp [pack, word, Nat.mod_eq_of_lt h0, Nat.mod_eq_of_lt h1, Nat.mod_eq_of_lt hb, Nat.mod_eq_of_lt h2, Nat.mod_eq_of_lt h3]
    rw [Nat.mod_eq_of_lt (show a.toNat < 4294967296 by omega)]
  rw [l, Nat.lor_comm, Nat.lor_comm (b1 b <<< 16), Nat.lor_assoc, e1, e2, Nat.shiftLeft_eq, Nat.shiftLeft_eq]

@[simp] theorem length_cplWords (st : Status) (tag : BitVec 16) (e : Word) (r : List Word) :
    (cplWords st tag e r).length = 8 := by simp [cplWords]

@[simp] theorem length_descWords (op : Nat) (d : Desc) : (descWords op d).length = 16 := by simp [descWords]

@[simp] theorem length_descOf_body (ws : List Word) : (descOf ws).2.body.length = 12 := by simp [descOf]

/-- Words 4–15 of a descriptor are its body. -/
theorem descWords_body (op : Nat) (d : Desc) (i : Nat) (h : i < 12) : wd (descWords op d) (4 + i) = wd d.body i := by
  simp only [wd, descWords]
  rw [List.getD_append_right _ _ _ _ (by simp)]
  simp [h, wd]

end Sys2Proof.Laws
end

