-- ==== Sys2Proof/Tests/Slice0.lean ====
section
/-! SUPPORT. Tests. For every statement with hypotheses a theorem `meets_<Statement>` shows a concrete state and operands
that meet them, case by case: the statement stands there only so that its hypotheses are read off it, and nothing is drawn
from it. Then ill-formed terms that the check refuses, and single steps on a small device with results taken from the
manual's tables and rules. -/

open Sys2Proof Sys2Proof.Machine Sys2Proof.Safety

namespace Sys2Proof.Tests

/- One theorem after another: the many evaluations of this file at once would need several gigabytes more. -/
set_option Elab.async false

/-! ### Reading the hypotheses off a statement -/

/-- The hypotheses of an implication that a statement makes. -/
abbrev opens {P Q : Prop} (_ : P → Q) : Prop := P
abbrev opens2 {P Q R : Prop} (_ : P → Q → R) : Prop := P ∧ Q
abbrev opens3 {P Q R T : Prop} (_ : P → Q → R → T) : Prop := P ∧ Q ∧ R
abbrev opens4 {P Q R T U : Prop} (_ : P → Q → R → T → U) : Prop := P ∧ Q ∧ R ∧ T
abbrev opens5 {P Q R T U V : Prop} (_ : P → Q → R → T → U → V) : Prop := P ∧ Q ∧ R ∧ T ∧ U
abbrev opens6 {P Q R T U V X : Prop} (_ : P → Q → R → T → U → V → X) : Prop := P ∧ Q ∧ R ∧ T ∧ U ∧ V
abbrev opens7 {P Q R T U V X Y : Prop} (_ : P → Q → R → T → U → V → X → Y) : Prop := P ∧ Q ∧ R ∧ T ∧ U ∧ V ∧ X
abbrev opens8 {P Q R T U V X Y Z : Prop} (_ : P → Q → R → T → U → V → X → Y → Z) : Prop :=
  P ∧ Q ∧ R ∧ T ∧ U ∧ V ∧ X ∧ Y
abbrev opens9 {P Q R T U V X Y Z W : Prop} (_ : P → Q → R → T → U → V → X → Y → Z → W) : Prop :=
  P ∧ Q ∧ R ∧ T ∧ U ∧ V ∧ X ∧ Y ∧ Z
abbrev opens10 {P Q R T U V X Y Z W O : Prop} (_ : P → Q → R → T → U → V → X → Y → Z → W → O) : Prop :=
  P ∧ Q ∧ R ∧ T ∧ U ∧ V ∧ X ∧ Y ∧ Z ∧ W

/-- The same, where the statement names a state that the hypotheses after these define. -/
abbrev opens3v {α : Type} {P Q R : Prop} {Y : α → Prop} (_ : ∀ a : α, P → Q → R → Y a) : Prop := P ∧ Q ∧ R
abbrev opens7v {α : Type} {P Q R T U V X : Prop} {Y : α → Prop}
    (_ : ∀ a : α, P → Q → R → T → U → V → X → Y a) : Prop := P ∧ Q ∧ R ∧ T ∧ U ∧ V ∧ X

/-- A descriptor that page p may have taken, that passes the checks of R38, and whose section is in the case `pre`. -/
def Meets (sp : OpSpec) (pre : Ctx → State → Prop) (p : Fin 16) (d : Desc) (s : State) : Prop :=
  Admitted sp p d s ∧ pre (ctxOf sp p d s) (taken p d s)

abbrev runs {i : Fin 16 → Desc → Instr} {sp : OpSpec} {pre : Ctx → State → Prop} {st : Status}
    {res : Ctx → State → List Word} {post : Ctx → State → State} (_ : Row i sp pre st res post) (p : Fin 16) (d : Desc)
    (s : State) : Prop := Meets sp pre p d s

abbrev turns {i : Fin 16 → Desc → Instr} {sp : OpSpec} {pre : Ctx → State → Prop} {st : Status}
    (_ : RowRefuses i sp pre st) (p : Fin 16) (d : Desc) (s : State) : Prop := Meets sp pre p d s

abbrev waits {i : Fin 16 → Desc → Instr} {sp : OpSpec} {pre : Ctx → State → Prop} {w : Ctx → State → Waiting}
    {post : Ctx → State → State} (_ : RowWaits i sp pre w post) (p : Fin 16) (d : Desc) (s : State) : Prop :=
  Meets sp pre p d s

abbrev stages {i : Fin 16 → Desc → Instr} {sp : OpSpec} {pre : Ctx → State → Prop} {f : Ctx → Staged → Bool}
    {item : Ctx → State → Staged} (_ : RowStages i sp pre f item) (p : Fin 16) (d : Desc) (s : State) : Prop :=
  Meets sp (fun c s => pre c s ∧ HasRoom c.page (f c) s) p d s

theorem meets {sp : OpSpec} {pre : Ctx → State → Prop} {p : Fin 16} {d : Desc} {s : State}
    (h : (decide d.Wf && canTake s p.val && ((box s p.val).window.find? (fun e => decide (e.tag = d.tag))).isNone
      && decide (s.sys.phase ≠ .romRecovery)
      && (checkDesc p.val sp.op (some sp) d (fetchBulk (some sp) d s) (bodyOf sp d s) (box s p.val)).isNone) = true)
    (hp : pre (ctxOf sp p d s) (taken p d s)) : Meets sp pre p d s := by
  simp only [Bool.and_eq_true, decide_eq_true_eq, Option.isNone_iff_eq_none] at h
  exact ⟨⟨⟨h.1.1.1.1, h.1.1.1.2, h.1.1.2⟩, fun q => absurd q h.1.2, h.2⟩, hp⟩

theorem meetsb {sp : OpSpec} {pre : Ctx → State → Prop} {p : Fin 16} {d : Desc} {s : State}
    [hd : Decidable (pre (ctxOf sp p d s) (taken p d s))]
    (h : (decide d.Wf && canTake s p.val && ((box s p.val).window.find? (fun e => decide (e.tag = d.tag))).isNone
      && decide (s.sys.phase ≠ .romRecovery)
      && (checkDesc p.val sp.op (some sp) d (fetchBulk (some sp) d s) (bodyOf sp d s) (box s p.val)).isNone
      && @decide _ hd) = true) : Meets sp pre p d s :=
  meets (Bool.and_eq_true_iff.1 h).1 (of_decide_eq_true (Bool.and_eq_true_iff.1 h).2)

theorem sure {P : Prop} [d : Decidable P] (h : decide P = true) : P := of_decide_eq_true h

/-! ### A small device -/

def ready : Mailbox := { active := true, ready := true }

/-- Two partitions, ready, nothing made. -/
def base : State := { State.reset with
  boxes := [(0, ready), (1, ready)]
  sys := { State.reset.sys with phase := .ready, fwReady := true, porstLow := false, pcieUp := true, ptimeRuns := true, ptime := 100000000 } }

/-- A descriptor with tag 7, n bytes of body and these first body words. -/
def cmd (n : Nat) (ws : List Word) : Desc :=
  { tag := 7, bodyLen := BitVec.ofNat 16 n, body := (List.range 12).map (wd ws) }

/-- The device with one command waiting in page 0's ring. -/
def queued (op : Nat) (d : Desc) : State := { base with
  boxes := [(0, { ready with
    cmdTail := 1, cmdRing := (List.range 16).map (fun i => (i, wd (descWords op d) i)) }), (1, ready)] }

/-- A descriptor with tag 7 whose body is a block of n bytes at address 4,096 of host memory, and that block there. -/
def bulk (n : Nat) : Desc := { tag := 7, bodyLen := 12, bulk := true, body := (List.range 12).map (wd [4096, 0, word n]) }
def inHost (ws : List Word) (s : State) : State := { s with hostMem := memWrite 0 [] 4096 (bytesOf ws) }

/-- A block in host memory is fetched. -/
theorem fetched {sp : OpSpec} {s : State} {ws : List Word} {n : Nat} (hn : (bytesOf ws).length = n)
    (hs : s.sys.pcieUp = true ∧ s.dmaFaults = []) (hg : bulkGood sp (bulk n) = true) (ha : bulkAddr (bulk n) = 4096)
    (hl : bulkLen (bulk n) = n) : fetchBulk (some sp) (bulk n) (inHost ws s) = some (some (bytesOf ws)) := by
  have hr : dmaReach (inHost ws s) 4096 n = n := by
    have hb : ∀ i, dmaBad (inHost ws s) i = false := fun i => by simp [dmaBad, inHost, hs]
    have ht : (List.range n).takeWhile (fun i => !dmaBad (inHost ws s) (4096 + i)) = List.range n := by
      rw [List.takeWhile_eq_self_iff]; simp [hb]
    rw [dmaReach, ht, List.length_range]
  subst hn
  simp only [fetchBulk, show (bulk (bytesOf ws).length).bulk = true from rfl, hg, Bool.and_self, if_true, ha, hl, hostRead, hr]
  rw [if_neg (by omega)]
  exact congrArg (fun x => some (some x)) (Laws.memRead_memWrite rfl)

/-- A fetched descriptor that passes the checks of R38, in the case `pre`. -/
theorem meets_block {sp : OpSpec} {pre : Ctx → State → Prop} {s : State} {ws : List Word} {n : Nat}
    (hf : fetchBulk (some sp) (bulk n) s = some (some (bytesOf ws))) (hw : fillBody sp.dflt (bytesOf ws).length (wordsOf (bytesOf ws)) = ws)
    (ht : canTake s 0 = true ∧ (box s 0).window = [] ∧ s.sys.phase ≠ .romRecovery)
    (hc : checkDesc 0 sp.op (some sp) (bulk n) (some (some (bytesOf ws))) ws (box s 0) = none)
    (hp : pre { page := 0, tag := 7, body := ws, len := (bytesOf ws).length, bulk := true } (taken 0 (bulk n) s)) :
    Meets sp pre 0 (bulk n) s := by
  have hw' : bodyWords (some sp) (bulk n) (some (some (bytesOf ws))) = (ws, (bytesOf ws).length) :=
    congrArg (fun x => (x, (bytesOf ws).length)) hw
  have hb : bodyOf sp (bulk n) s = ws := by rw [bodyOf, hf, hw']
  have hx : ctxOf sp 0 (bulk n) s = { page := 0, tag := 7, body := ws, len := (bytesOf ws).length, bulk := true } := by
    rw [ctxOf, hb, hf, hw']; rfl
  refine ⟨⟨⟨rfl, ht.1, ?_⟩, fun q => absurd q ht.2.2, ?_⟩, ?_⟩
  · show (box s 0).window.find? _ = none
    rw [ht.2.1]; rfl
  · rw [hf, hb]; exact hc
  · rw [hx]; exact hp

theorem none_of {α : Type} {P : α → Prop} : ∀ e ∈ ([] : List α), P e := fun _ he => absurd he List.not_mem_nil
def replays (ws : List Word) : State := { base with boxes := [(0, { ready with window := [⟨7, 0, ws⟩] })] }

theorem meets_StepRunsFront (h : Obligations.StepRunsFront) :
    opens (h { base with pending := [.commandTake] } .commandTake []) :=
  sure rfl

theorem meets_StepIdles (h : Obligations.StepIdles) :
    opens (h.1 State.reset) ∧ opens (h.2.1 State.reset) ∧
    opens8 (h.2.2 { base with sys := { base.sys with perstDue := some 100000000 } } 100000000) :=
  ⟨sure rfl, ⟨none_of, by decide, none_of, none_of, .inl rfl, fun _ ht => (nomatch ht), fun _ ht => (nomatch ht)⟩,
   ⟨rfl, sure rfl, rfl, by decide, none_of, none_of, rfl, rfl⟩⟩

theorem meets_CommandsAnswer (h : Obligations.CommandsAnswer) :
    opens (h .commandTake base).1 ∧ opens (h (.echo 0 { body := [] }) base).2 :=
  ⟨sure rfl, sure rfl⟩

theorem meets_DescriptorRoundTrip (h : Obligations.DescriptorRoundTrip) :
    opens2 (h (.echo 0 (cmd 24 [1])) 0 0x0104 (cmd 24 [1])) :=
  sure rfl

theorem meets_DescriptorWordsBack (h : Obligations.DescriptorWordsBack) :
    opens (h (List.replicate 16 5)) :=
  sure rfl

theorem meets_OpcodeNamesRow (h : Obligations.OpcodeNamesRow) :
    opens (h (.echo 0 (cmd 24 [1])) 0 0x0104 (cmd 24 [1])) :=
  sure rfl

theorem meets_TakeRunsRow (h : Obligations.TakeRunsRow) :
    opens3 (h.1 (queued 0x0104 (cmd 24 [1])) (.echo 0 (cmd 24 [1])) 0 0x0104 (cmd 24 [1])) ∧
    opens2 (h.2.1 (queued 0x0FFF (cmd 24 [1])) 0 0x0FFF (cmd 24 [1])) ∧
    opens3 (h.2.2 (.echo 2 (cmd 24 [1])) 2 0x0104 (cmd 24 [1]) base) :=
  ⟨sure rfl, sure rfl, sure rfl⟩

theorem meets_UnknownOpcode (h : Obligations.UnknownOpcode) :
    opens6 (h (queued 0x0FFF (cmd 0 [])) 0 0x0FFF (cmd 0 [])) :=
  ⟨sure rfl, sure rfl, rfl, rfl, rfl, rfl⟩

theorem meets_RoundRobin (h : Obligations.RoundRobin) :
    opens (h base) ∧ opens ((h (queued 0x0104 (cmd 24 [1])) (by decide)).1 0) ∧ opens (h base (by decide)).2 :=
  ⟨sure rfl, sure rfl, sure rfl⟩

theorem meets_CheckOrder (h : Obligations.CheckOrder) :
    opens (h specEcho 1 { cmd 24 [] with rsvd3 := 1 } none [] {}).1 ∧
    opens2 (h specCreatePartition 1 (cmd 4 []) none [] {}).2.1 ∧ opens3 (h specEcho 1 (cmd 28 []) none [] {}).2.2.1 ∧
    opens4 (h specFlashWrite 0 { cmd 12 [0, 0, 8] with bulk := true } (some none) [] {}).2.2.2.1 ∧
    opens5 (h specReset 0 (cmd 4 [0x10]) none [0x10] {}).2.2.2.2.1 ∧
    opens6 (h specEcho 0 { cmd 24 [] with epoch := 1 } none [] {}).2.2.2.2.2.1 ∧
    opens6 (h specEcho 0 (cmd 24 []) none [] {}).2.2.2.2.2.2 :=
  ⟨sure rfl, sure rfl, sure rfl, sure rfl, sure rfl, sure rfl, sure rfl⟩

theorem meets_FailedCheckCompletes (h : Obligations.FailedCheckCompletes) :
    opens4 (h (.echo 0 (cmd 28 [])) 0 0x0104 (cmd 28 []) base specEcho .length 4) :=
  ⟨rfl, rfl, ⟨rfl, rfl, rfl⟩, sure rfl⟩

theorem meets_SectionRuns (h : Obligations.SectionRuns) :
    opens3 (h (.echo 0 (cmd 24 [])) 0 0x0104 (cmd 24 []) base specEcho) :=
  ⟨rfl, rfl, (meets rfl trivial : Meets specEcho Always 0 _ _).1⟩

theorem meets_RefusedChangesNothing (h : Obligations.RefusedChangesNothing) :
    opens4 (h (.echo 0 (cmd 28 [])) 0 0x0104 (cmd 28 []) base specEcho) :=
  ⟨rfl, rfl, ⟨rfl, rfl, rfl⟩, .inl ⟨.length, 4, sure rfl⟩⟩

theorem meets_CompletionWords (h : Obligations.CompletionWords) :
    opens (h .ok 1 0 []) :=
  sure rfl

theorem meets_ReplayFromWindow (h : Obligations.ReplayFromWindow) :
    opens4 (h (.echo 0 (cmd 24 [])) 0 0x0104 (cmd 24 []) (replays [0, 0]) specEcho) ∧
    opens ((h (.echo 0 (cmd 24 [])) 0 0x0104 (cmd 24 []) (replays [0, 0]) specEcho rfl rfl rfl rfl).1 ⟨7, 0, [0, 0]⟩) ∧
    opens (h (.echo 0 (cmd 24 [])) 0 0x0104 (cmd 24 []) base specEcho rfl rfl rfl rfl).2 :=
  ⟨⟨rfl, rfl, rfl, rfl⟩, sure rfl, sure rfl⟩

theorem meets_NotificationPosted (h : Obligations.NotificationPosted) :
    opens (h 0 1 [] base) ∧ opens (h 0 1 [] base rfl).1 ∧
    opens (h 0 1 [] { base with boxes := [(0, { ready with ntfTail := 511 })] } rfl).2.1 :=
  ⟨sure rfl, sure rfl, sure rfl⟩

theorem meets_NotificationWords (h : Obligations.NotificationWords) :
    opens (h 2 1 [] base).1 ∧ opens2 (h 0 65535 [1, 2, 3, 4] base).2 :=
  ⟨sure rfl, sure rfl⟩

theorem meets_EpochOrder (h : Obligations.EpochOrder) :
    opens (h.2.2.1 0xFFFFFFFF 0x7FFFFFFE) ∧ turns h.2.2.2 0 (cmd 4 []) base :=
  ⟨sure rfl, meetsb rfl⟩

theorem meets_HandleChecks (h : Obligations.HandleChecks) :
    opens2 (h 0 base 0 1 none (fun _ => refuse .state)) ∧
    opens (h 0 base 0 1 none (fun _ => refuse .state) (by decide) (by decide)).1 ∧
    opens2 (h 0 base (handleOf 0 9 1) 1 none (fun _ => refuse .state) (by decide) (by decide)).2.1 ∧
    opens3 (h 1 base (handleOf 0 1 1) 1 none (fun _ => refuse .state) (by decide) (by decide)).2.2.1 ∧
    opens4 (h 0 base (handleOf 1 1 1) 1 none (fun _ => refuse .state) (by decide) (by decide)).2.2.2.1 :=
  ⟨sure rfl, sure rfl, sure rfl, sure rfl, sure rfl⟩

/-- A handle of partition 0. -/
def hd (type i : Nat) : Handle := handleOf 0 type i

/-- A descriptor whose epoch is 1. -/
def staged1 (n : Nat) (ws : List Word) : Desc := { cmd n ws with epoch := 1 }

/-- A command under execution on page 0. -/
def executing (w : Waiting) : Executing :=
  { page := 0, opcode := 0x0103, tag := 7, epoch := 0, digest := 0, firstHandle := 0, takenAt := 0, bound := 1, waits := w }

def waiting (w : Waiting) (s : State) : State := { s with exec := some (executing w) }

/-- The device at the tick of its domains. -/
def atTick : State := { base with sys := { base.sys with ptime := 0 } }

def linkSource : Source := { kind := .link 2 0 1, ic := 0, fmt := { width := 1280, height := 720 } }
/-- Partition 1 with these limits. -/
def limited (q : List Nat) : State := { base with parts := [(1, { quota := q })] }
def linkSource1 : Source := { linkSource with owner := 1 }
def surface : Source := { fmt := { width := 640, height := 480 } }

/-- A link stream on port 2 as source 1, and a surface as source 2. -/
def withSources : State := { base with
  sources := [(hd 1 1, linkSource), (hd 1 2, surface)], nextIndex := [(1, 3)] }

theorem meets_SystemCommands (h : Obligations.SystemCommands) :
    runs h.1 15 (cmd 0 []) { base with boxes := [(15, ready)] } ∧ runs h.2.1 0 (cmd 4 [0]) base ∧
    runs h.2.2.1 0 (cmd 4 [1]) base ∧ turns h.2.2.2.1 0 (cmd 4 [2]) base ∧ runs h.2.2.2.2.1 0 (cmd 0 []) base ∧
    runs h.2.2.2.2.2.1 0 (cmd 24 [1, 2, 3, 4, 5, 6]) base ∧ runs h.2.2.2.2.2.2.1 0 (cmd 4 [1]) base ∧
    waits h.2.2.2.2.2.2.2.1 1 (cmd 4 [0x102]) base ∧ runs h.2.2.2.2.2.2.2.2 0 (cmd 4 [3]) base :=
  ⟨meets rfl trivial, meetsb rfl, meetsb rfl, meetsb rfl, meets rfl trivial, meets rfl trivial, meetsb rfl,
   meetsb rfl, meetsb rfl⟩

theorem meets_ResetEnds (h : Obligations.ResetEnds) :
    opens3 (h.1 (waiting (.quiet 1) base) (executing (.quiet 1)) 1) ∧
    opens3 (h.2.1 (waiting (.quiet 1) { base with engines := { jobs := [(hd 5 1, { part := 1, kernel := 1, variant := 0 })] } }) (executing (.quiet 1)) 1) ∧
    opens2 (h.2.2.1 { base with sys := { base.sys with resetDue := some (1, 100000000) } } {} 1 100000000) ∧
    opens2 (h.2.2.2 { base with sys := { base.sys with resetDue := some (2, 100000001) } } {} 2 100000001) :=
  ⟨⟨rfl, rfl, rfl⟩, ⟨rfl, rfl, rfl⟩, sure rfl, sure rfl⟩

theorem meets_CommitCommands (h : Obligations.CommitCommands) :
    runs h.1 0 (staged1 4 [0]) base ∧ waits h.2.1 0 (staged1 8 [1, 0x40000000]) atTick ∧
    runs h.2.2.1 0 (cmd 0 []) base ∧ runs h.2.2.2.1 0 (cmd 0 []) base ∧
    opens3 (h.2.2.2.2.1 (waiting (.handOff 1 []) base) (executing (.handOff 1 [])) 1 []) ∧
    opens (h.2.2.2.2.2 0 1 base) :=
  ⟨meets rfl ⟨by unfold CommitSound; decide +kernel, rfl⟩, meets rfl ⟨by unfold CommitSound; decide +kernel, rfl⟩,
   meets rfl trivial, meets rfl trivial, ⟨rfl, rfl, rfl⟩, rfl⟩

theorem meets_PartitionCommands (h : Obligations.PartitionCommands) :
    runs h.1 0 (cmd 4 [15]) base ∧ runs h.2.2.1 0 (cmd 4 [1]) base ∧ turns h.2.2.2.1 0 (cmd 4 [2]) base ∧
    runs h.2.2.2.2.1 0 (cmd 12 [0x0901, 0, 0]) base ∧ runs h.2.2.2.2.1 0 (cmd 12 [0x0301, 0, 0]) base ∧
    runs h.2.2.2.2.1 0 (cmd 12 [0x0401, 1, 0]) { limited [0, 0, 0, 1] with sources := [(handleOf 1 1 1, linkSource1), (handleOf 1 1 2, linkSource1)] } ∧
    turns h.2.2.2.2.2.1 0 (cmd 12 [0x0401, 1, 0]) { limited [0, 0, 0, 2] with sources := [(handleOf 1 1 1, linkSource1), (handleOf 1 1 2, linkSource1)] } ∧
    runs h.2.2.2.2.2.2.1 0 (cmd 12 [0x0101, 0, 0x80000000]) base ∧
    runs h.2.2.2.2.2.2.2.1 1 (cmd 12 [0x0B01, 0, 0]) base ∧
    runs (h.2.2.2.2.2.2.2.2.1 surface) 0 (cmd 8 [0x01000002, 0x11]) withSources ∧
    runs (h.2.2.2.2.2.2.2.2.2.1 surface) 0 (cmd 8 [0x01000002, 1]) withSources ∧
    runs h.2.2.2.2.2.2.2.2.2.2.1 1 (cmd 4 [0]) base ∧
    runs (h.2.2.2.2.2.2.2.2.2.2.2.1 []) 0 (cmd 16 [0, 0, 0, 64]) base ∧
    opens3 (h.2.2.2.2.2.2.2.2.2.2.2.2 3 { base with parts := [(3, { held := true })] } { held := true }) :=
  ⟨meetsb rfl, meetsb rfl, meetsb rfl, meetsb rfl, meetsb rfl, meetsb rfl, meetsb rfl, meetsb rfl, meetsb rfl,
   meets rfl ⟨⟨⟨rfl, rfl⟩, .inl rfl⟩, sure rfl⟩, meets rfl ⟨⟨rfl, rfl⟩, sure rfl⟩, meetsb rfl,
   meets rfl (by unfold Reaches; decide +kernel), ⟨rfl, rfl, rfl⟩⟩

/-- Body words of a format: 1,280 × 720 at rate code 8, any IC unit. -/
def fmtWords : List Word := [0x02D00500, 8, 0xF000]
def fmt720 : Format := formatOf 0x02D00500 8 0xF000

/-- Port 2 with one lane, a video flow and a stream entry. -/
def withInputs : State := { withSources with
  ports := [(2, { mode := 1, lanes := 15, state := 5 })]
  eth := { flows := [(0, { owner := 0, tx := false, essence := 0 })]
           entries := [(hd 1 4, { h265 := true, videoPt := 96, maxKbps := 1000 })] }
  sources := [(hd 1 1, linkSource), (hd 1 2, surface), (hd 1 4, { kind := .entry })] }

/-- A decode context on that entry, with a unit in its buffer. -/
def decode1 : DecodeCtx := { owner := 0, input := hd 1 4, source := hd 1 5, core := 0, h265 := true, depth10 := false, conceal := false, dpb := 3, rate := 8, maxW := 640, maxH := 480, maxAu := 10000, refUnits := 1, units := [{ bytes := 9 }] }
def withDecoder : State := { withInputs with decodes := [(hd 8 1, decode1)] }

/-- The link stream in another state, or with ancillary packets in its queue. -/
def link2 (x : Source) : State := { withSources with sources := [(hd 1 1, x), (hd 1 2, surface)] }
def anc (n : Nat) : Anc := { did := n, words := [n] }
def anc3 : List AncEntry := [⟨anc 1, 1⟩, ⟨anc 2, 1⟩, ⟨anc 3, 2⟩]

/-- The surface with two slots of its ring. -/
def withRing : State := { withSources with
  sources := [(hd 1 1, linkSource), (hd 1 2, { surface with slots := [⟨0, 1, 0, false, false⟩, ⟨1, 1, 0, false, false⟩] })]
  objects := [(0, { source := hd 1 2 }), (1, { source := hd 1 2 })] }
def upload1 : Upload := { issuer := 0, addr := 4096, pitch := 2560, rect := ⟨0, 0, 2, 2⟩, slot := 0, capture := 0 }
def withUpload : State := { withRing with uploads := [(hd 1 2, upload1)] }

theorem meets_IngressCreates (h : Obligations.IngressCreates) :
    runs (h.1 (.link 2 0 1) fmt720 0) 0 (cmd 20 ([2, 0] ++ fmtWords)) { withInputs with sources := [] } :=
  meets rfl ⟨⟨1, rfl, .inl (by decide +kernel), by decide +kernel⟩, rfl, by decide +kernel, by decide +kernel, by decide +kernel, by decide +kernel, by decide +kernel, by unfold StreamFits; decide +kernel⟩

theorem meets_IngressCreates_2 (h : Obligations.IngressCreates) :
    runs (h.2.1 (.st2110 0 true none) { fmt720 with } 0) 0 (cmd 20 ([0x100, 0xFFFF] ++ fmtWords)) { withInputs with sources := [] } :=
  meets rfl ⟨rfl, rfl, by decide +kernel, by decide +kernel, by decide +kernel, .inl (by decide +kernel), by decide +kernel, by decide +kernel, fun _ he => absurd he List.not_mem_nil, by unfold StreamFits; decide +kernel⟩

theorem meets_IngressCreates_3 (h : Obligations.IngressCreates) :
    runs (h.2.2.1 fmt720) 0 (cmd 20 ([0, 0] ++ fmtWords)) base :=
  meetsb (by decide +kernel)

theorem meets_IngressCreates_4 (h : Obligations.IngressCreates) :
    runs (h.2.2.2 { kind := .entry } 0) 0 (cmd 16 [0x01000004, 0x800FF, 0x02D00500, 1000000]) withInputs :=
  meets rfl ⟨⟨⟨rfl, rfl⟩, .inl rfl⟩, rfl, by unfold DecodeInRange; decide +kernel, by decide +kernel, by decide +kernel, by decide +kernel, by decide +kernel, by decide +kernel⟩

theorem meets_IngressCommands (h : Obligations.IngressCommands) :
    runs (h.1 linkSource) 0 (cmd 20 ([0x01000001, 0] ++ fmtWords)) withSources ∧
    runs (h.2.1 linkSource) 0 (cmd 4 [0x01000001]) withSources ∧
    runs (h.2.2.1 { linkSource with state := .running }) 0 (cmd 4 [0x01000001]) (link2 { linkSource with state := .running }) ∧
    turns (h.2.2.2.1 surface) 0 (cmd 4 [0x01000002]) withSources ∧
    turns (h.2.2.2.2.1 linkSource) 0 (cmd 4 [0x01000001]) withSources ∧
    runs (h.2.2.2.2.2.1 surface) 0 (cmd 4 [0x01000002]) withSources ∧
    runs (h.2.2.2.2.2.2.1 surface) 0 (cmd 8 [0x01000002]) withSources ∧
    runs (h.2.2.2.2.2.2.2.1 linkSource) 0 (cmd 8 [0x01000001, 1]) withSources ∧
    runs (h.2.2.2.2.2.2.2.2.1 linkSource) 0 (cmd 16 [0x01000001, 0, 0, 528]) withSources ∧
    runs (h.2.2.2.2.2.2.2.2.2.1 { linkSource with ancQueue := anc3 }) 0 (cmd 16 [0x01000001, 0, 0, 1056]) (link2 { linkSource with ancQueue := anc3 }) ∧
    runs (h.2.2.2.2.2.2.2.2.2.2.1 (srcGet withRing (hd 1 2)) 0 ⟨0, 0, 640, 480⟩) 0 (cmd 24 [0x01000002, 4096, 0, 2560]) withRing ∧
    runs (h.2.2.2.2.2.2.2.2.2.2.2.1 decode1) 0 (cmd 4 [0x08000001]) withDecoder ∧
    runs (h.2.2.2.2.2.2.2.2.2.2.2.2.1 decode1) 0 (cmd 4 [0x08000001]) withDecoder ∧
    runs (h.2.2.2.2.2.2.2.2.2.2.2.2.2 decode1) 0 (cmd 4 [0x08000001]) withDecoder :=
  ⟨meets rfl ⟨⟨⟨rfl, rfl⟩, .inl rfl⟩, rfl, rfl, rfl, rfl, rfl, .inr (by decide)⟩,
   meets rfl ⟨⟨⟨rfl, rfl⟩, .inl rfl⟩, by decide⟩, meets rfl ⟨⟨⟨rfl, rfl⟩, .inl rfl⟩, by decide⟩,
   meets rfl ⟨⟨⟨rfl, rfl⟩, .inl rfl⟩, by decide⟩, meets rfl ⟨⟨⟨rfl, rfl⟩, .inl rfl⟩, by decide⟩,
   meets rfl ⟨⟨⟨rfl, rfl⟩, .inl rfl⟩, by decide⟩, meets rfl ⟨⟨rfl, rfl⟩, by decide⟩,
   meets rfl ⟨⟨rfl, rfl⟩, by decide⟩, meets rfl ⟨⟨⟨rfl, rfl⟩, .inl rfl⟩, by unfold Reaches; decide +kernel⟩,
   meets rfl ⟨⟨⟨rfl, rfl⟩, .inl rfl⟩, by unfold Reaches; decide +kernel⟩,
   meets rfl ⟨⟨⟨rfl, rfl⟩, .inl rfl⟩, by decide +kernel⟩, meets rfl ⟨rfl, rfl⟩, meets rfl ⟨rfl, rfl⟩,
   meets rfl ⟨rfl, rfl⟩⟩

theorem meets_IngressEvents (h : Obligations.IngressEvents) :
    opens (h.1 0x01000001 false withSources) ∧ opens (h.2.1 0x01000001 withSources) ∧
    opens (h.2.2.1 0x01000001 withSources) ∧ opens2 (h.2.2.2.1 0x01000001 (anc 1023) withSources) ∧
    opens2 (h.2.2.2.2.1 0x01000002 true (anc 0) withSources) ∧
    opens3 (h.2.2.2.2.2.1 0x01000001 { linkSource with state := .running } (link2 { linkSource with state := .running })) ∧
    opens3 (h.2.2.2.2.2.2.2.1 0x01000004 {} { h265 := true, videoPt := 96, maxKbps := 1000 } 0 withInputs) ∧
    opens3 (h.2.2.2.2.2.2.2.2.1 0x01000004 {} { h265 := true, videoPt := 96, maxKbps := 1000, addr := { port := 8 } } { base with eth := { entries := [(hd 1 4, { h265 := true, videoPt := 96, maxKbps := 1000, addr := { port := 8 } })], pairs := [(0, { armed := true, state := 3 })] } }) ∧
    opens2 (h.2.2.2.2.2.2.2.2.2.1 0x08000001 {} decode1 { bytes := 9 } [] withDecoder) ∧
    opens (h.2.2.2.2.2.2.2.2.2.2.1 0x01000002 upload1 withUpload) ∧
    opens2 (h.2.2.2.2.2.2.2.2.2.2.2 0x01000002 upload1 withUpload) :=
  ⟨rfl, rfl, rfl, sure rfl, sure rfl, ⟨rfl, rfl, by decide⟩, ⟨rfl, rfl, rfl⟩, ⟨rfl, rfl, rfl⟩, ⟨rfl, rfl⟩, rfl,
   ⟨rfl, by unfold Reaches; decide +kernel⟩⟩

/-- Page 0 with two unread completions and notifications that straddle the ring's end. -/
def unread : State := { base with boxes := [(0, { ready with cplHead := 511, cplTail := 1, ntfHead := 511, ntfTail := 1 })] }
def access (o : BitVec 23) (n : Fin 9) : Access := { offset := o, bytes := n }
def withHub (h : Hub) : State := { base with events := { hub := h } }

theorem meets_PointerWrites (h : Obligations.PointerWrites) :
    opens3 (h 0 0 unread) ∧ opens (h 0 1 unread rfl rfl rfl).1 ∧ opens (h 0 1 unread rfl rfl rfl).2.1 ∧
    opens (h 0 2 unread rfl rfl rfl).2.2.1 ∧ opens (h 0 2 unread rfl rfl rfl).2.2.2.1 ∧
    opens (h 0 511 unread rfl rfl rfl).2.2.2.2.2.1 ∧ opens (h 0 511 unread rfl rfl rfl).2.2.2.2.2.2 :=
  ⟨sure rfl, sure rfl, sure rfl, sure rfl, sure rfl, sure rfl, sure rfl⟩

theorem meets_PoweredTimeRead (h : Obligations.PoweredTimeRead) :
    opens (h base) :=
  sure rfl

theorem meets_RefusedAccesses (h : Obligations.RefusedAccesses) :
    opens3 (h (access 2 4) base) ∧ opens (h (access 2 4) base rfl nofun rfl).1 ∧
    opens (h (access 0x7FFFFF 1) { base with sys := { base.sys with errValid := true } } rfl nofun rfl).2.1 ∧
    opens (h (access 0x7FFFFF 1) { base with sys := { base.sys with errValid := true } } rfl nofun rfl).2.2.2.2.2 :=
  ⟨sure rfl, sure rfl, sure rfl, sure rfl⟩

theorem meets_WindowWrites (h : Obligations.WindowWrites) :
    opens (h.1 15 0 base) ∧ opens2 (h.2.1 1 0 base) ∧ opens (h.2.2.1 0 base) ∧ opens (h.2.2.2.1 0 true base) ∧
    opens (h.2.2.2.2.1 base) ∧ opens3 (h.2.2.2.2.2.1 (access 8 8) base) ∧ opens (h.2.2.2.2.2.2.1 5 base) ∧
    opens2 (h.2.2.2.2.2.2.2.1 0x28 0 base) ∧ opens2 (h.2.2.2.2.2.2.2.1 0xFFC 0 base) ∧
    opens2 (h.2.2.2.2.2.2.2.1 0x3000 0 base) ∧ opens2 (h.2.2.2.2.2.2.2.1 0x110000 0 base) ∧
    opens2 (h.2.2.2.2.2.2.2.1 0x1C 0 base) ∧ opens3 (h.2.2.2.2.2.2.2.2.1 1 0 0 base) ∧
    opens2 (h.2.2.2.2.2.2.2.2.2.1 0 0x20 0 1 base) ∧ opens (h.2.2.2.2.2.2.2.2.2.2.1 0 2 0 1 base) ∧
    opens (h.2.2.2.2.2.2.2.2.2.2.1 0 2 0 1 base rfl).1 ∧ opens (h.2.2.2.2.2.2.2.2.2.2.1 0 4 0 1 base rfl).2 ∧
    opens2 (h.2.2.2.2.2.2.2.2.2.2.2.1 0 0x4000 0 base) ∧ opens2 (h.2.2.2.2.2.2.2.2.2.2.2.1 0 0x7FFC 0 base) ∧
    opens2 (h.2.2.2.2.2.2.2.2.2.2.2.2.2.1 0 0 0 true (access 0 4) { base with sys := { base.sys with phase := .held } }) :=
  ⟨sure rfl, sure rfl, sure rfl, sure rfl, sure rfl, sure rfl, sure rfl, sure rfl, sure rfl, sure rfl, sure rfl,
   sure rfl, sure rfl, sure rfl, sure rfl, sure rfl, sure rfl, sure rfl, sure rfl, sure rfl⟩

theorem meets_EventRegisters (h : Obligations.EventRegisters) :
    opens2 (h.1 194 1 base) ∧ opens2 (h.2.1 211 1 1 base) ∧ opens (h.2.2.2.1 (211, 0) base) ∧
    opens (h.2.2.2.1 (211, 0) { base with events := { sources := [(211, { severity := 3, sevCauses := 1 })] } } rfl).1 ∧
    opens (h.2.2.2.1 (211, 0) (withHub { firstValid := true }) rfl).2.1 ∧ opens (h.2.2.2.2.1 195 1 1 base) ∧
    opens (h.2.2.2.2.1 210 1 1 base) ∧ opens2 (h.2.2.2.2.2.1 246 2 base) ∧ opens (h.2.2.2.2.2.2.1 247 2 base) ∧
    opens2 (h.2.2.2.2.2.2.2.1 (withHub { firstValid := true })) ∧ opens (h.2.2.2.2.2.2.2.2.1 base) ∧
    opens (h.2.2.2.2.2.2.2.2.2.1 base) ∧ opens (h.2.2.2.2.2.2.2.2.2.2.1 0xFFF00000 base) ∧
    opens (h.2.2.2.2.2.2.2.2.2.2.1 600001 base) ∧ opens4 (h.2.2.2.2.2.2.2.2.2.2.2.1 600000 base) ∧
    opens5 (h.2.2.2.2.2.2.2.2.2.2.2.2.1 1 (withHub { fault := true })) ∧
    opens (h.2.2.2.2.2.2.2.2.2.2.2.2.2.1 0 1 2 3 base) ∧ opens (h.2.2.2.2.2.2.2.2.2.2.2.2.2.2.1 0 true base) ∧
    opens4 (h.2.2.2.2.2.2.2.2.2.2.2.2.2.2.2.1 0 (executing (.quiet 1)) (waiting (.quiet 1) base)) ∧
    opens (h.2.2.2.2.2.2.2.2.2.2.2.2.2.2.2.2 0 base) :=
  ⟨sure rfl, sure rfl, sure rfl, sure rfl, sure rfl, sure rfl, sure rfl, sure rfl, sure rfl, sure rfl, sure rfl,
   sure rfl, sure rfl, sure rfl, sure rfl, sure rfl, sure rfl, sure rfl, sure rfl, sure rfl⟩

/-- The surface with a closed frame that page 0 holds, and its ring of two. -/
def surface1 : Source := { surface with slots := [⟨0, 1, 0, false, false⟩, ⟨1, 1, 0, false, false⟩], latest := some 0 }
def object0 : Obj := { source := hd 1 2, seq := 1, w := 640, h := 480, closeOrder := 1, latest := true, refs := [.host 0] }
def withFrame : State := { withSources with
  sources := [(hd 1 1, linkSource), (hd 1 2, surface1)], objects := [(0, object0), (1, { source := hd 1 2 })]
  pool := { mounted := true, tier2 := 1000000, drives := [(0, { state := 3 })] }, grants := [{ source := hd 1 2, grantee := 1 }] }

/-- A time-shift buffer on the surface, and its delayed source. -/
def shift1 : Shift := { source := hd 1 2, keepEvery := 1, frames := 16, delayMs := 100, tier2 := 16 }
def shifting (k : List Kept) : State := { withFrame with
  sources := [(hd 1 2, surface1), (hd 1 3, { kind := .delayed, fmt := surface.fmt })]
  shifts := [(hd 1 3, { shift1 with kept := k })] }
def kept1 : Kept := { capture := 99000000, seq := 1 }

/-- A processed source on the surface, a one-shot job, and a route at head 0. -/
def proc1 : Proc := { input := hd 1 2, params := { kernel := 6 } }
def job1 : Job := { part := 0, kernel := 8, variant := 0, deadline := ⟨200000000, 1⟩, itemsRunning := 1, state := 1 }
def working : State := { withFrame with
  sources := [(hd 1 2, surface1), (hd 1 3, { kind := .processed, fmt := surface.fmt })]
  procs := [(hd 1 3, proc1)], engines := { jobs := [(hd 5 1, job1)], busy := [(511, hd 5 1)], offline := [3] } }
def jobbing (j : Job) : State := { working with engines := { jobs := [(hd 5 1, j)], busy := [(511, hd 5 1)] } }
def route1 : Route := { source := hd 1 2, dest := 0x10000000, owner := 0, mode := 1, state := 2 }
def routed : State := { withFrame with routes := [(hd 3 1, route1)], dests := [(0x10000000, { active := some (hd 3 1) })] }
def faulted : State := raise 113 2 { working with engines := { working.engines with
  offline := 0 :: working.engines.offline, busy := tdel working.engines.busy 0 } }

theorem meets_FrameStoreCommands (h : Obligations.FrameStoreCommands) :
    runs (h.1 surface1 0) 0 (cmd 4 [0x01000002]) withFrame ∧
    turns (h.2.1 linkSource) 0 (cmd 4 [0x01000001]) withFrame ∧ runs (h.2.2.2.1 0) 0 (cmd 4 [0x02000000]) withFrame ∧
    turns (h.2.2.2.2.1 0) 0 (cmd 4 [0x02000000]) { withFrame with objects := [(0, { object0 with refs := [] })] } ∧
    runs (h.2.2.2.2.2.1 0 object0) 0 (cmd 8 [0x02000000, 0]) withFrame ∧
    runs (h.2.2.2.2.2.2.1 0 object0) 0 (cmd 8 [0x02000000, 1]) withFrame ∧
    waits (h.2.2.2.2.2.2.2.1 0 object0 ⟨0, 0, 640, 480⟩) 0 (cmd 24 [0x02000000, 4096, 0, 2560, 0, 0]) withFrame :=
  ⟨meets rfl ⟨⟨⟨rfl, rfl⟩, .inl rfl⟩, by decide +kernel⟩, meets rfl ⟨⟨⟨rfl, rfl⟩, .inl rfl⟩, rfl⟩,
   meets rfl ⟨rfl, by decide +kernel⟩, meets rfl ⟨rfl, by decide +kernel⟩, meets rfl ⟨rfl, by decide +kernel⟩,
   meets rfl ⟨rfl, by decide +kernel⟩, meets rfl ⟨rfl, by decide +kernel⟩⟩

theorem meets_FrameStoreCommands_2 (h : Obligations.FrameStoreCommands) :
    runs (h.2.2.2.2.2.2.2.2.1 surface1) 0 (cmd 8 [0x01000002, 1]) withFrame ∧
    runs (h.2.2.2.2.2.2.2.2.2.1 surface1) 0 (cmd 8 [0x01000002, 0]) withFrame ∧
    runs (h.2.2.2.2.2.2.2.2.2.2.1 surface1) 0 (cmd 16 [0x01000002, 1, 16, 100]) withFrame ∧
    runs (h.2.2.2.2.2.2.2.2.2.2.2.1 { kind := .delayed, fmt := surface.fmt } { shift1 with kept := [kept1] }) 0 (cmd 8 [0x01000003, 68]) (shifting [kept1]) ∧
    runs (h.2.2.2.2.2.2.2.2.2.2.2.2.1 { kind := .delayed, fmt := surface.fmt } { shift1 with kept := [kept1] }) 0 (cmd 4 [0x01000003]) (shifting [kept1]) :=
  ⟨meets rfl ⟨⟨⟨rfl, rfl⟩, .inl rfl⟩, by decide +kernel⟩, meets rfl ⟨⟨⟨rfl, rfl⟩, .inl rfl⟩, by decide +kernel⟩,
   meets rfl ⟨⟨⟨rfl, rfl⟩, .inl rfl⟩, by decide +kernel⟩, meets rfl ⟨⟨⟨rfl, rfl⟩, .inl rfl⟩, by decide +kernel⟩,
   meets rfl ⟨⟨⟨rfl, rfl⟩, .inl rfl⟩, rfl⟩⟩

theorem meets_FrameStoreCommands_3 (h : Obligations.FrameStoreCommands) :
    runs (h.2.2.2.2.2.2.2.2.2.2.2.2.2.1 surface1 0x10404) 1 (cmd 4 [0x01000002]) withFrame ∧
    runs (h.2.2.2.2.2.2.2.2.2.2.2.2.2.2.1 surface1 0x10404) 0 (cmd 4 [0x01000002]) withFrame ∧
    runs h.2.2.2.2.2.2.2.2.2.2.2.2.2.2.2 0 (cmd 0 []) base ∧ opens (h.2.2.1 0 (cmd 4 [0x01000002]) 1 withFrame) :=
  ⟨meets rfl ⟨⟨rfl, rfl⟩, by decide +kernel⟩, meets rfl ⟨⟨⟨rfl, rfl⟩, .inl rfl⟩, by decide +kernel⟩,
   meets rfl trivial, rfl⟩

theorem meets_FrameStoreEvents (h : Obligations.FrameStoreEvents) :
    opens2 (h.1 0 false (executing (.readObject 0 4096 4 {})) 0 4096 4 {} (waiting (.readObject 0 4096 4 {}) base)) ∧
    opens (h.2.1 0 true base) ∧
    opens2 (h.2.2.1 0x01000002 (hd 1 3) { shift1 with kept := [{ kept1 with spilling := true }] } { kept1 with spilling := true } (shifting [{ kept1 with spilling := true }])) ∧
    opens3 (h.2.2.2.1 0x01000002 (hd 1 3) { shift1 with kept := [{ kept1 with spilling := true }] } { kept1 with spilling := true } (shifting [{ kept1 with spilling := true }])) ∧
    opens (h.2.2.2.2.1 0x01000003 { shift1 with kept := [kept1] } (shifting [kept1])) ∧
    opens2 (h.2.2.2.2.2.1 0x01000003 { shift1 with kept := [{ kept1 with recalling := 1 }] } (shifting [{ kept1 with recalling := 1 }])) ∧
    opens2 (h.2.2.2.2.2.2.1 0x01000003 { shift1 with kept := [{ kept1 with capture := 99999999 }] } (shifting [{ kept1 with capture := 99999999 }])) ∧
    opens (h.2.2.2.2.2.2.2 0x01000003 { shift1 with kept := [{ kept1 with absent := true }] } { kept1 with absent := true } (shifting [{ kept1 with absent := true }]) _ rfl rfl rfl).1 ∧
    opens2 (h.2.2.2.2.2.2.2 0x01000003 { shift1 with kept := [{ kept1 with recalling := 2 }] } { kept1 with recalling := 2 } (shifting [{ kept1 with recalling := 2 }]) _ rfl rfl rfl).2.1 ∧
    opens2 (h.2.2.2.2.2.2.2 0x01000003 { shift1 with kept := [{ kept1 with recalling := 1 }] } { kept1 with recalling := 1 } (shifting [{ kept1 with recalling := 1 }]) _ rfl rfl rfl).2.2 :=
  ⟨⟨rfl, rfl⟩, rfl, ⟨rfl, rfl⟩, ⟨rfl, rfl, by decide +kernel⟩, rfl, ⟨rfl, rfl⟩, ⟨rfl, by decide⟩, rfl, ⟨rfl, rfl⟩,
   ⟨rfl, by decide⟩⟩

theorem meets_EngineCommands (h : Obligations.EngineCommands) :
    runs (h.1 surface1) 0 (cmd 16 [0x01000002, 6, 0, 0]) withFrame ∧
    runs (h.2.2.1 { kind := .processed, fmt := surface.fmt } proc1) 0 (cmd 16 [0x01000003, 6, 0, 0]) working ∧
    runs (h.2.2.2.2.1 { kind := .processed, fmt := surface.fmt } proc1) 0 (cmd 4 [0x01000003]) working :=
  ⟨meets rfl ⟨⟨rfl, rfl⟩, by decide +kernel⟩,
   meets rfl ⟨⟨⟨rfl, rfl⟩, .inl rfl⟩, rfl, by decide +kernel, by decide +kernel, by decide +kernel, .inr (by decide +kernel)⟩,
   meets rfl ⟨⟨⟨rfl, rfl⟩, .inl rfl⟩, rfl, rfl⟩⟩

theorem meets_EngineCommands_2 (h : Obligations.EngineCommands) :
    runs (h.2.2.2.2.2.2.1 (6, 0) [6]) 0 (cmd 20 [0x01000003, 0]) working ∧
    runs (h.2.2.2.2.2.2.2.2.1 job1) 0 (cmd 4 [0x05000001]) working ∧
    turns (h.2.2.2.2.2.2.2.2.2.1 { job1 with state := 2 }) 0 (cmd 4 [0x05000001]) (jobbing { job1 with state := 2 }) ∧
    runs (h.2.2.2.2.2.2.2.2.2.2.1 job1) 0 (cmd 4 [0x05000001]) working ∧
    runs h.2.2.2.2.2.1 0 (bulk 48) (inHost [15, 0x102, 1, 0, 0, 0x20002, 0, 0, 0, 0, 0, 0] base) ∧
    runs h.2.2.2.2.2.2.2.2.2.2.2.1 0 (cmd 0 []) base ∧ runs h.2.2.2.2.2.2.2.2.2.2.2.2.1 0 (cmd 4 [8]) base ∧
    turns h.2.2.2.2.2.2.2.2.2.2.2.2.2 0 (cmd 8 []) base :=
  ⟨meets rfl ⟨rfl, ⟨_, ⟨rfl, rfl⟩, .inl rfl⟩, by decide +kernel⟩, meets rfl ⟨⟨rfl, rfl, rfl⟩, by decide⟩,
   meets rfl ⟨⟨rfl, rfl, rfl⟩, rfl⟩, meets rfl ⟨rfl, rfl, rfl⟩, meetsb (by decide +kernel), meets rfl trivial,
   meetsb rfl, meets rfl trivial⟩

theorem meets_EngineCommands_3 (h : Obligations.EngineCommands) :
    runs (h.2.2.2.2.2.2.2.1 0 640 480 1 false surface1 ⟨0, 0, 640, 480⟩) 0 (cmd 28 [6, 0x01000002, 0x01000002, 0, 0, 0, 10000000]) withFrame ∧
    opens (h.2.2.2.1 0 (cmd 28 []) 1 withFrame) ∧
    turns (h.2.1 linkSource1) 0 (cmd 16 [0x11000001, 6, 0, 0]) { base with sources := [(handleOf 1 1 1, linkSource1)] } :=
  ⟨meets rfl ⟨.inr ⟨by decide, rfl, rfl, rfl, rfl, .inl ⟨rfl, by decide +kernel, rfl, surface1, rfl, rfl, rfl⟩⟩, rfl, rfl, by decide +kernel, by unfold JobFits; decide +kernel, by decide +kernel, by decide +kernel⟩,
   rfl, meets rfl ⟨⟨rfl, rfl⟩, by decide +kernel⟩⟩

theorem meets_EngineEvents (h : Obligations.EngineEvents) :
    opens5 (h.1 0x03000001 false 0 route1 routed) ∧ opens2 (h.2.1 511 (hd 5 1) (jobbing { job1 with state := 2 })) ∧
    opens (h.2.2.1 3 (hd 5 1) 0 working) ∧
    opens3 (h.2.2.2.1 511 (hd 5 1) job1 working (jobPut (hd 5 1) { job1 with itemsRunning := 0 } (freeEngine 511 working))) ∧
    opens2 (h.2.2.2.1 511 (hd 5 1) job1 working _ rfl rfl rfl).1 ∧
    opens (h.2.2.2.1 511 (hd 5 1) { job1 with itemsRunning := 2 } (jobbing { job1 with itemsRunning := 2 }) _ rfl rfl rfl).2 ∧
    opens6 (h.2.2.2.2.1 0x05000001 { job1 with deadline := ⟨5, 1⟩ } (jobbing { job1 with deadline := ⟨5, 1⟩ }) (jobPut (hd 5 1) { job1 with deadline := ⟨5, 1⟩, missed := true } (jobbing { job1 with deadline := ⟨5, 1⟩ }))) ∧
    opens (h.2.2.2.2.2.1 0x05000001 job1 working rfl).1 ∧
    opens3 (h.2.2.2.2.2.1 0x05000001 { job1 with deadline := ⟨5, 1⟩, ends := true } (jobbing { job1 with deadline := ⟨5, 1⟩, ends := true }) rfl).2 ∧
    opens (h.2.2.2.2.2.2.1 3 true working) ∧ opens5 (h.2.2.2.2.2.2.2.1 0 true working faulted) ∧
    opens2 (h.2.2.2.2.2.2.2.2.2.1 95000000 { base with engines := { upSince := some 95000000 } }) ∧
    opens (h.2.2.2.2.2.2.2.2.2.2 base) :=
  ⟨⟨rfl, .inl rfl, .inl rfl, by decide, rfl⟩, ⟨rfl, rfl⟩, sure rfl, ⟨rfl, rfl, rfl⟩, ⟨rfl, by decide⟩,
   .inr (by decide), ⟨rfl, by decide, rfl, by decide, rfl, rfl⟩, .inr (.inl (by decide)),
   ⟨by decide, by decide, rfl⟩, sure rfl, ⟨rfl, by decide, rfl, rfl, sure rfl⟩, ⟨rfl, by decide⟩, rfl⟩

/-- The surface's route, staged or active, and head 0 in a state of its own. -/
def atHead (x : Head) : State := { base with heads := [(0, x)] }
def running : Head := { state := 2 }

/-- A bank whose phases have one tap each. -/
def bankBlock : List Word :=
  0x2000 :: ((List.range 256).map (fun i => if i % 4 = 0 then 1024 else 0)
    ++ (List.range 192).map (fun i => if i % 3 = 0 then 1024 else 0))
def noMaint : State := { base with sys := { base.sys with maintTiming := false } }
def salvoAt : State := inHost [1, 0, 0, 0, 0x01000002, 0x10000000, 0, 0] withFrame
def salvoBack : State := inHost [1, 4096, 0, 0, 0x01000002, 0x10000000, 0, 0] withFrame
def paired0 : State := { base with heads := [(0, { state := 2, paired := true })] }
def scanned : Head := { state := 2, scanning := true, scanShown := [(7, [], [], 0)] }
def early : HeadSet := { mode := { applyLine := 600 } }
def alone (x : Head) : State := { atHead x with ports := [(16, { mode := 1, state := 5 })] }
theorem isAlone {x : Head} {k : Nat} (h : decide (x.state ≠ 0 ∧ lineHeads (alone x) 0 = [0] ∧ wasServed (alone x) 0 k = false) = true) :
    AloneAt (alone x) 0 k x := ⟨rfl, rfl, of_decide_eq_true h⟩
def onItsLine : State := atHead { running with act := { mode := { lineMatch := 5 } }, lineAt := 100000000, served := [0, 1, 2, 3] }
def closing : State := { withSources with
  lastClose := some (hd 1 2, 0, none), heads := [(0, { state := 0 })],
  sources := [(hd 1 2, { surface with latest := some 0 })] }
def toEncoder : Head := { state := 1, act := { sink := .encoder 5 } }

theorem bank_length : (bytesOf bankBlock).length = 1796 := by decide +kernel
theorem bank_words : wordsOf (bytesOf bankBlock) = bankBlock := by decide +kernel
theorem bankOf_hcoef (ws : List Word) : (bankOf ws).hcoef = (List.range 512).map (halfword ws 1) := by rw [bankOf]
theorem bankOf_vcoef (ws : List Word) : (bankOf ws).vcoef = (List.range 384).map (halfword ws 257) := by rw [bankOf]
theorem bank_h (n : Nat) (hn : n < 512) : halfword bankBlock 1 n = if n % 8 = 0 then 1024 else 0 := by
  have h : n / 2 < 256 := by omega
  have e : wd bankBlock (1 + n / 2) = if n / 2 % 4 = 0 then 1024 else 0 := by
    simp [wd, bankBlock, Nat.add_comm 1, List.getElem?_append, h]
  rw [halfword, e]
  have : n % 2 = 0 ∨ n % 2 = 1 := by omega
  by_cases q : n % 8 = 0
  · rw [if_pos (by omega), if_pos q, show n % 2 = 0 by omega]; rfl
  · rw [if_neg q]
    by_cases q2 : n / 2 % 4 = 0
    · rw [if_pos q2, show n % 2 = 1 by omega]; rfl
    · rw [if_neg q2]; rcases this with h | h <;> rw [h] <;> rfl
theorem bank_v (n : Nat) (hn : n < 384) : halfword bankBlock 257 n = if n % 6 = 0 then 1024 else 0 := by
  have h : n / 2 < 192 := by omega
  have e : wd bankBlock (257 + n / 2) = if n / 2 % 3 = 0 then 1024 else 0 := by
    simp [wd, bankBlock, show 257 + n / 2 = 256 + n / 2 + 1 by omega, List.getElem?_append, h]
  rw [halfword, e]
  have : n % 2 = 0 ∨ n % 2 = 1 := by omega
  by_cases q : n % 6 = 0
  · rw [if_pos (by omega), if_pos q, show n % 2 = 0 by omega]; rfl
  · rw [if_neg q]
    by_cases q2 : n / 2 % 3 = 0
    · rw [if_pos q2, show n % 2 = 1 by omega]; rfl
    · rw [if_neg q2]; rcases this with h | h <;> rw [h] <;> rfl
theorem bank_good : bankRange (bankOf bankBlock) = true ∧ bankSums (bankOf bankBlock) = true := by
  have hh : ∀ n, n < 512 → (bankOf bankBlock).hcoef.getD n 0 = if n % 8 = 0 then 1024 else 0 := fun n hn => by
    simp [bankOf, hn, bank_h n hn]
  have hv : ∀ n, n < 384 → (bankOf bankBlock).vcoef.getD n 0 = if n % 6 = 0 then 1024 else 0 := fun n hn => by
    simp [bankOf, hn, bank_v n hn]
  have ht : (bankOf bankBlock).vtaps = 6 := by decide +kernel
  constructor
  · simp only [bankRange, Bool.and_eq_true, List.all_eq_true, decide_eq_true_eq, List.mem_range, ht, Bool.or_eq_true]
    refine ⟨⟨⟨?_, ?_⟩, ?_⟩, fun p hp k hk => .inl hk⟩
    · intro x hx
      rw [bankOf_hcoef] at hx
      obtain ⟨n, hn, rfl⟩ := List.mem_map.1 hx
      rw [bank_h n (List.mem_range.1 hn)]; split <;> decide
    · intro x hx
      rw [bankOf_vcoef] at hx
      obtain ⟨n, hn, rfl⟩ := List.mem_map.1 hx
      rw [bank_v n (List.mem_range.1 hn)]; split <;> decide
    · exact (by decide : (6 : Nat) ≠ 0)
  · simp only [bankSums, Bool.and_eq_true, List.all_eq_true, decide_eq_true_eq, List.mem_range]
    intro p hp
    constructor
    · have e : ∀ k ∈ List.range 8, ((bankOf bankBlock).hcoef.getD (8 * p + k) 0).toInt = if k = 0 then 1024 else 0 := by
        intro k hk
        have := List.mem_range.1 hk
        rw [hh _ (by omega)]
        by_cases q : k = 0
        · rw [if_pos (by omega), if_pos q]; rfl
        · rw [if_neg (by omega), if_neg q]; rfl
      rw [List.map_congr_left e]; rfl
    · have e : ∀ k ∈ List.range 6, ((bankOf bankBlock).vcoef.getD (6 * p + k) 0).toInt = if k = 0 then 1024 else 0 := by
        intro k hk
        have := List.mem_range.1 hk
        rw [hv _ (by omega)]
        by_cases q : k = 0
        · rw [if_pos (by omega), if_pos q]; rfl
        · rw [if_neg (by omega), if_neg q]; rfl
      rw [List.map_congr_left e]; rfl
theorem bank_fetched : fetchBulk (some specLoadCoefficients) (bulk 1796) (inHost bankBlock base) =
    some (some (bytesOf bankBlock)) := fetched bank_length ⟨rfl, rfl⟩ (by decide +kernel) (by decide +kernel) (by decide +kernel)

theorem meets_RouteCommands (h : Obligations.RouteCommands) :
    runs h.1 0 (cmd 12 [0x01000002, 0x10000000, 0x110]) withFrame ∧
    runs (h.2.1 route1) 0 (cmd 12 [0x03000001, 0, 0x10002]) routed ∧
    runs (h.2.2.1 route1) 0 (cmd 12 [0x03000001, 0, 0xFF10]) routed ∧
    runs (h.2.2.2.1 [hd 3 1] (addOne 0 (hd 1 2) 0x10000000 0 (taken 0 (bulk 32) salvoAt)).2) 0 (bulk 32) salvoAt ∧
    runs (h.2.2.2.2.1 [hd 3 1] (addOne 0 (hd 1 2) 0x10000000 0 (taken 0 (bulk 32) salvoBack)).2) 0 (bulk 32) salvoBack ∧
    runs (h.2.2.2.2.2.1 route1) 0 (cmd 8 [0x03000001, 1]) routed ∧ runs h.2.2.2.2.2.2 0 (cmd 4 [0x10003F07]) base :=
  ⟨meetsb (by decide +kernel), meets rfl ⟨⟨rfl, rfl⟩, by decide +kernel⟩, meets rfl ⟨⟨rfl, rfl⟩, by decide +kernel⟩,
   meets rfl ⟨by decide +kernel, by decide +kernel, by decide +kernel, rfl⟩,
   meets rfl ⟨by decide +kernel, by decide +kernel, by decide +kernel, by decide +kernel, rfl, by unfold Reaches; decide +kernel⟩,
   meets rfl ⟨rfl, rfl⟩, meetsb rfl⟩

theorem meets_LayerCommands (h : Obligations.LayerCommands) :
    stages h.1 0 (cmd 24 [0x10003F03, 0, 0, 0, 0, 0x00400040]) base ∧
    stages h.2.1 0 (cmd 16 [63, 0xFAC688, 0, 0x10]) base ∧ stages h.2.2.1 0 (cmd 28 [0x83F]) base ∧
    stages h.2.2.2.1 0 (bulk 1796) (inHost bankBlock base) :=
  ⟨meets rfl ⟨⟨⟨rfl, rfl, .inl rfl, .inl rfl⟩, by decide, by decide, by decide, fun x hx => (nomatch (show (none : Option Source) = some x from hx)), by decide⟩, .inr (by decide)⟩,
   meets rfl ⟨⟨⟨.inl rfl, .inl rfl⟩, by decide⟩, .inr (by decide)⟩,
   meets rfl ⟨⟨⟨.inl rfl, .inl rfl⟩, by decide⟩, .inr (by decide)⟩,
   meets_block bank_fetched bank_words ⟨rfl, rfl, by decide⟩ (by decide +kernel) ⟨⟨bank_length, ⟨.inl rfl, .inl (by decide +kernel)⟩, bank_good.1, bank_good.2⟩, .inr (by decide +kernel)⟩⟩

theorem meets_LayerCommands_2 (h : Obligations.LayerCommands) :
    runs (h.2.2.2.2.1 (bytesOf (bankWords 63 3 (bankGet (headGet base 63).act 3)))) 0 (cmd 12 [0x33F]) base ∧
    runs (h.2.2.2.2.2.1 63 7 (headGet base 63)) 0 (cmd 4 [0x10003F07]) base ∧ runs h.2.2.2.2.2.2 0 (cmd 4 [63]) base :=
  ⟨meets rfl ⟨⟨.inl rfl, .inl rfl⟩, rfl, rfl, by unfold Reaches; decide +kernel⟩,
   meets rfl ⟨⟨rfl, rfl, .inl rfl, .inl rfl⟩, rfl, rfl, rfl⟩, meets rfl ⟨.inl rfl, .inl rfl⟩⟩

theorem meets_HeadCommands (h : Obligations.HeadCommands) :
    stages (h.1 ((modeTiming 1 8).getD {})) 0 (cmd 36 [0x8017F, 0xFFFF]) noMaint ∧
    turns h.2.1 0 (cmd 36 [0x8017F, 0xFFFF]) base ∧ stages (h.2.2.1 .none) 0 (cmd 12 [63]) base ∧
    stages h.2.2.2.1 0 (cmd 36 [63]) base ∧ runs (h.2.2.2.2.1 63 (headGet base 63)) 0 (cmd 8 [63]) base ∧
    runs (h.2.2.2.2.2.1 (headGet base 63)) 0 (cmd 8 [0x13F]) base ∧
    runs (h.2.2.2.2.2.2.1 63 (headGet base 63)) 0 (cmd 8 [0x23F, 1]) base ∧
    turns h.2.2.2.2.2.2.2 0 (cmd 8 [0x33F]) base :=
  ⟨meets rfl ⟨⟨⟨.inl rfl, .inl rfl⟩, rfl, ⟨by decide, by decide, .inr ⟨by decide, rfl, by decide⟩⟩, by decide, by decide, by decide⟩, .inr (by decide)⟩,
   meets rfl ⟨⟨.inl rfl, .inl rfl⟩, rfl⟩, meets rfl ⟨⟨⟨.inl rfl, .inl rfl⟩, rfl⟩, .inr (by decide)⟩,
   meets rfl ⟨⟨.inl rfl, .inl rfl⟩, .inr (by decide)⟩, meets rfl ⟨rfl, ⟨.inl rfl, .inl rfl⟩, rfl, rfl⟩,
   meets rfl ⟨⟨.inl rfl, .inl rfl⟩, rfl, rfl⟩, meets rfl ⟨rfl, ⟨.inl rfl, .inl rfl⟩, rfl, rfl⟩,
   meets rfl ⟨⟨.inl rfl, .inl rfl⟩, rfl⟩⟩

theorem meets_HeadEvents (h : Obligations.HeadEvents) :
    opens (h.1 0 (atHead { state := 0 })) ∧
    opens4 (h.2.1 0 { state := 1, act := early } (alone { state := 1, act := early })) ∧
    opens6 (h.2.2.1 0 { running with act := early, pend := some {} } (alone { running with act := early, pend := some {} }) (latch 0 (atLine 0 600 (alone { running with act := early, pend := some {} })))) ∧
    (∃ u, opens7 (h.2.2.2.1 0 { running with act := early } (alone { running with act := early }) (atLine 0 600 (alone { running with act := early })) u)) ∧
    (∃ t, opens6 (h.2.2.2.2.1 0 scanned 720 (alone scanned) t)) :=
  ⟨rfl, ⟨isAlone rfl, by decide, by decide, .inl rfl⟩, ⟨isAlone rfl, by decide, by decide, by decide, rfl, rfl⟩,
   ⟨_, isAlone rfl, by decide, by decide, by decide, rfl, rfl, rfl⟩,
   ⟨_, isAlone rfl, isAlone rfl, rfl, rfl, by decide, rfl⟩⟩

theorem meets_HeadEvents_2 (h : Obligations.HeadEvents) :
    (∃ t, opens7 (h.2.2.2.2.2.1 0 { scanned with act := early } 720 (alone { scanned with act := early }) t)) ∧
    (∃ t, opens7 (h.2.2.2.2.2.2.1 0 { scanned with act := early, feeding := .link 16 0 1 0 0 } 720 16 0 1 0 0 (alone { scanned with act := early, feeding := .link 16 0 1 0 0 }) t) ∧ (portGet t 16).state = 5 ∧ (portGet t 16).mode = 1) ∧
    opens5 (h.2.2.2.2.2.2.2.1 0 { running with act := early } 720 (alone { running with act := early })) ∧
    opens2 (h.2.2.2.2.2.2.2.2.1 0 onItsLine) ∧ opens (h.2.2.2.2.2.2.2.2.1 0 onItsLine rfl (by decide)).1 ∧
    opens (h.2.2.2.2.2.2.2.2.1 0 onItsLine rfl (by decide)).2.1 ∧
    opens (h.2.2.2.2.2.2.2.2.1 0 onItsLine rfl (by decide)).2.2.1 ∧
    opens2 (h.2.2.2.2.2.2.2.2.1 0 onItsLine rfl (by decide)).2.2.2 ∧
    opens4 (h.2.2.2.2.2.2.2.2.2.1 0 { running with act := { mode := { lineMatch := 5 } } } (alone { running with act := { mode := { lineMatch := 5 } } })) ∧
    opens (h.2.2.2.2.2.2.2.2.2.2.1 63 base) ∧
    opens6 (h.2.2.2.2.2.2.2.2.2.2.2.1 63 (headGet base 63) base (atLine 63 742 base)) ∧
    opens4 (h.2.2.2.2.2.2.2.2.2.2.2.2.1 0 running (atHead running)) :=
  ⟨⟨_, isAlone rfl, rfl, by decide, by decide, rfl, rfl, rfl⟩,
   ⟨_, ⟨isAlone rfl, rfl, by decide, by decide, rfl, rfl, rfl⟩, sure rfl, sure rfl⟩,
   ⟨isAlone rfl, rfl, by decide, by decide, rfl⟩, sure rfl, sure rfl, sure rfl, sure rfl, sure rfl,
   ⟨isAlone rfl, by decide, by decide, by decide⟩, rfl, ⟨rfl, rfl, by decide, by decide, rfl, rfl⟩,
   ⟨rfl, rfl, rfl, rfl⟩⟩

theorem meets_HeadEvents_3 (h : Obligations.HeadEvents) :
    opens4 (h.2.2.2.2.2.2.2.2.2.2.2.2.2.1 0 { state := 1 } (alone { state := 1 }) (atLine 0 0 (alone { state := 1 }))) ∧
    opens3 (h.2.2.2.2.2.2.2.2.2.2.2.2.2.2.1 0 { running with restart := true, zeroFrom := ⟨200000000, 1⟩ } (alone { running with restart := true, zeroFrom := ⟨200000000, 1⟩ })) ∧
    opens4 (h.2.2.2.2.2.2.2.2.2.2.2.2.2.2.2.1 0 toEncoder 5 (alone toEncoder)) ∧
    opens5 (h.2.2.2.2.2.2.2.2.2.2.2.2.2.2.2.2.1 0 { running with act := { sink := .link 16 0 1 0 0 } } 16 0 1 0 0 (alone { running with act := { sink := .link 16 0 1 0 0 } })) ∧
    (∃ t, opens9 (h.2.2.2.2.2.2.2.2.2.2.2.2.2.2.2.2.2.1 0 7 719 0 scanned (atHead scanned) t)) ∧
    opens (h.2.2.2.2.2.2.2.2.2.2.2.2.2.2.2.2.2.2.1 0 0 0 0 (atHead running)) ∧
    (∃ t u v, opens6 (h.2.2.2.2.2.2.2.2.2.2.2.2.2.2.2.2.2.2.2.1 0 {} base t u v)) ∧
    opens (h.2.2.2.2.2.2.2.2.2.2.2.2.2.2.2.2.2.2.2.2.1 0 true 1 { base with time := { domains := [(0, { ticks := 1, lastTick := 100000000, lastClock := clockNow base })] } }) ∧
    opens (h.2.2.2.2.2.2.2.2.2.2.2.2.2.2.2.2.2.2.2.2.2.1 0 0 base) ∧
    (∃ t, opens5 (h.2.2.2.2.2.2.2.2.2.2.2.2.2.2.2.2.2.2.2.2.2.2.1 0 (hd 1 2) 0 closing t t)) ∧
    opens (h.2.2.2.2.2.2.2.2.2.2.2.2.2.2.2.2.2.2.2.2.2.2.2.1 { base with uploads := [(hd 1 2, upload1)] }) ∧
    opens2 (h.2.2.2.2.2.2.2.2.2.2.2.2.2.2.2.2.2.2.2.2.2.2.2.2 base) :=
  ⟨⟨isAlone rfl, by decide, rfl, rfl⟩, ⟨isAlone rfl, rfl, by decide⟩, ⟨isAlone rfl, rfl, .inl rfl, rfl⟩,
   ⟨isAlone rfl, rfl, .inr rfl, rfl, rfl⟩, ⟨_, rfl, rfl, rfl, rfl, by decide, rfl, rfl, rfl, rfl⟩, .inr rfl,
   ⟨_, _, _, rfl, rfl, rfl, rfl, rfl, rfl⟩, sure rfl, rfl, ⟨_, rfl, rfl, rfl, rfl, rfl⟩, .inl rfl,
   ⟨by decide +kernel, by decide +kernel⟩⟩

/-- An audio input on the link stream, G.711 or not, and an audio output on port 16 with two channels. -/
def input1 : AudioIn := { owner := 0, kind := 1, channels := 2, fs := 0, ptime125 := false, l16 := false, flow := none, first := 0 }
def output1 : AudioOut := { owner := 0, channels := 2, ptime125 := false, first := 0, chans := [(0, {}), (1, {})] }
def hearing (i : AudioIn) : State := { withSources with audio := { inputs := [(hd 1 1, i)] } }
def sounding : State := { withSources with
  audio := { inputs := [(hd 1 1, input1)], outputs := [(0x10000010, output1)] }
  eth := { flows := [(1, { owner := 0, tx := false, essence := 1 })] } }
/-- The output while a sample that 20 dB of gain makes too large leaves its delay line. -/
def loud : AudioOut := { output1 with chans := [(0, { cfg := { gain := 200 }, delay := 1, line := [1000000] })] }
def sounding2 : State := { sounding with audio := { outputs := [(0x10000010, loud)] } }
def movingAt (t : Nat) : State := { base with audio := { moving := some (15, t) } }

/-- A list with one candidate, and the selector in a state of its own. -/
def listing (x : Candidate) : State := { base with time := { list := [(7, x)] } }
def timing (t : Timebase) : State := { base with time := t }
def refin : Candidate := { enable := true, kind := 1, port := 3, rate := 8, qualified := true }
def refin2 : Candidate := { refin with kind := 2 }
/-- A PTP candidate that has heard one master, 5, whose Sync with sequence number 9 awaits its Follow_Up. -/
def ptp3 : Candidate := { refin with kind := 3, ptpDomain := 127, masters := [(5, [])], syncDue := some 9 }

theorem meets_AudioCommands (h : Obligations.AudioCommands) :
    runs (h.1 linkSource 0) 0 (cmd 12 [0x01000001, 0x101, 0xFFFF]) withSources ∧
    runs (h.2.1 2) 0 (cmd 12 [0, 0x13, 1]) sounding ∧
    runs (h.2.2.1 linkSource input1) 0 (cmd 4 [0x01000001]) sounding ∧
    runs (h.2.2.2.1 0) 0 (cmd 8 [0x10000070, 16]) withSources ∧
    runs (h.2.2.2.2.1 output1) 0 (cmd 4 [0x10000010]) sounding ∧
    runs (h.2.2.2.2.2.1 output1) 0 (cmd 28 [0x10000010, 0x2040, 0x01000001, 0, 0x10000000]) sounding ∧
    runs (h.2.2.2.2.2.2.1 linkSource input1) 0 (cmd 8 [0x01000001, 1]) sounding ∧
    runs (h.2.2.2.2.2.2.2.1 output1) 0 (cmd 8 [0x10000010, 1]) sounding ∧
    runs h.2.2.2.2.2.2.2.2 0 (cmd 4 [15]) sounding :=
  ⟨meets rfl ⟨by decide, ⟨⟨rfl, rfl⟩, .inl rfl⟩, by unfold InputFits; decide +kernel, rfl, by decide +kernel⟩,
   meets rfl ⟨by decide, by unfold InputFits; decide +kernel, by decide +kernel⟩,
   meets rfl ⟨⟨⟨rfl, rfl⟩, .inl rfl⟩, rfl⟩,
   meets rfl ⟨⟨by decide, by decide, by decide, by rw [if_pos (by decide)]; decide +kernel, by decide +kernel, rfl⟩, by decide +kernel⟩,
   meets rfl ⟨rfl, .inl rfl, rfl⟩, meets rfl ⟨⟨rfl, .inl rfl, rfl⟩, by decide +kernel⟩,
   meets rfl ⟨by decide, ⟨rfl, rfl⟩, rfl⟩, meets rfl ⟨by decide, rfl, .inl rfl, rfl⟩, meets rfl trivial⟩

theorem meets_AudioEvents (h : Obligations.AudioEvents) :
    opens3 (h.1 0x01000001 { pt := 9 } { input1 with kind := 4 } (hearing { input1 with kind := 4 })) ∧
    opens (h.2.1 0x01000001 {} input1 (hearing input1) _ rfl (.inl (by decide)) rfl).1 ∧
    opens (h.2.1 0x01000001 {} { input1 with gap := true } (hearing { input1 with gap := true }) _ rfl (.inl (by decide)) rfl).2 ∧
    opens (h.2.2.1 0x01000001 base) ∧ opens (h.2.2.2.1 0x01000001 input1 (hearing input1)) ∧
    opens (h.2.2.2.1 0x01000001 { input1 with gap := true } (hearing { input1 with gap := true }) rfl).1 ∧
    opens2 (h.2.2.2.1 0x01000001 input1 (hearing input1) rfl).2.1 ∧
    opens3 ((h.2.2.2.1 0x01000001 { input1 with missedAt := some 9 } (hearing { input1 with missedAt := some 9 }) rfl).2.2.1 9) ∧
    opens (h.2.2.2.1 0x01000001 input1 (hearing input1) rfl).2.2.2.1 ∧
    opens2 ((h.2.2.2.1 0x01000001 { input1 with gap := true, resumeFrom := some 9 } (hearing { input1 with gap := true, resumeFrom := some 9 }) rfl).2.2.2.2.1 9) ∧
    opens (h.2.2.2.1 0x01000001 input1 (hearing input1) rfl).2.2.2.2.2.1 ∧
    opens (h.2.2.2.1 0x01000001 { input1 with locked := false } (hearing { input1 with locked := false }) rfl).2.2.2.2.2.2.1 ∧
    opens (h.2.2.2.2.1 base) ∧ opens2 (h.2.2.2.2.2.1 15 99999000 (movingAt 99999000)) ∧
    opens (h.2.2.2.2.2.2.1 0x10000010 63 output1 sounding) ∧ opens (h.2.2.2.2.2.2.2.1 0x10000010 base) ∧
    opens4 (h.2.2.2.2.2.2.2.2 0x10000010 output1 48 0 0 sounding sounding) ∧
    (∃ t, opens2 (h.2.2.2.2.2.2.2.2 0x10000010 output1 48 0 0 sounding t rfl rfl (by decide +kernel) rfl).1) ∧
    (∃ t, opens3 (h.2.2.2.2.2.2.2.2 0x10000010 loud 48 1 0 sounding2 t rfl rfl (by decide +kernel) rfl).2) :=
  ⟨⟨rfl, rfl, by decide⟩, rfl, rfl, rfl, rfl, rfl, ⟨rfl, nofun⟩, ⟨rfl, rfl, nofun⟩, rfl, ⟨rfl, rfl⟩, rfl, rfl, rfl,
   ⟨rfl, by decide⟩, rfl, rfl, ⟨rfl, rfl, by decide +kernel, rfl⟩, ⟨_, rfl, .inl rfl⟩, ⟨_, rfl, by decide, nofun⟩⟩

theorem meets_TimingCommands (h : Obligations.TimingCommands) :
    runs h.1 0 (cmd 12 [0x1F, 0x83]) base ∧ runs h.1 0 (cmd 12 [0x48, 0, 0x01000001]) withSources ∧
    runs h.2.1 0 (cmd 16 [0x1F, 600, 1000, 500]) base ∧
    runs (h.2.2.1 (domainGet base 15) 1000) 0 (cmd 8 [0x8F, 1000]) base ∧
    runs (h.2.2.2.1 (-16)) 0 (cmd 12 [0x303, 0xFFFFFFF0, 16]) base ∧ runs h.2.2.2.2.1 1 (cmd 4 [0]) base ∧
    runs h.2.2.2.2.2.1 0 (cmd 4 [0]) (timing { selected := some 7 }) ∧
    runs (h.2.2.2.2.2.2.1 (domainGet base 15)) 0 (cmd 4 [0xF1]) base ∧ turns h.2.2.2.2.2.2.2 1 (cmd 4 [0xF1]) base :=
  ⟨meets rfl ⟨by decide, by decide, by decide, by decide, by decide, by decide, fun q => absurd q (by decide)⟩,
   meets rfl ⟨by decide, by decide, by decide, by decide, by decide, by decide, fun _ => ⟨rfl, linkSource, rfl, .inl ⟨2, 0, 1, rfl⟩⟩⟩,
   meetsb rfl, meets rfl ⟨rfl, by decide, by decide, by decide, .inl rfl⟩,
   meets rfl ⟨by decide, by decide, by decide, by decide +kernel, by decide⟩, meetsb rfl, meetsb rfl, meetsb rfl,
   meetsb (by decide +kernel)⟩

theorem meets_TimingEvents (h : Obligations.TimingEvents) :
    opens5 (h.1 7 refin (listing refin)) ∧ opens (h.2.1 0 base) ∧
    opens6 (h.2.2.1 7 { refin with qualified := false } (listing { refin with qualified := false })) ∧
    opens (h.2.2.2.1 7 (listing { refin with cleanSince := 95000000 })) :=
  ⟨⟨rfl, rfl, by decide, by decide, by decide⟩, .inl rfl, ⟨rfl, rfl, by decide, by decide, rfl, by decide +kernel⟩,
   by show _ < _; decide +kernel⟩

theorem meets_TimingEvents_2 (h : Obligations.TimingEvents) :
    opens (h.2.2.2.2.1 3 false 0 7 refin (listing refin)) ∧
    opens2 (h.2.2.2.2.1 3 false 0 7 refin (listing refin) rfl).1 ∧
    opens2 (h.2.2.2.2.1 3 true 0 7 refin (listing refin) rfl).2.1 ∧
    opens3 (h.2.2.2.2.1 3 false 50 7 refin2 (listing refin2) rfl).2.2.1 ∧
    opens2 (h.2.2.2.2.1 3 true 50 7 refin2 (listing refin2) rfl).2.2.2 ∧ opens (h.2.2.2.2.2.1 7 {} (listing refin)) :=
  ⟨rfl, ⟨rfl, rfl⟩, ⟨rfl, by decide⟩, ⟨rfl, rfl, rfl⟩, ⟨rfl, rfl⟩, by show ∀ e ∈ [(7, refin)], e.2.kind ≠ 3; decide⟩

theorem meets_TimingEvents_3 (h : Obligations.TimingEvents) :
    opens (h.2.2.2.2.2.2.1 3 { domain := 127 } 7 ptp3 (listing ptp3)) ∧
    opens (h.2.2.2.2.2.2.1 3 { domain := 127 } 7 ptp3 (listing ptp3) rfl).1 ∧
    opens2 (h.2.2.2.2.2.2.1 3 { domain := 127, type := 1 } 7 ptp3 (listing ptp3) rfl).2.1 ∧
    opens3 (h.2.2.2.2.2.2.1 3 { domain := 127, type := 1, sender := 5, twoStep := true } 7 ptp3 (listing ptp3) rfl).2.2.1 ∧
    opens2 (h.2.2.2.2.2.2.1 3 { domain := 127, type := 2, sender := 5, seq := 8 } 7 ptp3 (listing ptp3) rfl).2.2.2.1 ∧
    opens2 (h.2.2.2.2.2.2.1 3 { domain := 127, type := 1, sender := 5 } 7 ptp3 (listing ptp3) rfl).2.2.2.2 ∧
    opens2 (h.2.2.2.2.2.2.1 3 { domain := 127, type := 2, sender := 5, seq := 9 } 7 ptp3 (listing ptp3) rfl).2.2.2.2 :=
  ⟨rfl, rfl, sure rfl, sure rfl, sure rfl, sure rfl, sure rfl⟩

theorem meets_TimingEvents_4 (h : Obligations.TimingEvents) :
    opens (h.2.2.2.2.2.2.2.1 State.reset) ∧
    opens5 (h.2.2.2.2.2.2.2.2.1 (timing { list := [(7, refin)], selected := some 7 }) (applyQuals (rebaseSlew (timing { list := [(7, refin)], selected := some 7 }))) 7) :=
  ⟨rfl, ⟨rfl, rfl, rfl, rfl, rfl⟩⟩

theorem meets_TimingEvents_5 (h : Obligations.TimingEvents) :
    (∃ u, opens6 (h.2.2.2.2.2.2.2.2.2.1 (listing refin) (applyQuals (rebaseSlew (listing refin))) u 7)) ∧
    opens2 (h.2.2.2.2.2.2.2.2.2.2.1 (timing { state := 1, phaseErr := 1, slewStart := 100000000 })) :=
  ⟨⟨_, rfl, rfl, rfl, rfl, rfl, rfl⟩, ⟨rfl, by decide⟩⟩

theorem meets_TimingEvents_6 (h : Obligations.TimingEvents) :
    opens (h.2.2.2.2.2.2.2.2.2.2.2.1 (timing { state := 1, phaseErr := 2, slewStart := 100000000 })) ∧
    (∃ t, opens4 (h.2.2.2.2.2.2.2.2.2.2.2.2.1 (timing { state := 2, lockedSince := 40000000 }) t)) ∧
    opens (h.2.2.2.2.2.2.2.2.2.2.2.2.2 5 (timing { holdover := some 5 })) :=
  ⟨sure rfl, ⟨_, rfl, rfl, by decide, rfl⟩, rfl⟩

/-- One link port in a state of its own, a control block and a message with good checks, an own record. -/
def atPort (p : Nat) (x : Port) : State := { base with ports := [(p, x)] }
def ctl (bs : List Byte) : CtlBlock := { wire := scrambled 0 (ctlPayload bs) }
def msg (t : Byte) (l : List Byte) : BackMsg := { type := t, payload := l, crc := msgCrc { type := t, payload := l } }
def up (st : Nat) : Port := { mode := 1, lanes := 15, state := st, since := 100000000, retry := 3, lastBack := 100000000 }
def caps : List Word := [0x474C0201, 0x7BFF, 0x774, 995328, 0x10E01E00, 0x10FFE, 0x710, 150, 0, 0]

/-- A stream on sub-stream 0 of port 2, lane 0. -/
def streaming (st : StreamState) (x : Port) : State := { base with
  ports := [(2, x)], sources := [(hd 1 1, { kind := .link 2 0 1, state := st, fmt := formatOf 0x02D00500 8 0xF000 })] }

/-- Ethernet: one entry and two flows on port 0, a pair, a next hop. -/
def addr0 : Addr := { port := 0, udp := 5000, dst := 0xE0000001 }
def entry0 : Entry := { h265 := true, videoPt := 96, addr := addr0, maxKbps := 1000 }
def rx0 : Flow := { owner := 0, tx := false, essence := 0, addr := addr0 }
def anc0 : Flow := { owner := 0, tx := true, essence := 2, addr := addr0 }
def ethAt (e : Ethernet) : State := { base with eth := e }
def withEth : State := { base with
  sources := [(hd 1 4, { kind := .entry })], nextIndex := [(1, 5)]
  eth := { ports := [(0, { mode := 1, linkUp := true })], entries := [(hd 1 4, entry0)], flows := [(3, rx0), (200, anc0)] } }
def pairAt (y : Yoyo) : State := ethAt { ports := [(0, { mode := 1, linkUp := true }), (1, { mode := 1, linkUp := true })], pairs := [(0, y)] }
def pairRx (y : Yoyo) : State := ethAt { ports := [(0, { mode := 1, linkUp := true }), (1, { mode := 1, linkUp := true })], pairs := [(0, y)], entries := [(hd 1 4, { entry0 with addr := { addr0 with port := 8 } })] }
def hop0 : NextHop := { port := 0, address := 0x0A000001, mac := some 1 }
def pairTx (y : Yoyo) : State := ethAt { ports := [(0, { mode := 1, linkUp := true, ipv4 := 0x0A000002, prefixLen := 24 })], pairs := [(0, y)], hops := [hop0], flows := [(200, { anc0 with addr := { addr0 with port := 8, dst := 0x0A000001 } })] }
def packet0 : EthPacket := { dst := 0xE0000001, udp := 5000 }

/-- One packet for flow 200. -/
def ancBlock : List Word := 0x100C8 :: List.replicate 132 0
def ancCtx : Ctx := { page := 0, tag := 7, body := ancBlock, len := (bytesOf ancBlock).length, bulk := true }
theorem anc_fetched : fetchBulk (some specSendAnc) (bulk 532) (inHost ancBlock withEth) =
    some (some (bytesOf ancBlock)) := fetched (by decide +kernel) ⟨rfl, rfl⟩ (by decide +kernel) (by decide +kernel) (by decide +kernel)
theorem anc_words : wordsOf (bytesOf ancBlock) = ancBlock := by decide +kernel
theorem anc_passes : checkDesc 0 specSendAnc.op (some specSendAnc) (bulk 532) (some (some (bytesOf ancBlock))) ancBlock
    (box (inHost ancBlock withEth) 0) = none := by decide +kernel

theorem meets_LinkCommands (h : Obligations.LinkCommands) :
    runs (h.1 1 (portGet base 1)) 0 (cmd 8 [0xF021]) base ∧ runs (h.2.1 1) 0 (cmd 4 [1]) (atPort 1 (up 5)) ∧
    turns (h.2.2.1 1) 0 (cmd 4 [1]) base ∧ runs (h.2.2.2.1 1) 0 (cmd 8 [0x201, 1]) base ∧
    runs (h.2.2.2.2.1 1) 0 (cmd 8 [0x0F21]) (atPort 1 (up 5)) ∧
    runs (h.2.2.2.2.2.1 1) 0 (cmd 8 [0x0F01]) (atPort 1 (up 5)) ∧ runs (h.2.2.2.2.2.2.1 1) 0 (cmd 4 [0x201]) base ∧
    runs (h.2.2.2.2.2.2.2.1 1 caps) 0 (cmd 4 [1]) (atPort 1 { up 5 with record := some caps }) ∧
    turns (h.2.2.2.2.2.2.2.2 1) 0 (cmd 4 [1]) base :=
  ⟨meets rfl ⟨rfl, rfl, .inl rfl, by unfold portMoves; decide +kernel⟩, meets rfl ⟨⟨rfl, .inl rfl⟩, by decide⟩,
   meets rfl ⟨⟨rfl, .inl rfl⟩, by decide⟩, meets rfl ⟨⟨rfl, .inl rfl⟩, by decide⟩,
   meets rfl ⟨⟨rfl, .inl rfl⟩, by unfold TestFits; decide +kernel, by decide, rfl, rfl⟩,
   meets rfl ⟨⟨rfl, .inl rfl⟩, by unfold TestFits; decide +kernel, by decide, rfl, rfl⟩,
   meets rfl ⟨⟨rfl, .inl rfl⟩, rfl⟩, meets rfl ⟨⟨rfl, .inl rfl⟩, rfl, rfl⟩, meets rfl ⟨⟨rfl, .inl rfl⟩, rfl, rfl⟩⟩

theorem meets_LinkPortEvents (h : Obligations.LinkPortEvents) :
    opens3 (h.1 1 (up 0) (atPort 1 (up 0))) ∧ opens (h.1 1 (up 0) (atPort 1 (up 0)) rfl rfl rfl).1 ∧
    opens (h.1 1 (up 7) (atPort 1 (up 7)) rfl rfl rfl).2.1 ∧
    opens2 (h.1 1 (up 5) (atPort 1 (up 5)) rfl rfl rfl).2.2 ∧
    opens5 (h.2.1 1 (ctl [0x2D]) 15 (up 1) (atPort 1 (up 1)) (sendStatus 1 (portPut 1 { up 1 with locked := 15 &&& (up 1).lanes } (atPort 1 (up 1))))) ∧
    opens2 (h.2.2.1 1 (atPort 1 (up 2))) ∧ opens (h.2.2.2.1 1 base) ∧
    opens3 (h.2.2.2.2.1 1 (ctl [0x33]) true (up 3) (atPort 1 (up 3))) ∧
    opens (h.2.2.2.2.1 1 (ctl [0x33]) true (up 6) (atPort 1 (up 6)) rfl (by unfold Hears; decide +kernel) rfl).1 :=
  ⟨⟨rfl, rfl, rfl⟩, rfl, rfl, ⟨by decide, by decide⟩, ⟨rfl, by unfold Hears; decide +kernel, rfl, rfl, rfl⟩,
   ⟨rfl, rfl⟩, by show (portGet base 1).state ≠ 2; decide, ⟨rfl, by unfold Hears; decide +kernel, rfl⟩, rfl⟩

theorem meets_LinkPortEvents_2 (h : Obligations.LinkPortEvents) :
    opens2 (h.2.2.2.2.1 1 (ctl [0x33]) false (up 3) (atPort 1 (up 3)) rfl (by unfold Hears; decide +kernel) rfl).2.1 ∧
    opens3 (h.2.2.2.2.1 1 (ctl [0x33]) true (up 3) (atPort 1 (up 3)) rfl (by unfold Hears; decide +kernel) rfl).2.2.1 ∧
    opens3 (h.2.2.2.2.1 1 (ctl [0x33]) true { up 3 with alignSeen := 1 } (atPort 1 { up 3 with alignSeen := 1 }) rfl (by unfold Hears; decide +kernel) rfl).2.2.2.1 ∧
    opens2 (h.2.2.2.2.1 1 (ctl [0x33]) true (up 5) (atPort 1 (up 5)) rfl (by unfold Hears; decide +kernel) rfl).2.2.2.2 ∧
    opens7 (h.2.2.2.2.2.1 17 1 (up 5) 1 (atPort 17 (up 5))) ∧
    opens (h.2.2.2.2.2.2.1 1 (ctl [0x4B, 0, 3]) (atPort 1 (up 4))) ∧
    opens3 (h.2.2.2.2.2.2.2.1 17 (msg 2 [3, 1, 2, 3, 4, 5, 6, 7, 8, 9, 10]) (atPort 17 (up 4))) ∧
    opens7 (h.2.2.2.2.2.2.2.2.1 17 (msg 1 [0x40, 5]) (atPort 17 (up 5))) ∧
    opens5 (h.2.2.2.2.2.2.2.2.2.1 17 (msg 1 [1, 0]) (atPort 17 (up 0))) :=
  ⟨⟨rfl, rfl⟩, ⟨rfl, rfl, rfl⟩, ⟨rfl, rfl, by decide⟩, ⟨by decide, by decide⟩,
   ⟨rfl, rfl, rfl, by decide, by decide, rfl, rfl⟩, by show Hears _ _ _ _; unfold Hears; decide +kernel,
   ⟨by unfold HearsMsg; decide +kernel, rfl, rfl⟩,
   ⟨by unfold HearsMsg; decide +kernel, rfl, rfl, rfl, .inl rfl, by decide, by decide⟩,
   ⟨by unfold HearsMsg; decide +kernel, rfl, rfl, rfl, rfl⟩⟩

theorem meets_LinkPortEvents_3 (h : Obligations.LinkPortEvents) :
    opens (h.2.2.2.2.2.2.2.2.2.2.1 1 (ctl [0x2D]) {} base) ∧
    opens3 (h.2.2.2.2.2.2.2.2.2.2.2.1 1 { ctl [0x4B] with header := 3 } (atPort 1 (up 5))) ∧
    opens3 (h.2.2.2.2.2.2.2.2.2.2.2.2.2.1 17 (atPort 17 { up 5 with lastBack := 99999000 })) ∧
    opens2 (h.2.2.2.2.2.2.2.2.2.2.2.2.2.2.1 1 (atPort 1 { up 1 with since := 99998000 })) ∧
    opens (h.2.2.2.2.2.2.2.2.2.2.2.2.2.2.2.1 1 base) ∧
    opens4 (h.2.2.2.2.2.2.2.2.2.2.2.2.2.2.2.2.1 1 { up 8 with since := 99999000 } (atPort 1 { up 8 with since := 99999000 })) ∧
    opens (h.2.2.2.2.2.2.2.2.2.2.2.2.2.2.2.2.1 1 { up 8 with since := 99999000, attempts := 2 } (atPort 1 { up 8 with since := 99999000, attempts := 2 }) rfl (by decide) rfl (by decide)).1 ∧
    opens2 (h.2.2.2.2.2.2.2.2.2.2.2.2.2.2.2.2.1 1 { up 8 with since := 99999000, attempts := 3 } (atPort 1 { up 8 with since := 99999000, attempts := 3 }) rfl (by decide) rfl (by decide)).2 ∧
    opens3 (h.2.2.2.2.2.2.2.2.2.2.2.2.2.2.2.2.2.1 1 (atPort 1 { up 5 with since := 90000000 })) ∧
    opens3 (h.2.2.2.2.2.2.2.2.2.2.2.2.2.2.2.2.2.2.1 1 (ctl [0xA5, 0, 1]) (atPort 1 { up 5 with subs := [(0, { inFrame := true })] })) :=
  ⟨rfl, ⟨by decide, rfl, .inr rfl⟩, ⟨rfl, by decide, by decide⟩, ⟨rfl, by decide +kernel⟩, rfl,
   ⟨rfl, by decide, rfl, by decide⟩, .inr (by decide), ⟨by decide, by decide⟩, ⟨rfl, by decide, by decide⟩,
   ⟨by unfold Hears; decide +kernel, rfl, ⟨_, List.mem_singleton.2 rfl, rfl⟩⟩⟩

theorem meets_LinkPortEvents_4 (h : Obligations.LinkPortEvents) :
    opens5 (h.2.2.2.2.2.2.2.2.2.2.2.2.2.2.2.2.2.2.2.1 1 (ctl [0xA5, 0, 1]) { up 5 with record := some caps, allowLow1 := true } caps (atPort 1 { up 5 with record := some caps, allowLow1 := true })) ∧
    opens3 (h.2.2.2.2.2.2.2.2.2.2.2.2.2.2.2.2.2.2.2.1 1 (ctl [0xA5, 0, 1]) { up 5 with record := some caps, allowLow1 := true } caps (atPort 1 { up 5 with record := some caps, allowLow1 := true }) rfl (by unfold Hears; decide +kernel) rfl (fun _ he => (nomatch he)) rfl).1 ∧
    opens3 (h.2.2.2.2.2.2.2.2.2.2.2.2.2.2.2.2.2.2.2.1 1 (ctl [0xA5, 0, 2]) { up 5 with record := some caps, allowLow2 := true } caps (atPort 1 { up 5 with record := some caps, allowLow2 := true }) rfl (by unfold Hears; decide +kernel) rfl (fun _ he => (nomatch he)) rfl).2.1 ∧
    opens2 (h.2.2.2.2.2.2.2.2.2.2.2.2.2.2.2.2.2.2.2.1 1 (ctl [0xA5, 0, 1]) { up 5 with record := some caps } caps (atPort 1 { up 5 with record := some caps }) rfl (by unfold Hears; decide +kernel) rfl (fun _ he => (nomatch he)) rfl).2.2 :=
  ⟨⟨rfl, by unfold Hears; decide +kernel, rfl, fun _ he => (nomatch he), rfl⟩, ⟨by decide +kernel, rfl, rfl⟩,
   ⟨by decide +kernel, rfl, rfl⟩, ⟨fun _ => rfl, fun _ => rfl⟩⟩

theorem meets_LinkPortEvents_5 (h : Obligations.LinkPortEvents) :
    (∃ t, opens8 (h.2.2.2.2.2.2.2.2.2.2.2.2.2.2.2.2.2.2.2.2.1 17 (msg 3 [1]) { up 5 with lpRequest := 1 } (atPort 17 { up 5 with lpRequest := 1 }) t)) ∧
    opens2 (h.2.2.2.2.2.2.2.2.2.2.2.2.2.2.2.2.2.2.2.2.2.1 17 (msg 4 [1]) (atPort 17 { up 5 with lpRequest := 1 })) ∧
    opens3 (h.2.2.2.2.2.2.2.2.2.2.2.2.2.2.2.2.2.2.2.2.2.2.1 17 (atPort 17 { up 5 with low2Idle := 100 })) ∧
    opens3 (h.2.2.2.2.2.2.2.2.2.2.2.2.2.2.2.2.2.2.2.2.2.2.2 1 0 { up 1 with test := true, testLanes := 15 } (atPort 1 { up 1 with test := true, testLanes := 15 })) ∧
    opens (h.2.2.2.2.2.2.2.2.2.2.2.2.2.2.2.2.2.2.2.2.2.2.2 1 0 { up 1 with test := true, testLanes := 15 } (atPort 1 { up 1 with test := true, testLanes := 15 }) rfl rfl rfl).1 ∧
    opens2 ((h.2.2.2.2.2.2.2.2.2.2.2.2.2.2.2.2.2.2.2.2.2.2.2 1 0 { up 1 with test := true, prbsSync := 1 } (atPort 1 { up 1 with test := true, prbsSync := 1 }) rfl rfl rfl).2.1 129 5) ∧
    opens ((h.2.2.2.2.2.2.2.2.2.2.2.2.2.2.2.2.2.2.2.2.2.2.2 1 0 { up 1 with test := true, prbsSync := 1 } (atPort 1 { up 1 with test := true, prbsSync := 1 }) rfl rfl rfl).2.2 128 5) :=
  ⟨⟨_, rfl, by unfold HearsMsg; decide +kernel, rfl, rfl, rfl, by decide, rfl, rfl⟩,
   ⟨by unfold HearsMsg; decide +kernel, rfl⟩, ⟨by decide, rfl, by decide⟩, ⟨rfl, rfl, rfl⟩, rfl, ⟨rfl, by decide⟩,
   by show (128 : BitVec 32).toNat ≤ 128; decide⟩

theorem meets_LinkStreamEvents (h : Obligations.LinkStreamEvents) :
    opens (h.1 2 (ctl [0x55]) (hd 1 1) (streaming .waiting (up 5))) ∧
    (∃ t, opens2 (h.2.1 2 (ctl [0x66]) [] true (hd 1 1) (streaming .running (up 5)) t)) ∧
    opens2 (h.2.2.1 2 (ctl [0x66]) [{ header := 1 }] false (hd 1 1) (streaming .running (up 5))) ∧
    opens (h.2.2.2.1 2 (ctl [0x78]) (hd 1 1) (streaming .running (up 5))) ∧
    opens2 (h.2.2.2.2.1 2 (ctl [0x87]) [] (hd 1 1) (streaming .stopped (up 5))) ∧
    opens3 (h.2.2.2.2.2.1 2 (ctl [0x87]) [] (unpack [] 10 1) (hd 1 1) (streaming .running (up 5))) ∧
    opens (h.2.2.2.2.2.2.1 2 (ctl [0x96]) [] (hd 1 1) (streaming .running (up 5))) ∧
    opens (h.2.2.2.2.2.2.2.1 2 (ctl [0x55]) [] false base) ∧
    opens2 (h.2.2.2.2.2.2.2.2.1 2 (ctl [0x55]) (streaming .waiting (up 1))) :=
  ⟨by show Carries _ _ _ _ _; unfold Carries Hears; decide +kernel,
   ⟨_, by unfold Carries Hears; decide +kernel, rfl⟩, ⟨by unfold Carries Hears; decide +kernel, by decide +kernel⟩,
   by show Carries _ _ _ _ _; unfold Carries Hears; decide +kernel, ⟨by unfold Carries Hears; decide +kernel, rfl⟩,
   ⟨by unfold Carries Hears; decide +kernel, by decide, by decide +kernel⟩,
   by show Carries _ _ _ _ _; unfold Carries Hears; decide +kernel, rfl,
   ⟨⟨0x55, by decide, by unfold Hears; decide +kernel⟩, by decide⟩⟩

theorem meets_EthernetCommands (h : Obligations.EthernetCommands) :
    runs h.1 0 (cmd 48 [0x11, 0x0A000001, 24]) base ∧
    runs h.2.1 0 (cmd 48 [192, 0, 5000, 0xE0000001, 0, 0, 0, 0, 0, 0, 0, 1000]) withEth ∧
    runs (h.2.2.1 { kind := .entry } entry0) 0 (cmd 4 [0x01000004]) withEth ∧
    runs (h.2.2.2.1 { kind := .entry } entry0) 0 (cmd 32 [0x01000004]) withEth ∧
    runs (h.2.2.2.2.1 { kind := .entry } entry0) 0 (cmd 32 [0x01000004, 1, 0, 5000, 0xE0000001]) withEth ∧
    runs h.2.2.2.2.2.1 0 (cmd 44 [5, 0, 5000, 0xE0000001]) withEth :=
  ⟨meetsb (by decide +kernel), meets rfl ⟨by unfold EntryFits; decide +kernel, by decide +kernel⟩,
   meets rfl ⟨⟨⟨rfl, rfl⟩, .inl rfl⟩, rfl⟩, meets rfl ⟨⟨⟨rfl, rfl⟩, .inl rfl⟩, rfl, by decide⟩,
   meets rfl ⟨⟨⟨rfl, rfl⟩, .inl rfl⟩, rfl, ⟨1, by decide, by decide⟩, by decide +kernel⟩,
   meets rfl ⟨⟨by decide, by decide +kernel, rfl, by decide +kernel, fun q => absurd q (by decide), fun q => absurd q (by decide), fun q => absurd q (by decide)⟩, by decide +kernel⟩⟩

theorem meets_EthernetCommands_2 (h : Obligations.EthernetCommands) :
    runs (h.2.2.2.2.2.2.1 anc0) 0 (cmd 4 [200]) withEth ∧
    runs (h.2.2.2.2.2.2.2.1 rx0 (groupNow false rx0.addr rx0.src (taken 0 (cmd 4 [3]) withEth))) 0 (cmd 4 [3]) withEth ∧
    turns (h.2.2.2.2.2.2.2.2.1 { rx0 with essence := 2 }) 0 (cmd 4 [3]) { withEth with eth := { withEth.eth with flows := [(3, { rx0 with essence := 2 })] }, sources := [(hd 1 2, { kind := .st2110 0 false (some 3) })] } ∧
    runs h.2.2.2.2.2.2.2.2.2.1 0 (cmd 12 [0]) base ∧
    runs (h.2.2.2.2.2.2.2.2.2.2.1 (pairPut 0 { (pairGet base 0) with criteria := 3, silenceMs := 200, holdoffS := 30, effHoldoff := 30 } (taken 0 (cmd 12 [4]) base))) 0 (cmd 12 [4]) base ∧
    runs (h.2.2.2.2.2.2.2.2.2.2.2.1 0 2 (evaluatePair 0 (taken 0 (cmd 4 [4]) (pairAt { state := 1 })))) 0 (cmd 4 [4]) (pairAt { state := 1 }) ∧
    turns h.2.2.2.2.2.2.2.2.2.2.2.2.1 0 (cmd 4 [4]) base ∧
    runs (h.2.2.2.2.2.2.2.2.2.2.2.2.2.1 (pairGet base 0)) 0 (cmd 4 [8]) base ∧
    runs (h.2.2.2.2.2.2.2.2.2.2.2.2.2.2.1 (ethGet base 0) (Config.macAddress 0 0)) 0 (cmd 4 [0]) base ∧
    runs h.2.2.2.2.2.2.2.2.2.2.2.2.2.2.2.1 1 (cmd 4 [0]) withEth :=
  ⟨meets rfl ⟨⟨rfl, .inl rfl⟩, by decide +kernel⟩, meets rfl ⟨⟨rfl, .inl rfl⟩, by decide +kernel, rfl, rfl⟩,
   meets rfl ⟨⟨rfl, .inl rfl⟩, rfl⟩, meetsb rfl,
   meets rfl ⟨by decide, by decide, by decide, by decide, by decide, rfl, rfl, rfl⟩,
   meets rfl ⟨rfl, rfl, by decide, rfl, fun _ => by decide +kernel⟩, meetsb rfl,
   meets rfl ⟨by decide, by decide, rfl, rfl⟩, meets rfl ⟨by decide, rfl, rfl, .inl rfl, .inl rfl⟩,
   meets rfl ⟨by decide, rfl, by decide, by decide +kernel, by decide +kernel⟩⟩

theorem meets_EthernetCommands_3 (h : Obligations.EthernetCommands) :
    (runs (h.2.2.2.2.2.2.2.2.2.2.2.2.2.2.2.2.1 anc0) 0 (bulk 532) (inHost ancBlock withEth) ∨ turns (h.2.2.2.2.2.2.2.2.2.2.2.2.2.2.2.2.2 anc0) 0 (bulk 532) (inHost ancBlock withEth)) :=
  (if e : ∀ a ∈ askedAnc ancCtx, a.did ≠ 0 ∧ a.sdid ≠ 0 then .inl (meets_block anc_fetched anc_words ⟨rfl, rfl, by decide⟩ anc_passes ⟨⟨rfl, .inl rfl⟩, rfl, rfl, by decide +kernel, by decide, by decide, e, by decide⟩) else .inr (meets_block anc_fetched anc_words ⟨rfl, rfl, by decide⟩ anc_passes ⟨⟨rfl, .inl rfl⟩, rfl, rfl, by decide +kernel, by decide, by decide, by by_contra q; exact e fun a ha => ⟨fun z => q ⟨a, ha, .inl z⟩, fun z => q ⟨a, ha, .inr z⟩⟩⟩))

theorem meets_EthernetEvents (h : Obligations.EthernetEvents) :
    opens (h.1 0 {} base) ∧ opens (h.1 1 { subport := 3 } withEth) ∧ opens2 (h.2.1 0 { length := 1523 } withEth) ∧
    opens5 (h.2.2.1 0 {} withEth) ∧
    opens7 (h.2.2.2.1 0 packet0 (hd 1 4) entry0 { withEth with eth := { withEth.eth with flows := [] } }) ∧
    opens2 (h.2.2.2.2.1 0 packet0 withEth) ∧
    opens (h.2.2.2.2.1 0 { packet0 with kind := .tcp } withEth (by decide) (by decide)).1 ∧
    opens ((h.2.2.2.2.1 0 { packet0 with kind := .solicit 1 } withEth (by decide) (by decide)).2 1) ∧
    opens3 (h.2.2.2.2.2.1 0 0 0 withEth (raise 96 0 (ethMod 0 (fun x => { x with linkUp := false }) withEth))) ∧
    opens (h.2.2.2.2.2.2.1 0 0 base) ∧ opens3 (h.2.2.2.2.2.2.2.1 0 0 0 (ethAt { ports := [(0, { mode := 1 })] })) ∧
    opens (h.2.2.2.2.2.2.2.2.1 0 0 base) ∧ (∃ t, opens4 (h.2.2.2.2.2.2.2.2.2.1 0 0 0 1 withEth t)) ∧
    opens4 (h.2.2.2.2.2.2.2.2.2.2.2.1 0 (pairRx { state := 1 })) ∧
    opens5 (h.2.2.2.2.2.2.2.2.2.2.2.2.1 0 0 (pairTx { state := 1, criteria := 7 })) :=
  ⟨.inl rfl, .inr (by decide), ⟨by decide, by decide⟩,
   ⟨by decide, by decide, rfl, by show ∀ e ∈ [(hd 1 4, entry0)], e.2.encoder = none → addrMatch withEth 0 e.2.addr e.2.src {} = false; decide +kernel, by show ∀ f ∈ [(3, rx0), (200, anc0)], f.2.tx = false → addrMatch withEth 0 f.2.addr f.2.src {} = false; decide +kernel⟩,
   ⟨by decide, by decide, rfl, rfl, rfl, by decide +kernel, rfl⟩, ⟨by decide, by decide⟩, rfl, rfl, ⟨rfl, rfl, rfl⟩,
   rfl, ⟨rfl, rfl, by decide⟩, .inr rfl, ⟨_, rfl, rfl, by decide, rfl⟩, ⟨.inl rfl, rfl, rfl, by decide +kernel⟩,
   ⟨rfl, by decide, rfl, by decide +kernel, by decide +kernel⟩⟩

theorem meets_EthernetEvents_2 (h : Obligations.EthernetEvents) :
    opens (h.2.2.2.2.2.2.2.2.2.2.2.2.2.1 0 base) ∧
    opens (h.2.2.2.2.2.2.2.2.2.2.2.2.2.2.1 0 (pairAt { state := 1 })) ∧
    opens (h.2.2.2.2.2.2.2.2.2.2.2.2.2.2.2.1 0 0 1 0 base) ∧
    (∃ t, opens4 (h.2.2.2.2.2.2.2.2.2.2.2.2.2.2.2.2.1 1 0 0x0A000001 5 1 { hop0 with port := 1 } (ethAt { hops := [{ hop0 with port := 1 }] }) t)) ∧
    opens2 (h.2.2.2.2.2.2.2.2.2.2.2.2.2.2.2.2.2.2.1 0 0 0x0A000001 0 hop0 (ethAt { hops := [hop0] })) ∧
    opens4 (h.2.2.2.2.2.2.2.2.2.2.2.2.2.2.2.2.2.2.2.1 0 70000000 (pairAt { state := 2, aCleanSince := some 70000000 })) ∧
    opens (h.2.2.2.2.2.2.2.2.2.2.2.2.2.2.2.2.2.2.2.2.1 0 base) ∧
    opens2 (h.2.2.2.2.2.2.2.2.2.2.2.2.2.2.2.2.2.2.2.2.2.1 0 (pairAt { state := 1 })) ∧
    opens4 (h.2.2.2.2.2.2.2.2.2.2.2.2.2.2.2.2.2.2.2.2.2.2 0 99000000 (pairAt { state := 3, reachA := some 99000000 })) :=
  ⟨rfl, rfl, rfl, ⟨_, rfl, rfl, rfl, by decide⟩, ⟨rfl, rfl⟩, ⟨rfl, rfl, by decide +kernel, by decide +kernel⟩, rfl,
   ⟨rfl, by decide +kernel⟩, ⟨rfl, rfl, by decide +kernel, by decide +kernel⟩⟩

/-- No PCIe error meets an access of a device whose link is up. -/
theorem reaches {s : State} (hs : s.sys.pcieUp = true ∧ s.dmaFaults = []) (a n : Nat) : Reaches s a n := by
  have hb : ∀ i, dmaBad s i = false := fun i => by simp [dmaBad, hs]
  have ht : (List.range n).takeWhile (fun i => !dmaBad s (a + i)) = List.range n := by
    rw [List.takeWhile_eq_self_iff]; simp [hb]
  show n ≤ dmaReach s a n
  rw [dmaReach, ht, List.length_range]

/-- A refusal with result words. -/
abbrev fails {i : Fin 16 → Desc → Instr} {sp : OpSpec} {pre : Ctx → State → Prop} {st : Status}
    {res : Ctx → State → List Word} (_ : RowFails i sp pre st res) (p : Fin 16) (d : Desc) (s : State) : Prop :=
  Meets sp pre p d s

/-- The pool with two drives, a recorded stream with a segment and a manifest, an encode context, and a key. -/
def key0 : KeySlot := { key := some 5, type := 1, policy := 7, owner := 0 }
def rec0 (st : Nat) : Recording := { owner := 0, streamId := 1, key := 0x07000000, state := st, nextManifest := 1 }
def seg0 : Segment := { stream := hd 6 1, chain := 0, drive := 0, slot := 0, group := 0, payload := 4, records := 1, flags := 0, hash := 0, bytes := [1, 2, 3, 4], written := true }
def man0 : Manifest := { stream := hd 6 1, seq := 0, first := 0, count := 1, words := [], drive := 0, drive2 := none }
def enc0 : EncodeCtx := { owner := 0, core := 0, h265 := true, td := 15, rate := 8, gop := 1, w := 640, h := 480, kbps := 1000, outPort := 0, outPt := 96, entry := hd 1 9 }
def pool0 (st : Nat) : Pool := { mounted := true, members := [0], drives := [(0, { state := 3, slots := 1000, segs := 100 }), (2, { state := 1, slots := 1000 })]
                                 streams := [(hd 6 1, rec0 st)], segments := [seg0], manifests := [man0], encodes := [(hd 9 1, enc0)] }
def pooled (q : Pool) : State := { base with pool := q, vault := { slots := [(0, key0)] } }
def recording (x : Recording) : State := pooled { pool0 1 with streams := [(hd 6 1, x)] }
def full0 : List (List Byte) × Nat × Nat := ([[1, 2, 3, 4]], 1, 0)
def ask0 : ManReq := { stream := hd 6 1, seq := 1, flags := 0, first := 0, hashes := [] }
def vaultAt (v : Vault) : State := { base with vault := v }
def signBlock : List Word := [0x07000000, 4096, 0, 1, 2, 3, 4, 5, 6, 7, 8, 9, 10, 11, 12]

theorem sign_fetched : fetchBulk (some specSignDigest) (bulk 60) (inHost signBlock (pooled (pool0 1))) =
    some (some (bytesOf signBlock)) := fetched (by decide +kernel) ⟨rfl, rfl⟩ (by decide +kernel) (by decide +kernel) (by decide +kernel)

/-- A member of a group on ring 0, with its ports up. -/
def ringPort0 : Port := { mode := 2, lanes := 15, state := 5, since := 100000000 }
def group0 (st : Nat) : Domino := { member := 1, count := 3, rings := 1, state := st, lastBeacon := 100000000, ringBeacon := [(0, 100000000)] }
def ringed (d : Domino) : State := { base with domino := d, ports := [(0, ringPort0), (16, ringPort0)] }
def solo (d : Domino) : State := { base with domino := d }
def heardBeacon (d : Domino) : State := setDomino { d with ringBeacon := tset d.ringBeacon 0 100000000, lastBeacon := 100000000 } (ringed d)
def leading : Domino := { group0 2 with member := 0 }
def exporting : State := { withSources with domino := { group0 2 with exports := [(3, { source := hd 1 1, peer := 0, owner := 0 })] } }
def importing : State := { base with sources := [(hd 1 1, { kind := .imported 0 5 0 })], domino := group0 2 }
def asked0 : Domino := askedGroup (ctxOf specSetDomino 0 (cmd 8 [0x109]) (solo {})) {}
def grouped : State := { base with ports := [(0, { mode := 2 })] }
def asking : State := solo { group0 2 with issued := [(1, 0)] }

theorem import_fields (o x ic r : Nat) : (importFmt o x ic r).ic = ic ∧ (importFmt o x ic r).ringDepth = r := by
  unfold importFmt
  dsimp only
  split <;> exact ⟨rfl, rfl⟩

/-- A ring grows by at most the slots asked for. -/
theorem tset_length {α : Type} (t : Tbl α) (k : Nat) (a : α) : (tset t k a).length ≤ t.length + 1 := by
  induction t with
  | nil => simp [tset]
  | cons e t ih =>
    unfold tset
    split <;> simp_all
    try split <;> simp_all

theorem addSlots_length (h : Handle) (g p : Nat) (x : Bool) (n : Nat) (s : State) :
    (addSlots h g p x n s).objects.length ≤ s.objects.length + n := by
  induction n generalizing s with
  | zero => exact Nat.le_refl _
  | succ n ih =>
    refine Nat.le_trans (ih _) ?_
    have h1 : (addSlot h g p x s).objects.length ≤ s.objects.length + 1 := by
      unfold addSlot
      split
      · omega
      · dsimp only [tickOrder]
        unfold setRing
        split <;> exact tset_length _ _ _
    omega

/-- Whatever format the peer's export has, the import on an idle device finds room or lacks a need. -/
theorem import_cases {c : Ctx} (hc : c.page = 0) (k : SrcKind) {f : Format} (hf : f.ic = 0 ∧ f.ringDepth = 4) {s : State}
    (hs : s = taken 0 (cmd 8 [0x500]) (solo (group0 2))) : (∃ u, StreamFits c k f u s) ∨
      ∃ n, quotaUse s c.page 4 < quotaOf s c.page 4 ∧
        (if f.ic = 15 then chooseIc s f = some 0 else icStreams s f.ic < 32 ∧ 0 = f.ic) ∧
        (makeSource c.page k f 0 s).2.objects.length ≤ 262144 ∧ shortfall s (makeSource c.page k f 0 s).2 = some n := by
  have hq : quotaUse s c.page 4 < quotaOf s c.page 4 := by rw [hc, hs]; decide +kernel
  have hi : if f.ic = 15 then chooseIc s f = some 0 else icStreams s f.ic < 32 ∧ 0 = f.ic := by
    rw [hf.1, hs, if_neg (by decide)]; decide +kernel
  have ho : (makeSource c.page k f 0 s).2.objects.length ≤ 262144 := by
    have h4 := addSlots_length (newHandle c.page 1 s).1 (footprint f) c.page false f.ringDepth
      (srcPut (newHandle c.page 1 s).1 { owner := c.page, kind := k, fmt := { f with ic := 0 }, ic := 0 } (newHandle c.page 1 s).2)
    have h0 : (srcPut (newHandle c.page 1 s).1 { owner := c.page, kind := k, fmt := { f with ic := 0 }, ic := 0 }
      (newHandle c.page 1 s).2).objects.length = 0 := by rw [hs]; rfl
    rw [h0, hf.2] at h4
    refine Nat.le_trans (m := 4) ?_ (by decide)
    simpa only [makeSource, hf.2] using h4
  rcases e : shortfall s (makeSource c.page k f 0 s).2 with _ | n
  · exact .inl ⟨0, hq, hi, ho, e⟩
  · exact .inr ⟨n, hq, hi, ho, rfl⟩

theorem meets_PoolCommands (h : Obligations.PoolCommands) :
    runs (h.1 0) 0 (cmd 4 [0]) base ∧ runs (h.2.1 255) 0 (cmd 4 [255]) base :=
  ⟨meets rfl ⟨rfl, by decide⟩, meets rfl ⟨rfl, by decide⟩⟩

theorem meets_PoolCommands_2 (h : Obligations.PoolCommands) :
    runs h.2.2.1 0 (cmd 40 [4]) (pooled { pool0 1 with streams := [] }) :=
  meets rfl ⟨by decide +kernel, rfl, rfl, rfl, by decide +kernel, by decide +kernel, by decide +kernel⟩

theorem meets_PoolCommands_3 (h : Obligations.PoolCommands) :
    runs h.2.2.2.1 0 (cmd 0 []) base ∧ runs (h.2.2.2.2.1 0 key0) 0 (cmd 16 [0x07000000]) (pooled (pool0 1)) ∧
    runs (h.2.2.2.2.2.1 (rec0 1)) 0 (cmd 4 [0x06000001]) (pooled (pool0 1)) ∧
    turns (h.2.2.2.2.2.2.1 (rec0 2)) 0 (cmd 4 [0x06000001]) (pooled (pool0 2)) ∧
    runs (h.2.2.2.2.2.2.2.1 (rec0 2)) 0 (cmd 8 [0x06000001, 1]) (pooled (pool0 2)) :=
  ⟨meets rfl trivial, meets rfl ⟨rfl, by decide +kernel⟩, meets rfl ⟨⟨rfl, rfl⟩, by decide⟩,
   meets rfl ⟨⟨rfl, rfl⟩, rfl⟩, meets rfl ⟨⟨rfl, rfl⟩, rfl, by decide, rfl⟩⟩

theorem meets_PoolCommands_4 (h : Obligations.PoolCommands) :
    waits (h.2.2.2.2.2.2.2.2.1 (rec0 2)) 0 (cmd 20 [0x06000001, 0, 4096, 0, 1048576]) (pooled (pool0 2)) ∧
    waits (h.2.2.2.2.2.2.2.2.2.1 (rec0 2)) 0 (cmd 20 [0x06000001, 0, 4096, 0, 4096]) (pooled (pool0 2)) :=
  ⟨meets rfl ⟨⟨rfl, rfl⟩, by decide⟩, meets rfl ⟨⟨rfl, rfl⟩, by decide⟩⟩

theorem meets_PoolCommands_5 (h : Obligations.PoolCommands) :
    runs (h.2.2.2.2.2.2.2.2.2.2.1 (rec0 2)) 0 (cmd 8 [0x06000001, 0]) (pooled (pool0 2)) ∧
    runs (h.2.2.2.2.2.2.2.2.2.2.2.1 (rec0 2) [0]) 0 (cmd 8 [0x06000001, 0]) (pooled (pool0 2)) ∧
    turns (h.2.2.2.2.2.2.2.2.2.2.2.2.1 (rec0 2)) 0 (cmd 8 [0x06000001, 1]) (pooled (pool0 2)) ∧
    runs (h.2.2.2.2.2.2.2.2.2.2.2.2.2.1 (rec0 2)) 0 (cmd 4 [0x06000001]) (pooled (pool0 2)) ∧
    runs (h.2.2.2.2.2.2.2.2.2.2.2.2.2.2.1 0) 0 (cmd 16 [0x0018F0FF, 0x01E00280, 1000, 0x600]) base ∧
    runs (h.2.2.2.2.2.2.2.2.2.2.2.2.2.2.2.1 enc0) 0 (cmd 4 [0x09000001]) (pooled (pool0 1)) ∧
    turns (h.2.2.2.2.2.2.2.2.2.2.2.2.2.2.2.2.1 enc0) 0 (cmd 4 [0x09000001]) { pooled (pool0 1) with heads := [(0, { state := 2, act := { sink := .encoder (hd 9 1) } })] } ∧
    runs (h.2.2.2.2.2.2.2.2.2.2.2.2.2.2.2.2.2 enc0) 0 (cmd 4 [0x09000001]) (pooled (pool0 1)) :=
  ⟨meets rfl ⟨⟨rfl, rfl⟩, by decide⟩, meets rfl ⟨⟨rfl, rfl⟩, by decide, rfl, by decide⟩,
   meets rfl ⟨⟨rfl, rfl⟩, by decide⟩, meets rfl ⟨rfl, rfl⟩,
   meets rfl ⟨by unfold EncodeInRange; decide +kernel, by decide +kernel⟩, meets rfl ⟨⟨rfl, rfl⟩, rfl⟩,
   meets rfl ⟨⟨rfl, rfl⟩, by decide +kernel⟩, meets rfl ⟨rfl, rfl⟩⟩

theorem meets_PoolEvents (h : Obligations.PoolEvents) :
    opens (h.1 base) ∧
    opens2 (h.2.1 [2] 0 (pooled { pool0 1 with formatting := some ([2], 0) }) (membered [2] 0 (pooled { pool0 1 with formatting := some ([2], 0) }) (foreigners [2] (pooled { pool0 1 with formatting := some ([2], 0) }) (emptied [2] 0 (pooled { pool0 1 with formatting := some ([2], 0) }))))) ∧
    opens (h.2.2.1 0 true base) ∧
    opens5 (h.2.2.2.1 1 (executing (.exportSegs (hd 6 1) 0 4096 1)) 1048576 0 4096 1 [(0, some [1, 2, 3, 4])] full0 full0 (waiting (.exportSegs (hd 6 1) 0 4096 1) (pooled (pool0 2)))) ∧
    opens2 (h.2.2.2.2.1 0x09000001 0 false enc0 (pooled (pool0 1))) ∧
    (∃ ps t, opens5 (h.2.2.2.2.2.1 0x09000001 100 true true { enc0 with busy := true } ps (pooled { pool0 1 with encodes := [(hd 9 1, { enc0 with busy := true })] }) t)) ∧
    opens (h.2.2.2.2.2.2.2.1 0 true base) ∧
    opens2 (h.2.2.2.2.2.2.2.2.1 0 .readHeader 99 (pooled { pool0 1 with ops := [(0, .readHeader, 99)] }) (setPool { pool0 1 with ops := popOp 0 [(0, .readHeader, 99)] } (pooled { pool0 1 with ops := [(0, .readHeader, 99)] }))) ∧
    opens4 (h.2.2.2.2.2.2.2.2.2.1 0 (0, .readHeader, 99) (pooled { pool0 1 with ops := [(0, .readHeader, 99)] })) :=
  ⟨rfl, ⟨rfl, rfl⟩, rfl, ⟨rfl, rfl, rfl, rfl, reaches ⟨rfl, rfl⟩ _ _⟩, ⟨by decide +kernel, rfl⟩,
   ⟨_, _, by decide +kernel, rfl, rfl, rfl, rfl⟩, rfl, ⟨rfl, rfl⟩,
   ⟨List.mem_singleton.2 rfl, rfl, by decide +kernel, by decide +kernel⟩⟩

theorem meets_PoolEvents_2 (h : Obligations.PoolEvents) :
    opens (h.2.2.2.2.2.2.2.2.2.2.1 0 base) ∧
    (∃ t, opens4 (h.2.2.2.2.2.2.2.2.2.2.2.1 0 { state := 4 } (pooled { pool0 1 with drives := [(0, { state := 4 })] }) t)) ∧
    opens (h.2.2.2.2.2.2.2.2.2.2.2.2.1 3 true (pooled { pool0 1 with smartAt := [(3, 40000001)] })) ∧
    opens3 (h.2.2.2.2.2.2.2.2.2.2.2.2.2.1 0 base (setPool { base.pool with smartAt := tset base.pool.smartAt 0 (now base) } base)) ∧
    opens (h.2.2.2.2.2.2.1 0 {} base) ∧ opens (h.2.2.2.2.2.2.2.2.2.2.2.2.2.2.1 0x06000001 base) ∧
    opens4 (h.2.2.2.2.2.2.2.2.2.2.2.2.2.2.2.1 0x06000001 { rec0 1 with seg := some { drive := some 0, chain := 0, bytes := [1], firstAt := 0 } } { drive := some 0, chain := 0, bytes := [1], firstAt := 0 } (recording { rec0 1 with seg := some { drive := some 0, chain := 0, bytes := [1], firstAt := 0 } })) ∧
    opens3 (h.2.2.2.2.2.2.2.2.2.2.2.2.2.2.2.2.1 0x06000001 { rec0 1 with episodeEnds := some 100000000 } 100000000 (recording { rec0 1 with episodeEnds := some 100000000 })) ∧
    opens (h.2.2.2.2.2.2.2.2.2.2.2.2.2.2.2.2.2.1 base) ∧
    opens2 (h.2.2.2.2.2.2.2.2.2.2.2.2.2.2.2.2.2.2.1 ask0 [] (pooled { pool0 1 with queue := [ask0] })) ∧
    opens3 (h.2.2.2.2.2.2.2.2.2.2.2.2.2.2.2.2.2.2.2 ask0 [] { pooled { pool0 1 with queue := [ask0] } with vault := { slots := [(0, key0)], entropy := false } }) :=
  ⟨fun _ ho => (nomatch ho), ⟨_, rfl, rfl, by decide +kernel, rfl⟩,
   by show now base < 40000001 + 60000000; decide +kernel, ⟨rfl, by decide +kernel, rfl⟩, rfl, rfl,
   ⟨by decide +kernel, rfl, by decide, by decide +kernel⟩, ⟨by decide +kernel, rfl, by decide +kernel⟩, rfl,
   ⟨rfl, .inr rfl⟩, ⟨rfl, rfl, rfl⟩⟩

theorem meets_VaultRows (h : Obligations.VaultRows) :
    runs (h.1 0) 0 (cmd 4 [0x11]) base ∧ turns h.2.1 0 (cmd 4 [0x11]) (vaultAt { selfTest := false }) ∧
    turns h.2.2.1 0 (cmd 12 [0, 4096]) (vaultAt { selfTest := false }) ∧
    turns h.2.2.2.1 0 (cmd 0 []) (vaultAt { selfTest := false }) ∧
    runs (h.2.2.2.2.1 0 key0) 0 (cmd 4 [0x07000000]) (pooled (pool0 1)) ∧
    waits (h.2.2.2.2.2.1 0 key0) 0 (cmd 4 [0x07000000]) (pooled { pool0 1 with segments := [{ seg0 with written := false }] }) ∧
    runs (h.2.2.2.2.2.2.1 0 key0) 0 (cmd 12 [0x07000000, 4096]) (pooled (pool0 1)) ∧
    runs h.2.2.2.2.2.2.2.1 0 (cmd 12 [0, 4096]) base ∧
    waits (h.2.2.2.2.2.2.2.2.1 0 key0) 0 (bulk 60) (inHost signBlock (pooled (pool0 1))) :=
  ⟨meets rfl ⟨rfl, .inl (by decide), rfl, by decide +kernel, by decide +kernel⟩, meets rfl rfl, meets rfl rfl,
   meets rfl rfl, meets rfl ⟨⟨rfl, .inl rfl, rfl, rfl⟩, by decide +kernel⟩,
   meets rfl ⟨⟨rfl, .inl rfl, rfl, rfl⟩, by decide +kernel⟩,
   meets rfl ⟨⟨rfl, .inl rfl, rfl, rfl⟩, by decide, rfl, reaches ⟨rfl, rfl⟩ _ _⟩,
   meets rfl ⟨rfl, by decide, reaches ⟨rfl, rfl⟩ _ _⟩,
   meets_block sign_fetched (by decide +kernel) ⟨rfl, rfl, by decide⟩ (by decide +kernel) ⟨⟨rfl, .inr rfl, rfl, rfl⟩, by decide +kernel⟩⟩

theorem meets_VaultRows_2 (h : Obligations.VaultRows) :
    runs (h.2.2.2.2.2.2.2.2.2.1 0 key0 [0, 0, 0, 0]) 0 (cmd 28 [0x07000000, 0, 4096, 0, 4, 8192]) (pooled (pool0 1)) ∧
    (runs (h.2.2.2.2.2.2.2.2.2.2.1 0 key0 (List.replicate 29 0)) 0 (cmd 28 [0x07000000, 1, 4096, 0, 29, 8192]) (pooled (pool0 1)) ∨ runs (h.2.2.2.2.2.2.2.2.2.2.2.1 0 key0 (List.replicate 29 0)) 0 (cmd 28 [0x07000000, 1, 4096, 0, 29, 8192]) (pooled (pool0 1))) ∧
    runs h.2.2.2.2.2.2.2.2.2.2.2.2.1 0 (cmd 0 []) base ∧ opens (h.2.2.2.2.2.2.2.2.2.2.2.2.2.1 true base) ∧
    opens (h.2.2.2.2.2.2.2.2.2.2.2.2.2.2.1 base) ∧
    opens6 (h.2.2.2.2.2.2.2.2.2.2.2.2.2.2.2.1 (executing (.signDigest 0 4096 [])) 0 4096 [] (beBytes (Config.ecdsaSign 5 (BitVec.ofNat 384 (ofBe [])) 0).toNat 96) (waiting (.signDigest 0 4096 []) (pooled (pool0 1)))) ∧
    opens3 (h.2.2.2.2.2.2.2.2.2.2.2.2.2.2.2.2 (executing (.signDigest 0 4096 [])) 0 4096 [] (waiting (.signDigest 0 4096 []) (vaultAt { entropy := false }))) :=
  ⟨meets rfl ⟨⟨rfl, .inr rfl, rfl, rfl⟩, rfl, by decide, by decide, by decide, rfl, rfl, by decide, by decide +kernel, reaches ⟨rfl, rfl⟩ _ _⟩,
   (by rcases e : tagGood 0x07000000 key0 (List.replicate 29 0) 29 with _ | _ <;> [right; left] <;> refine meets rfl ⟨⟨rfl, .inr rfl, rfl, rfl⟩, rfl, by decide, by decide, by decide, rfl, rfl, by decide +kernel, ?_⟩ <;> [exact e; exact ⟨e, reaches ⟨rfl, rfl⟩ _ _⟩]),
   meets rfl rfl, rfl, rfl, ⟨rfl, rfl, rfl, rfl, reaches ⟨rfl, rfl⟩ _ _, rfl⟩, ⟨rfl, rfl, .inr rfl⟩⟩

theorem meets_DominoCommands (h : Obligations.DominoCommands) :
    runs (h.1 (enterDomino 1 none (setDomino asked0 (taken 0 (cmd 8 [0x109]) grouped)))) 0 (cmd 8 [0x109]) grouped ∧
    runs h.2.1 1 (cmd 0 []) base ∧ runs h.2.2.1 0 (cmd 0 []) base ∧
    runs (h.2.2.2.1 linkSource) 0 (cmd 8 [0x01000001, 4]) exporting ∧
    runs (h.2.2.2.2.1 { source := hd 1 1, peer := 0, owner := 0 }) 0 (cmd 4 [3]) exporting ∧
    ((∃ u, waits (h.2.2.2.2.2.1 (importFmt 0 5 0 4) u) 0 (cmd 8 [0x500]) (solo (group0 2))) ∨ ∃ n, fails (h.2.2.2.2.2.2.1 (importFmt 0 5 0 4) 0 n) 0 (cmd 8 [0x500]) (solo (group0 2))) ∧
    waits h.2.2.2.2.2.2.2.1 0 (cmd 4 [0x10000]) asking ∧ turns h.2.2.2.2.2.2.2.2 0 (cmd 4 [0x20000]) asking :=
  ⟨meets rfl ⟨by unfold GroupFits; decide +kernel, by decide +kernel, rfl, fun _ he => (nomatch he), rfl⟩,
   meets rfl (by decide), meets rfl rfl, meets rfl ⟨⟨⟨rfl, rfl⟩, .inl rfl⟩, rfl, by decide, rfl, rfl⟩,
   meets rfl ⟨rfl, .inl rfl⟩,
   (import_cases (c := ctxOf specCreateImport 0 (cmd 8 [0x500]) (solo (group0 2))) rfl (.imported 0 5 0) (import_fields 0 5 0 4) rfl).imp (fun ⟨u, q⟩ => ⟨u, meets rfl ⟨by decide, by decide, by decide, by decide, by decide, by decide, by decide, by decide, rfl, rfl, rfl, q⟩⟩) (fun ⟨n, q⟩ => ⟨n, meets rfl ⟨by decide, by decide, by decide, by decide, by decide, by decide, by decide, by decide, rfl, rfl, rfl, q⟩⟩),
   meets rfl ⟨rfl, rfl, rfl⟩, meets rfl (by decide)⟩

theorem meets_DominoEvents (h : Obligations.DominoEvents) :
    opens2 (h.1 base) ∧ opens2 (h.2.1 (ringed (group0 3))) ∧
    (∃ t, opens5 (h.2.2.1 100000000 (ringed { group0 3 with opensAt := some 100000000 }) t)) ∧
    (∃ room ups t, opens10 (h.2.2.2.1 100000000 room ups (ringed { group0 2 with opensAt := some 100000000 }) t)) ∧
    opens (h.2.2.2.2.1 0 (ctl [0xB4]) 0 base) ∧
    (∃ t, opens3 (h.2.2.2.2.2.1 0 (ctl [0xB4]) 0 (ringed (group0 2)) t)) ∧
    (∃ t u, opens4 (h.2.2.2.2.2.2.1 0 (ctl [0xB4]) 0 (ringed leading) t u)) :=
  ⟨⟨rfl, rfl⟩, ⟨by decide, fun _ q => (nomatch q)⟩, ⟨_, rfl, by decide, by decide, .inr rfl, rfl⟩,
   ⟨_, _, _, rfl, by decide, by decide, by decide, by decide, rfl, by decide +kernel, rfl, rfl, by decide +kernel⟩,
   by show 0 ∉ ringsOf base.domino; decide, ⟨_, by unfold RingHears Hears; decide +kernel, by decide, rfl⟩,
   ⟨_, _, by unfold RingHears Hears; decide +kernel, rfl, rfl, rfl⟩⟩

theorem meets_DominoEvents_2 (h : Obligations.DominoEvents) :
    opens5 (h.2.2.2.2.2.2.2.1 0 (ctl [0xC3, 0, 2]) 0 (ringed (group0 2))) ∧
    opens2 (h.2.2.2.2.2.2.2.1 0 (ctl [0xC3, 0, 2]) 1001 (ringed (group0 2)) (by unfold RingHears Hears; decide +kernel) (by decide +kernel) (by decide +kernel) (by decide +kernel) (by decide +kernel)).1 ∧
    opens (h.2.2.2.2.2.2.2.1 0 (ctl [0xC3, 0, 2]) 500 (ringed (group0 2)) (by unfold RingHears Hears; decide +kernel) (by decide +kernel) (by decide +kernel) (by decide +kernel) (by decide +kernel)).2.1 ∧
    opens3 (h.2.2.2.2.2.2.2.1 0 (ctl [0xC3, 0, 2]) 1000 (ringed (group0 2)) (by unfold RingHears Hears; decide +kernel) (by decide +kernel) (by decide +kernel) (by decide +kernel) (by decide +kernel)).2.2 :=
  ⟨⟨by unfold RingHears Hears; decide +kernel, by decide +kernel, by decide +kernel, by decide +kernel, by decide +kernel⟩,
   ⟨by decide, by decide +kernel⟩, by show Int.natAbs 500 ≤ 500; decide, ⟨by decide, by decide, by decide +kernel⟩⟩

theorem meets_DominoEvents_3 (h : Obligations.DominoEvents) :
    opens (h.2.2.2.2.2.2.2.2.1 0 (ctl [0xD2, 0, 2]) (ringed (group0 2))) ∧
    opens (h.2.2.2.2.2.2.2.2.2.1 0 (ctl [0xE1, 0, 2, 1]) (ringed (group0 2))) ∧
    opens (h.2.2.2.2.2.2.2.2.2.2.1 0 (ctl [0xF0, 0, 2, 1]) (ringed (group0 2))) :=
  ⟨by show RingHears _ _ _ _; unfold RingHears Hears; decide +kernel,
   by show RingHears _ _ _ _; unfold RingHears Hears; decide +kernel,
   by show RingHears _ _ _ _; unfold RingHears Hears; decide +kernel⟩

theorem meets_DominoEvents_4 (h : Obligations.DominoEvents) :
    opens (h.2.2.2.2.2.2.2.2.2.2.2.1 base) ∧
    opens2 (h.2.2.2.2.2.2.2.2.2.2.2.2.1 (executing (.importReq 1 0 5 0 {})) 1 0 5 0 {} (waiting (.importReq 1 0 5 0 {}) base)) ∧
    opens2 (h.2.2.2.2.2.2.2.2.2.2.2.2.2.1 (executing (.query 1 0)) 1 0 (waiting (.query 1 0) base)) ∧
    opens2 (h.2.2.2.2.2.2.2.2.2.2.2.2.2.2.1 0x01000001 { kind := .imported 0 5 0 } 0 5 0 importing) ∧
    opens (h.2.2.2.2.2.2.2.2.2.2.2.2.2.2.1 0x01000001 { kind := .imported 0 5 0 } 0 5 0 { importing with domino := { importing.domino with renewedAt := [(hd 1 1, 99000001)] } } rfl rfl).1 ∧
    opens (h.2.2.2.2.2.2.2.2.2.2.2.2.2.2.1 0x01000001 { kind := .imported 0 5 0 } 0 5 0 importing rfl rfl).2 ∧
    opens (h.2.2.2.2.2.2.2.2.2.2.2.2.2.2.2.1 0x01000001 base) :=
  ⟨rfl, ⟨rfl, rfl⟩, ⟨rfl, rfl⟩, ⟨rfl, rfl⟩, by show now base < 99000001 + 1000000; decide +kernel,
   by show 0 + 1000000 ≤ now base; decide +kernel, rfl⟩

theorem meets_DominoEvents_5 (h : Obligations.DominoEvents) :
    opens (h.2.2.2.2.2.2.2.2.2.2.2.2.2.2.2.2.1 0 0 0 (fun u => decide (u.member = 0 ∧ u.xport = 0 ∧ u.ring = 0 ∧ u.renewed + 3000000 ≤ now base)) base) ∧
    opens2 (h.2.2.2.2.2.2.2.2.2.2.2.2.2.2.2.2.2.1 (ringed { group0 2 with lastBeacon := 99999000 })) ∧
    opens2 (h.2.2.2.2.2.2.2.2.2.2.2.2.2.2.2.2.2.2.1 base) ∧
    opens3 (h.2.2.2.2.2.2.2.2.2.2.2.2.2.2.2.2.2.2.2.1 96000 (ringed { group0 1 with since := 99000000 })) ∧
    opens3 (h.2.2.2.2.2.2.2.2.2.2.2.2.2.2.2.2.2.2.2.2.1 96001 (ringed { group0 1 with member := 0 })) ∧
    opens (h.2.2.2.2.2.2.2.2.2.2.2.2.2.2.2.2.2.2.2.2.2.1 0 base) :=
  ⟨fun _ => rfl, ⟨.inl rfl, by decide +kernel⟩, ⟨by decide, by decide⟩, ⟨rfl, by decide +kernel, by decide⟩,
   ⟨rfl, rfl, by decide⟩, by show base.domino.state ≠ 1; decide⟩

theorem meets_DominoEvents_6 (h : Obligations.DominoEvents) :
    opens2 (h.2.2.2.2.2.2.2.2.2.2.2.2.2.2.2.2.2.2.2.2.2.2 1 (ringed { group0 2 with differs := [8, 0, 0, 0, 0, 0, 0, 0] }) (raise 241 0 (setDomino { group0 2 with differs := [8, 0, 0, 0, 0, 0, 0, 0], divergent := 1 } (ringed { group0 2 with differs := [8, 0, 0, 0, 0, 0, 0, 0] })))) ∧
    opens (h.2.2.2.2.2.2.2.2.2.2.2.2.2.2.2.2.2.2.2.2.2.2 1 (ringed { group0 2 with differs := [8, 0, 0, 0, 0, 0, 0, 0] }) (raise 241 0 (setDomino { group0 2 with differs := [8, 0, 0, 0, 0, 0, 0, 0], divergent := 1 } (ringed { group0 2 with differs := [8, 0, 0, 0, 0, 0, 0, 0] }))) (by decide +kernel) rfl).1 ∧
    opens3 (h.2.2.2.2.2.2.2.2.2.2.2.2.2.2.2.2.2.2.2.2.2.2 1 (ringed { group0 2 with divergent := 1, agrees := 8 }) (raise 241 0 (setDomino { group0 2 with divergent := 1, agrees := 8 } (ringed { group0 2 with divergent := 1, agrees := 8 }))) (by decide +kernel) rfl).2.1 ∧
    opens2 (h.2.2.2.2.2.2.2.2.2.2.2.2.2.2.2.2.2.2.2.2.2.2 1 (ringed { group0 2 with divergent := 1, agrees := 7 }) (raise 241 0 (setDomino { group0 2 with divergent := 1, agrees := 7 } (ringed { group0 2 with divergent := 1, agrees := 7 }))) (by decide +kernel) rfl).2.2 :=
  ⟨⟨by decide +kernel, rfl⟩, by show (1 : BitVec 8) ≠ 0; decide, ⟨rfl, by decide, by decide⟩, ⟨rfl, .inr (by decide)⟩⟩

def sourcesAt (l : Tbl EventSrc) : State := { base with events := { sources := l } }
def timerAt (t : Nat) : State := { base with events := { timers := [(0, 5, t)] } }
def debugging (attached : Bool) : State := { base with sys := { base.sys with debug := true, debugAttached := attached } }
def unlinked : State := { base with sys := { base.sys with pcieUp := false } }
def persistAt (q : Persist) : State := { base with persist := q }
def healthAt (q : Health) : State := { base with health := q }
def adcAt (a : Adc) : State := { base with health := { adc := [(0, a)], convUs := 500, scanAt := 99999500 } }
def flashAt (q : Flash) : State := { base with flash := q }
def brown : State := { base with sys := { base.sys with brownOut := true } }
def late : State := { base with sys := { base.sys with ptime := 2000000000 } }
def recalled0 : State := (fun s => recallEvents false (setPersist { (storeAdvance s).persist with
  pages := recalledPages (storeAdvance s)
  storeRows := (storeAdvance s).persist.storeRows.take (storeAdvance s).persist.storeCopied
    ++ ((storeAdvance s).persist.storeRows.drop (storeAdvance s).persist.storeCopied).filter
      (fun r => decide (1024 ≤ r)) } (storeAdvance s))) (taken 0 (cmd 0 []) base)
def tampered : State := { persistAt { tamperEn := 1 } with persist := { tamperEn := 1, tamperValid := true, tamperFirst := 0, tamperCount := 1 } }
def excursed : State := { base with health := { base.health with rails := tset base.health.rails 1 (now base) } }
def excursed2 : State := { healthAt { rails := [(1, 9)] } with health := { rails := tset [(1, 9)] 1 (now base) } }
def hot0 : Health := { warn := some 60, throttle := true }
def hotter (t : Int) (l : Option Nat) : Health := { hot0 with tj := t, warned := true, atLimit := true, hotSince := l, coolSince := none }
def sixteen (t : Int) : List Int := List.replicate 16 t
def writeBlock : List Word := [0x2010000, 5]
def image1 : State := flashAt { bytes := memWrite 0xFF [] 0x2010000 (bytesOf [0x4657494D, 1]) }
def op0 (code : Nat) : FlashOp := { opcode := code, addr := 0x2010000, length := 4, data := [1, 2, 3, 4] }

theorem limit_ge : 1000 ≤ tjLimit := by unfold tjLimit; split <;> decide
theorem limit_le : tjLimit ≤ 1050 := by unfold tjLimit; split <;> decide
theorem write_fetched (s : State) (h : s.sys.pcieUp = true ∧ s.dmaFaults = []) :
    fetchBulk (some specFlashWrite) (bulk 8) (inHost writeBlock s) = some (some (bytesOf writeBlock)) :=
  fetched (by decide +kernel) h (by decide +kernel) (by decide +kernel) (by decide +kernel)

theorem meets_FaultRows (h : Obligations.FaultRows) :
    runs h.1 0 (cmd 8 [0, 7]) base ∧ turns h.2.1 1 (cmd 8 [0]) base ∧ runs (h.2.2.1 [] .ok) 0 (cmd 4 [0]) base ∧
    turns h.2.2.2.1 1 (cmd 4 [0x200]) base ∧ runs h.2.2.2.2.1 0 (cmd 4 [0]) base ∧
    turns h.2.2.2.2.2.1 0 (cmd 4 [195]) base ∧ runs h.2.2.2.2.2.2.1 0 (cmd 0 []) base ∧
    runs h.2.2.2.2.2.2.2.1 0 (cmd 4 [600000]) base ∧ turns h.2.2.2.2.2.2.2.2.1 0 (cmd 4 [600001]) base ∧
    runs h.2.2.2.2.2.2.2.2.2.1 0 (cmd 4 [3]) base ∧ runs h.2.2.2.2.2.2.2.2.2.2.1 0 (cmd 8 [0, 3600000]) base ∧
    turns h.2.2.2.2.2.2.2.2.2.2.2.1 0 (cmd 8 [0, 3600001]) base :=
  ⟨meets rfl (.inl rfl), meets rfl ⟨by decide, .inl (by decide +kernel)⟩,
   meets rfl ⟨fun q => absurd q (by decide), by decide +kernel, rfl⟩, meets rfl ⟨rfl, by decide⟩, meetsb rfl,
   meetsb rfl, meets rfl trivial, meetsb rfl, meetsb rfl, meets rfl trivial, meetsb rfl, meetsb rfl⟩

theorem meets_FaultRows_2 (h : Obligations.FaultRows) :
    opens (h.2.2.2.2.2.2.2.2.2.2.2.2.1 0 5 0 (timerAt 0)) ∧
    opens (h.2.2.2.2.2.2.2.2.2.2.2.2.1 0 5 100000000 (timerAt 100000000) rfl).1 ∧
    opens (h.2.2.2.2.2.2.2.2.2.2.2.2.1 0 5 100000001 (timerAt 100000001) rfl).2 ∧
    opens2 (h.2.2.2.2.2.2.2.2.2.2.2.2.2.2.1 0 0 base) ∧
    opens (h.2.2.2.2.2.2.2.2.2.2.2.2.2.2.1 245 0 base rfl rfl).1 ∧
    opens (h.2.2.2.2.2.2.2.2.2.2.2.2.2.2.1 247 1 base rfl rfl).2 ∧
    opens2 (h.2.2.2.2.2.2.2.2.2.2.2.2.2.2.2.1 (withHub { fault := true })) ∧
    opens (h.2.2.2.2.2.2.2.2.2.2.2.2.2.2.2.2.1 none base) ∧
    opens2 (h.2.2.2.2.2.2.2.2.2.2.2.2.2.2.2.2.2.1 (some (246, 0)) (withHub { fault := true })) ∧
    opens4 (h.2.2.2.2.2.2.2.2.2.2.2.2.2.2.2.2.2.2.1 0 0 (sourcesAt [(0, { recordedAt := some 0, folded := 2 })])) ∧
    opens (h.2.2.2.2.2.2.2.2.2.2.2.2.2.2.2.2.2.2.2.1 0 base) :=
  ⟨rfl, by show 100000000 ≤ now (timerAt 100000000); decide +kernel,
   by show now (timerAt 100000001) < 100000001; decide +kernel, ⟨rfl, rfl⟩,
   by show (245 : Fin 256).val < 246; decide, by show 246 < (247 : Fin 256).val; decide, ⟨rfl, by decide +kernel⟩,
   rfl, ⟨by decide +kernel, by decide +kernel⟩, ⟨rfl, by decide, by decide +kernel, rfl⟩, rfl⟩

theorem meets_FaultRows_3 (h : Obligations.FaultRows) :
    opens (h.2.2.2.2.2.2.2.2.2.2.2.2.2.2.2.2.2.2.2.2.2.1 base) ∧
    opens2 (h.2.2.2.2.2.2.2.2.2.2.2.2.2.2.2.2.2.2.2.2.2.2.1 unlinked) ∧
    opens2 (h.2.2.2.2.2.2.2.2.2.2.2.2.2.2.2.2.2.2.2.2.2.2.2.1 15 base) ∧
    opens (h.2.2.2.2.2.2.2.2.2.2.2.2.2.2.2.2.2.2.2.2.2.2.2.2.1 base) ∧
    opens (h.2.2.2.2.2.2.2.2.2.2.2.2.2.2.2.2.2.2.2.2.2.2.2.2.2.1 0 base) ∧
    opens2 (h.2.2.2.2.2.2.2.2.2.2.2.2.2.2.2.2.2.2.2.2.2.2.2.2.2.2.2.1 (debugging false)) ∧
    opens (h.2.2.2.2.2.2.2.2.2.2.2.2.2.2.2.2.2.2.2.2.2.2.2.2.2.2.2.2.1 (debugging true)) ∧
    opens (h.2.2.2.2.2.2.2.2.2.2.2.2.2.2.2.2.2.2.2.2.2.2.2.2.2.2.2.2.2.1 base) ∧
    opens (h.2.2.2.2.2.2.2.2.2.2.2.2.2.2.2.2.2.2.2.2.2.2.2.2.2.2.2.2.2.2 0 (debugging true)) ∧
    opens (h.2.2.2.2.2.2.2.2.2.2.2.2.2.2.2.2.2.2.2.2.2.2.2.2.2.2.2.2.2.2 0 (debugging true) rfl).2.1 :=
  ⟨rfl, ⟨rfl, rfl⟩, ⟨rfl, by decide⟩, rfl, .inl rfl, ⟨rfl, rfl⟩, rfl, rfl, rfl, rfl⟩

theorem meets_PersistenceRows (h : Obligations.PersistenceRows) :
    runs (h.1 4 .ok) 0 (cmd 12 [0, 4, 5]) base ∧ runs (h.1 2 .okPartial) 0 (cmd 12 [0xFE0000, 4, 5]) base ∧
    turns h.2.1 0 (cmd 12 [0, 4, 5]) (persistAt { powerFail := true }) ∧ runs h.2.2.1 0 (cmd 12 [0, 4096]) base ∧
    waits h.2.2.2.1 0 (cmd 0 []) base ∧ runs (h.2.2.2.2.1 recalled0) 0 (cmd 0 []) base ∧
    runs (h.2.2.2.2.2.1 ([], 0, 0, false) .ok) 0 (cmd 20 [0, 0, 4096, 0, 64]) base ∧
    runs h.2.2.2.2.2.2.1 0 (cmd 36 [1, 2]) base ∧
    runs (h.2.2.2.2.2.2.2.1 (storeAdvance (taken 0 (cmd 0 []) base))) 0 (cmd 0 []) base ∧
    runs h.2.2.2.2.2.2.2.2.1 0 (cmd 0 []) base ∧ runs h.2.2.2.2.2.2.2.2.2.1 0 (cmd 4 [0x21]) base ∧
    waits (h.2.2.2.2.2.2.2.2.2.2.1 1) 0 (cmd 4 [0x100]) (persistAt { tamperValid := true, tamperStore := some 1 }) :=
  ⟨meets rfl ⟨by decide, by decide, fun q => absurd q (by decide), fun _ => by decide, rfl, by decide, rfl⟩,
   meets rfl ⟨by decide, by decide, fun q => absurd q (by decide), fun _ => by decide, rfl, by decide, rfl⟩,
   meetsb rfl, meets rfl ⟨by decide, reaches ⟨rfl, rfl⟩ _ _⟩, meets rfl trivial, meets rfl rfl,
   meets rfl ⟨by decide, by decide, by decide, by decide, rfl, rfl, reaches ⟨rfl, rfl⟩ _ _⟩, meets rfl trivial,
   meets rfl rfl, meets rfl trivial, meets rfl (.inl rfl), meets rfl ⟨rfl, rfl, rfl⟩⟩

theorem meets_PersistenceRows_2 (h : Obligations.PersistenceRows) :
    opens (h.2.2.2.2.2.2.2.2.2.2.2.2.1 [] base) ∧ opens2 (h.2.2.2.2.2.2.2.2.2.2.2.2.2.1 late) ∧
    opens (h.2.2.2.2.2.2.2.2.2.2.2.2.2.2.1 base) ∧ opens (h.2.2.2.2.2.2.2.2.2.2.2.2.2.2.2.1 0 true base) ∧
    opens2 (h.2.2.2.2.2.2.2.2.2.2.2.2.2.2.2.2.1 0 (persistAt { tamperEn := 1 }) tampered) ∧
    opens2 (h.2.2.2.2.2.2.2.2.2.2.2.2.2.2.2.2.2.1 2200 base) ∧
    opens (h.2.2.2.2.2.2.2.2.2.2.2.2.2.2.2.2.2.1 2200 base rfl rfl).1 ∧
    opens (h.2.2.2.2.2.2.2.2.2.2.2.2.2.2.2.2.2.1 2199 base rfl rfl).2 ∧
    opens (h.2.2.2.2.2.2.2.2.2.2.2.2.2.2.2.2.2.2 0 brown) :=
  ⟨rfl, ⟨rfl, by decide +kernel⟩, by show now base < 0 + 2 ^ 30; decide +kernel, .inl rfl, ⟨rfl, rfl⟩, ⟨rfl, rfl⟩,
   by show 2200 ≤ (2200 : BitVec 16).toNat; decide, by show (2199 : BitVec 16).toNat < 2200; decide, rfl⟩

theorem meets_HealthRows (h : Obligations.HealthRows) :
    runs h.1 0 (cmd 4 [0x1032]) base ∧ turns h.2.1 0 (cmd 4 [51]) base ∧ runs h.2.2.1 0 (cmd 4 [99]) base ∧
    turns h.2.2.2.1 0 (cmd 4 [59]) base ∧ turns h.2.2.2.1 0 (cmd 4 [105]) base ∧
    runs h.2.2.2.2.1 0 (cmd 12 [0x03E80008, 0x0FFF0000, 200]) base ∧
    turns h.2.2.2.2.2.1 0 (cmd 12 [0x03E80008, 0x00000001, 200]) base ∧ runs h.2.2.2.2.2.2.1 0 (cmd 4 [0]) base ∧
    runs h.2.2.2.2.2.2.2.1 0 (cmd 4 [1]) base ∧ runs h.2.2.2.2.2.2.2.2.1 0 (cmd 4 [2]) base ∧
    turns h.2.2.2.2.2.2.2.2.2.1 0 (cmd 4 [3]) base :=
  ⟨meetsb rfl, meetsb rfl, meets rfl ⟨by decide, by have := limit_ge; show (990 : Int) ≤ _; omega⟩,
   meets rfl (.inl (by decide)), meets rfl (.inr (by have := limit_le; show _ < (1050 : Int); omega)), meetsb rfl,
   meetsb rfl, meetsb rfl, meetsb rfl, meetsb rfl, meetsb rfl⟩

theorem meets_HealthRows_2 (h : Obligations.HealthRows) :
    opens3 (h.2.2.2.2.2.2.2.2.2.2.1 (List.replicate 96 0) false [] base) ∧
    opens2 (h.2.2.2.2.2.2.2.2.2.2.2.1 (List.replicate 96 0) false [] State.reset) ∧
    opens6 (h.2.2.2.2.2.2.2.2.2.2.2.2.1 (sixteen 599) 599 (healthAt hot0)) ∧
    opens6 (h.2.2.2.2.2.2.2.2.2.2.2.2.2.1 (sixteen 570) 570 (healthAt hot0)) ∧
    opens5 (h.2.2.2.2.2.2.2.2.2.2.2.2.2.2.1 (sixteen 600) 600 (healthAt hot0)) ∧
    (∃ u, opens7 (h.2.2.2.2.2.2.2.2.2.2.2.2.2.2.2.1 (sixteen 1050) 1050 none (healthAt hot0) u)) ∧
    opens (h.2.2.2.2.2.2.2.2.2.2.2.2.2.2.2.2.2.1 511 true 800 base) ∧
    opens (h.2.2.2.2.2.2.2.2.2.2.2.2.2.2.2.2.2.2.1 [599] none base) ∧
    (∃ u, opens8 (h.2.2.2.2.2.2.2.2.2.2.2.2.2.2.2.2.1 (sixteen 1050) 1050 none (healthAt (hotter 1050 none)) u)) ∧
    opens2 (h.2.2.2.2.2.2.2.2.2.2.2.2.2.2.2.2.1 (sixteen 1050) 1050 none (healthAt (hotter 1050 none)) _ rfl rfl rfl (by show (600 : Int) ≤ 1050; decide) limit_le rfl rfl rfl).1 ∧
    opens (h.2.2.2.2.2.2.2.2.2.2.2.2.2.2.2.2.1 (sixteen 1050) 1050 none (healthAt { hotter 1050 none with throttle := false }) _ rfl rfl rfl (by show (600 : Int) ≤ 1050; decide) limit_le rfl rfl rfl).2 ∧
    opens7 (h.2.2.2.2.2.2.2.2.2.2.2.2.2.2.2.2.2.2.2.1 0 none { healthAt (hotter 1050 (some 0)) with engines := { clockMHz := 1200 } }) ∧
    opens5 (h.2.2.2.2.2.2.2.2.2.2.2.2.2.2.2.2.2.2.2.2.1 0 none { healthAt { coolSince := some 0 } with engines := { clockMHz := 800 } }) ∧
    opens2 (h.2.2.2.2.2.2.2.2.2.2.2.2.2.2.2.2.2.2.2.2.2.1 base) ∧
    opens2 (h.2.2.2.2.2.2.2.2.2.2.2.2.2.2.2.2.2.2.2.2.2.2.1 849 0 base) ∧
    opens3 (h.2.2.2.2.2.2.2.2.2.2.2.2.2.2.2.2.2.2.2.2.2.2.2.1 850 1 base) ∧
    opens2 (h.2.2.2.2.2.2.2.2.2.2.2.2.2.2.2.2.2.2.2.2.2.2.2.2.1 950 1 base) :=
  ⟨⟨List.length_replicate, rfl, by decide +kernel⟩, ⟨List.length_replicate, .inl rfl⟩,
   ⟨rfl, rfl, rfl, by show (599 : Int) < 600; decide, by have := limit_ge; omega, by show (600 : Int) - 30 < 599; decide⟩,
   ⟨rfl, rfl, rfl, by show (570 : Int) < 600; decide, by have := limit_ge; omega, by show (570 : Int) ≤ 600 - 30; decide⟩,
   ⟨rfl, rfl, rfl, by show (600 : Int) ≤ 600; decide, by have := limit_ge; omega⟩,
   ⟨_, rfl, rfl, rfl, by show (600 : Int) ≤ 1050; decide, limit_le, rfl, rfl⟩,
   by show 511 ∉ base.engines.offline; decide, by show [599].length ≠ 16; decide,
   ⟨_, rfl, rfl, rfl, by show (600 : Int) ≤ 1050; decide, limit_le, rfl, rfl, rfl⟩, ⟨rfl, by decide⟩, .inl rfl,
   ⟨rfl, rfl, rfl, rfl, by decide +kernel, by decide, by decide⟩, ⟨rfl, rfl, rfl, by decide +kernel, by decide⟩,
   ⟨rfl, rfl⟩, ⟨rfl, by decide⟩, ⟨rfl, by decide, by decide⟩, ⟨rfl, by decide⟩⟩

theorem meets_HealthRows_3 (h : Obligations.HealthRows) :
    opens2 (h.2.2.2.2.2.2.2.2.2.2.2.2.2.2.2.2.2.2.2.2.2.2.2.2.2.1 9 true 0 base { base with health := { base.health with rails := tset base.health.rails 19 (now base) } }) ∧
    opens (h.2.2.2.2.2.2.2.2.2.2.2.2.2.2.2.2.2.2.2.2.2.2.2.2.2.1 0 true 0 base excursed rfl rfl).1 ∧
    opens ((h.2.2.2.2.2.2.2.2.2.2.2.2.2.2.2.2.2.2.2.2.2.2.2.2.2.1 0 true 0 (healthAt { rails := [(1, 9)] }) excursed2 rfl rfl).2 9) ∧
    opens3 (h.2.2.2.2.2.2.2.2.2.2.2.2.2.2.2.2.2.2.2.2.2.2.2.2.2.2.1 0 0 0 (adcAt {})) ∧
    opens (h.2.2.2.2.2.2.2.2.2.2.2.2.2.2.2.2.2.2.2.2.2.2.2.2.2.2.2.1 1 0 0 (adcAt {})) ∧
    opens (h.2.2.2.2.2.2.2.2.2.2.2.2.2.2.2.2.2.2.2.2.2.2.2.2.2.2.2.2.1 0 (adcAt {})) ∧
    opens2 (h.2.2.2.2.2.2.2.2.2.2.2.2.2.2.2.2.2.2.2.2.2.2.2.2.2.2.2.2.2.1 0 0 17 (adcAt { enable := true })) ∧
    opens7 (h.2.2.2.2.2.2.2.2.2.2.2.2.2.2.2.2.2.2.2.2.2.2.2.2.2.2.2.2.2.2.1 0 100 100 (adcAt { enable := true, owEn := false })) ∧
    opens6 (h.2.2.2.2.2.2.2.2.2.2.2.2.2.2.2.2.2.2.2.2.2.2.2.2.2.2.2.2.2.2.2 0 4064 4064 (adcAt { enable := true, owEn := true, biasedNext := true })) :=
  ⟨⟨rfl, rfl⟩, rfl, rfl, ⟨by decide +kernel, rfl, rfl⟩, .inl (by decide +kernel),
   by show adcDue _ _ = true; decide +kernel, ⟨⟨by decide +kernel, rfl, rfl⟩, .inl (by decide)⟩,
   ⟨⟨by decide +kernel, rfl, rfl⟩, rfl, by decide, by decide, rfl, by decide, by decide⟩,
   ⟨⟨by decide +kernel, rfl, rfl⟩, rfl, rfl, by decide, by decide, .inl (by decide)⟩⟩

theorem meets_StartupRows (h : Obligations.StartupRows) :
    runs h.1 0 (cmd 0 []) base ∧ runs h.2.1 0 (cmd 16 [0x10000, 4, 4096]) base ∧
    runs h.2.2.1 0 (cmd 8 [0x2010000, 1]) base ∧ runs h.2.2.2.1 0 (bulk 8) (inHost writeBlock base) ∧
    turns h.2.2.2.2.1 0 (bulk 8) (inHost writeBlock (flashAt { bytes := [(0x2010000, 0)] })) ∧
    turns h.2.2.2.2.2.1 0 (cmd 8 [0x2010000, 1]) (flashAt { op := some (op0 0x1302) }) :=
  ⟨meets rfl trivial, meets rfl ⟨by decide, by decide, by decide, rfl, reaches ⟨rfl, rfl⟩ _ _⟩,
   meets rfl ⟨by decide, by decide, by decide, by decide +kernel, rfl⟩,
   meets_block (write_fetched base ⟨rfl, rfl⟩) (by decide +kernel) ⟨rfl, rfl, by decide⟩ (by decide +kernel) ⟨by decide +kernel, by decide, by decide +kernel, rfl, by decide +kernel⟩,
   meets_block (write_fetched _ ⟨rfl, rfl⟩) (by decide +kernel) ⟨rfl, rfl, by decide⟩ (by decide +kernel) ⟨by decide +kernel, by decide, by decide +kernel, rfl, by decide +kernel⟩,
   meets rfl ⟨by decide, by decide, by decide, by decide +kernel, by decide⟩⟩

theorem meets_StartupRows_2 (h : Obligations.StartupRows) :
    (runs h.2.2.2.2.2.2.1 0 (cmd 4 [1]) image1 ∨ fails h.2.2.2.2.2.2.2.2.1 0 (cmd 4 [1]) image1) ∧
    turns h.2.2.2.2.2.2.2.1 0 (cmd 4 [0]) base ∧ fails h.2.2.2.2.2.2.2.2.1 0 (cmd 4 [1]) base ∧
    runs h.2.2.2.2.2.2.2.2.2.1 0 (cmd 0 []) (flashAt { trialRunning := true }) ∧
    turns h.2.2.2.2.2.2.2.2.2.2.1 0 (cmd 0 []) base :=
  ⟨(if e : slotCheck (taken 0 (cmd 4 [1]) image1) 1 = 0 then .inl (meets rfl ⟨by decide, by decide, rfl, e⟩) else .inr (meets rfl ⟨by decide, by decide, rfl, e⟩)),
   meets rfl ⟨by decide, rfl⟩,
   meets rfl ⟨by decide, by decide, rfl, by show slotCheck (taken 0 (cmd 4 [1]) base) 1 ≠ 0; unfold slotCheck; dsimp only; rw [if_pos (by decide +kernel)]; decide⟩,
   meets rfl rfl, meets rfl rfl⟩

theorem meets_StartupRows_3 (h : Obligations.StartupRows) :
    opens (h.2.2.2.2.2.2.2.2.2.2.2.1 none base) ∧
    opens2 (h.2.2.2.2.2.2.2.2.2.2.2.2.1 (op0 0x1302) (flashAt { op := some (op0 0x1302) })) ∧
    opens2 (h.2.2.2.2.2.2.2.2.2.2.2.2.2.1 (op0 0x1303) (flashAt { op := some (op0 0x1303) })) ∧
    opens3 (h.2.2.2.2.2.2.2.2.2.2.2.2.2.2.1 0x2010003 (op0 0x1303) (flashAt { op := some (op0 0x1303) })) ∧
    opens (h.2.2.2.2.2.2.2.2.2.2.2.2.2.2.2.1 {} base) ∧ opens3 (h.2.2.2.2.2.2.2.2.2.2.2.2.2.2.2.2.1 {} State.reset) ∧
    opens2 (h.2.2.2.2.2.2.2.2.2.2.2.2.2.2.2.2.2.1 {} { State.reset with sys := { State.reset.sys with brownOut := true } }) ∧
    opens3 (h.2.2.2.2.2.2.2.2.2.2.2.2.2.2.2.2.2.2.1 { testMode := true } State.reset) ∧
    opens (h.2.2.2.2.2.2.2.2.2.2.2.2.2.2.2.2.2.2.2.1 State.reset) ∧
    opens (h.2.2.2.2.2.2.2.2.2.2.2.2.2.2.2.2.2.2.2.2.1 base) ∧
    opens (h.2.2.2.2.2.2.2.2.2.2.2.2.2.2.2.2.2.2.2.2.2.1 base) ∧
    opens2 (h.2.2.2.2.2.2.2.2.2.2.2.2.2.2.2.2.2.2.2.2.2.2.1 { base with sys := { base.sys with watchdog := true } }) ∧
    opens3 (h.2.2.2.2.2.2.2.2.2.2.2.2.2.2.2.2.2.2.2.2.2.2.2.1 true [] [] base) ∧
    opens (h.2.2.2.2.2.2.2.2.2.2.2.2.2.2.2.2.2.2.2.2.2.2.2.1 false [] [] base rfl rfl (.inl rfl)).2 ∧
    opens (h.2.2.2.2.2.2.2.2.2.2.2.2.2.2.2.2.2.2.2.2.2.2.2.2.1 true true [] (persistAt { powerFail := true })) ∧
    opens (h.2.2.2.2.2.2.2.2.2.2.2.2.2.2.2.2.2.2.2.2.2.2.2.2.2.1 {} base) ∧
    opens3 (h.2.2.2.2.2.2.2.2.2.2.2.2.2.2.2.2.2.2.2.2.2.2.2.2.2.2 {} brown) :=
  ⟨rfl, ⟨rfl, rfl⟩, ⟨rfl, rfl⟩, ⟨rfl, by decide, by decide⟩, rfl, ⟨rfl, rfl, rfl⟩, ⟨rfl, rfl⟩, ⟨rfl, rfl, rfl⟩, rfl,
   rfl, .inl rfl, ⟨rfl, by decide +kernel⟩, ⟨rfl, rfl, .inl rfl⟩, rfl, rfl, rfl, ⟨rfl, rfl, rfl⟩⟩

/-! ### Terms that are no command: one for each check of `Instr.wf` -/

theorem test_short_body_stops : exec (.echo 0 { body := [] }) base = .fault .illFormed := rfl
theorem test_empty_rival_access_stops : exec (.errValidClear (some (access 0 0))) base = .fault .illFormed := rfl
theorem test_empty_access_stops : exec (.accessRefused (access 0 0)) base = .fault .illFormed := rfl
theorem test_empty_bar2_access_stops : exec (.bar2AccessRefused (access 0 0)) base = .fault .illFormed := rfl
theorem test_wide_did_stops : exec (.ancPacket 0 { did := 1024 }) base = .fault .illFormed := rfl
theorem test_wide_user_word_stops : exec (.ancPacket 0 { words := [1024] }) base = .fault .illFormed := rfl
theorem test_long_anc_refused : (Instr.ancPacket 0 { words := List.replicate 256 0 }).wf = false := by decide +kernel
theorem test_short_plan_stops : exec (.plannerRun [0] false []) base = .fault .illFormed := rfl

/-! ### Numbers of the manual -/

/-- Table 5-3: pages of an object in P4, P20 and P2. -/
theorem test_pages_4320 : (pagesOf 1 7680 4320, pagesOf 2 7680 4320, pagesOf 0 7680 4320) = (2025, 1350, 1013) := by decide
theorem test_pages_field : (pagesOf 1 1920 540, pagesOf 2 1920 540, pagesOf 0 1920 540) = (64, 43, 32) := by decide

/-- R379: source 112 resets with SEV_CAUSES 0x003F, and source 246 with 0x0001. -/
theorem test_sev_causes : ((evDefault 112).sevCauses, (evDefault 246).sevCauses) = (0x003F, 0x0001) := by decide

/-- R47: epochs wrap, so 1 is later than 0xFFFFFFFF and not the other way. -/
theorem test_epoch_wraps : (later 1 0xFFFFFFFF, later 0xFFFFFFFF 1) = (true, false) := by decide

/-- R230: the check value of the IEEE 802.3 CRC-32 over the digits 1 to 9. -/
theorem test_crc32 : crc32 [0x31, 0x32, 0x33, 0x34, 0x35, 0x36, 0x37, 0x38, 0x39] = 0xCBF43926 := by decide +kernel

/-- R289: polynomial 0x07 from 0, over the same digits. -/
theorem test_crc8 : crc8 [0x31, 0x32, 0x33, 0x34, 0x35, 0x36, 0x37, 0x38, 0x39] = 0xF4 := by decide +kernel

/-! ### Single steps -/

/-- The next state of a step, or the state before. -/
def after (o : Host.Outcome State Fault Refusal) (s : State) : State :=
  match o with
  | .next t => t
  | _ => s

/-- Table 2-6: STATUS and TAG, EPOCH_STAGED, then the six words of ECHO (R59). -/
theorem test_echo_completion : tget (box (after (exec (.echo 0 (cmd 24 [1, 2, 3, 4, 5, 6])) base) base) 0).cplRing 0
    = some [0x00070000, 0, 1, 2, 3, 4, 5, 6] := by decide +kernel

/-- Table 2-9b: a body beyond 24 bytes is ERR_LENGTH, 0x0101. -/
theorem test_echo_length : tget (box (after (exec (.echo 0 (cmd 28 [])) base) base) 0).cplRing 0
    = some [0x00070101, 0, 0, 0, 0, 0, 0, 0] := by decide +kernel

/-- The opcode that no row has is ERR_OPCODE, 0x0100, and CMD_HEAD moves past its descriptor. -/
theorem test_unknown_opcode : (fun m : Mailbox => (tget m.cplRing 0, m.cmdHead))
    (box (after (exec .commandTake (queued 0x0FFF (cmd 0 []))) base) 0) = (some [0x00070100, 0, 0, 0, 0, 0, 0, 0], 1) := by
  decide +kernel

/-- R63: a P0 opcode on page 1 is ERR_NOT_OWNER, 0x0103. -/
theorem test_p0_only : tget (box (after (exec (.setQuietPeriod 1 (cmd 4 [1])) base) base) 1).cplRing 0
    = some [0x00070103, 0, 0, 0, 0, 0, 0, 0] := by decide +kernel

/-- R34 at the ends of the span: the unread completions lie from 511 to 1, so 1 is taken and 2 is not. -/
theorem test_cpl_head_in : (box (after (exec (.cplHeadWrite 0 1) unread) unread) 0).cplHead = 1 := by decide +kernel
theorem test_cpl_head_out : (fun m : Mailbox => (m.cplHead, m.ptrErr))
    (box (after (exec (.cplHeadWrite 0 2) unread) unread) 0) = (511, true) := by decide +kernel

/-- Log entry 1: with no command waiting the powered time moves by one. -/
theorem test_idle : (after (step base) base).sys.ptime = 100000001 := by decide +kernel

/-- The command in front of the queue runs, and the queue's rest stays. -/
theorem test_step_front : (fun t : State => ((box t 0).cmdTail, t.pending))
    (after (step { base with pending := [.cmdTailWrite 0 1, .gpioEdge 0] }) base) = (1, [.gpioEdge 0]) := by decide +kernel

/-- A message held on a masked vector of function 0. -/
def heldVector : State := { base with events := { vectors := [(3, { words := [1, 2, 3, 1], pending := true })], msixOn := [0] } }

/-- R376: the message leaves when the vector is unmasked. -/
theorem test_held_vector_unmask : (fun t : State => (t.out, (vecGet t 0 3).pending))
    (after (exec (.msixUnmask 0 (.entry 3 3 0)) heldVector) base) = ([.msi 0 3], false) := by decide +kernel

/-- R6: a set event that meets the clear leaves the bit at 1, whether it stood at 1 or at 0. -/
theorem test_clear_meets_set : (box (after (exec (.ptrErrClear 0 true) base) base) 0).ptrErr = true := by decide +kernel

/-- R254: 20 dB is a factor of 10, and -20 dB of a tenth. -/
theorem test_gain_20_dB : (gainOf 5 200, gainOf 50 (-200)) = (50, 5) := by decide +kernel

/-- R284: a scrambled payload is read back, whatever was sent before it. -/
theorem test_scrambler : (CtlBlock.payload { wire := scrambled 5 (ctlPayload [0x2D]), before := 5 }) = ctlPayload [0x2D] := by
  decide +kernel

end Sys2Proof.Tests
end

section
/-! Proofs of the statements about Puppeteer's mailboxes and the register window (chapter 2). -/

namespace Sys2Proof.Proofs

open Sys2Proof Sys2Proof.Machine Sys2Proof.Safety Sys2Proof.Laws

/-! ### What a raise leaves unchanged -/

@[simp] theorem raise_sys (n sub : Nat) (s : State) : (raise n sub s).sys = s.sys := by
  obtain ⟨_, _, _, h⟩ := raised_raise n sub s
  rw [h]

@[simp] theorem raise_boxes (n sub : Nat) (s : State) : (raise n sub s).boxes = s.boxes := by
  obtain ⟨_, _, _, h⟩ := raised_raise n sub s
  rw [h]

@[simp] theorem raise_hostMem (n sub : Nat) (s : State) : (raise n sub s).hostMem = s.hostMem := by
  obtain ⟨_, _, _, h⟩ := raised_raise n sub s
  rw [h]

theorem box_of_raised {s t : State} (h : Raised s t) (q : Nat) : box t q = box s q := by
  obtain ⟨_, _, _, rfl⟩ := h
  rfl

@[simp] theorem box_raise (n sub : Nat) (s : State) (q : Nat) : box (raise n sub s) q = box s q :=
  box_of_raised (raised_raise n sub s) q

/-! ### The words of a completion (R39) -/

theorem statusCode_lt (st : Status) : statusCode st < 65536 := by cases st <;> decide

theorem wd_of_length_le {ws : List Word} {i : Nat} (h : ws.length ≤ i) : wd ws i = 0 :=
  List.getD_eq_default _ _ h

/-- Words 2 to 7 of a completion are the result words. -/
theorem wd_cplWords_result (st : Status) (tag : BitVec 16) (epoch : Word) (res : List Word) {i : Nat} (h : i < 6) :
    wd (cplWords st tag epoch res) (2 + i) = wd res i := by
  rw [cplWords, wd, List.getD_append_right _ _ _ _ (by simp)]
  simp [h]

/-- Settles O17: word 0 is two half words, and words 2 to 7 are the results, which read 0 beyond their end. -/
theorem completionWords : Obligations.CompletionWords := by
  intro st tag epoch res _ ws
  have hlo : bits (wd ws 0) 15 0 = statusCode st :=
    (bits_lo_pack _ _).trans (Nat.mod_eq_of_lt (statusCode_lt st))
  have hhi : bits (wd ws 0) 31 16 = tag.toNat := (bits_hi_pack _ _).trans (Nat.mod_eq_of_lt tag.isLt)
  have hres : ∀ i < 6, wd ws (2 + i) = wd res i := fun i hi => wd_cplWords_result st tag epoch res hi
  exact ⟨length_cplWords st tag epoch res, hlo, hhi, rfl, hres,
    fun i hl hi => (hres i hi).trans (wd_of_length_le hl)⟩

/-! ### A descriptor whose tag is in the window (R42) -/

theorem specOf_op {op : Nat} {sp : OpSpec} (h : specOf op = some sp) : sp.op = op := by
  simpa using List.find?_some h

/-- A row that is a mailbox opcode issues its descriptor under the section that its opcode names: each row's arm is
that section behind the check of its twelve body words. A request that meets closes is such a row only without any. -/
theorem exec_command {i : Instr} {p : Fin 16} {op : Nat} {d : Desc} {sp : OpSpec} (h : i.command = some (p, op, d))
    (hsp : specOf op = some sp) (hw : d.Wf) (s : State) : exec i s = .next (issue sp p d s) := by
  have row : ∃ sp, specOf op = some sp ∧ exec i s = .next (issue sp p d s) := by
    cases i
    case acquireObject _ _ rivals => cases rivals <;> cases h; exact ⟨_, rfl, if_pos hw⟩
    case submitJob _ _ rivals => cases rivals <;> cases h; exact ⟨_, rfl, if_pos hw⟩
    all_goals cases h <;> exact ⟨_, rfl, if_pos hw⟩
  obtain ⟨sp', hs, hx⟩ := row
  rw [hx, Option.some.inj (hsp.symm.trans hs)]

/-- The words a repeat is answered with, given the digest and the fetched block of the descriptor now taken, the
window's entry and EPOCH_STAGED (R42). -/
def repeatWords (tag : BitVec 16) (digest : BitVec 128) (block : Option (Option (List Byte))) (e : WinEntry)
    (epoch : Word) : List Word :=
  if block = some none then cplWords .hostDma tag epoch []
  else if e.digest = digest then
    (if bits (wd e.completion 0) 15 0 = statusCode .ok ∨ bits (wd e.completion 0) 15 0 = statusCode .okPartial
     then pack [(statusCode .okReplayed, 15, 0), (tag.toNat, 31, 16)] :: e.completion.drop 1
     else e.completion)
  else cplWords .tagConflict tag epoch []

/-- A repeat is answered by posting those words; a failed fetch raises an event besides. -/
theorem raised_replay (p : Nat) (tag : BitVec 16) (digest : BitVec 128) (block : Option (Option (List Byte)))
    (e : WinEntry) (s : State) :
    Raised (postCpl p (repeatWords tag digest block e (box s p).epochStaged) s)
      (replay p tag digest (decide (block = some none)) e s) := by
  by_cases hb : block = some none
  · simpa only [replay, repeatWords, hb, decide_true, if_true] using raised_raise 112 5 _
  · simp only [replay, repeatWords, hb, decide_false, Bool.false_eq_true, if_false, statusCode]
    by_cases hd : e.digest = digest
    · by_cases hst : bits (wd e.completion 0) 15 0 = 0 ∨ bits (wd e.completion 0) 15 0 = 2
      · simpa only [hd, hst, if_true] using Raised.refl _
      · simpa only [hd, hst, if_true, if_false] using Raised.refl _
    · simpa only [hd, if_false] using Raised.refl _

/-- A descriptor whose tag is in the window is answered from the window and reaches no check. -/
theorem issue_replay {sp : OpSpec} {page : Fin 16} {d : Desc} {s : State} {e : WinEntry}
    (ht : canTake s page.val = true)
    (he : (box s page.val).window.find? (fun e => decide (e.tag = d.tag)) = some e) :
    issue sp page d s = replay page.val d.tag (digestOf sp.op d (fetchBulk (some sp) d s))
      (decide (fetchBulk (some sp) d s = some none)) e (taken page d s) := by
  have hb : (box (taken page d s) page.val).window.find? (fun e => decide (e.tag = d.tag)) = some e := by
    simpa using he
  unfold taken at hb
  simp only [issue, ht, if_true, runCommand, hb]
  rfl

/-- Settles O18: the tag lookup of R38 either answers from the window, which no completion of a repeat enters, or goes
on with the checks. -/
theorem replayFromWindow : Obligations.ReplayFromWindow := by
  intro i p op d s sp hc hs hw ht block m
  have hx := exec_command hc hs hw s
  have hop := specOf_op hs
  subst hop
  refine ⟨?_, fun hn => ?_⟩
  · intro e he ws
    have hr := raised_replay p.val d.tag (digestOf sp.op d block) block e (taken p d s)
    rw [show (box (taken p d s) p.val).epochStaged = m.epochStaged by simp [m]] at hr
    refine ⟨_, hx.trans (congrArg _ (issue_replay ht he)), ?_, ?_⟩
    · rw [box_of_raised hr, postCpl, box_modBox]
      simp [m, ws, repeatWords]
    · obtain ⟨b, v, o, h1⟩ := taken_eq p d s
      obtain ⟨⟨b', v', o', r', h2⟩, -⟩ := (onPage_postCpl p.val ws (taken p d s)).trans (hr.onPage p.val)
      exact ⟨b', v', o', r', by rw [h2, h1]⟩
  · exact hx.trans (congrArg _ (issue_fresh ⟨hw, ht, hn⟩))

/-! ### Posting a notification (R33) -/

/-- Putting a page back leaves every other page, and all else but the event registers and what leaves the device. -/
theorem setBox_frame (p : Nat) (m : Mailbox) (s : State) :
    (∃ b e o, setBox p m s = { s with boxes := b, events := e, out := o }) ∧ box (setBox p m s) p = m ∧
      ∀ q, q ≠ p → box (setBox p m s) q = box s q := by
  obtain ⟨e, o, h⟩ := setBox_eq p m s
  exact ⟨⟨_, e, o, h⟩, by simp, fun q hq => by simp [hq]⟩

/-- The slot at NTF_TAIL is not unread. -/
theorem unread_ne_tail {k head tail : BitVec 9} (h : (k - head).toNat < (tail - head).toNat) : k.toNat ≠ tail.toNat := by
  intro e
  rw [BitVec.eq_of_toNat_eq e] at h
  exact absurd h (lt_irrefl _)

/-- Settles O19, by the two cases of `postNtf`: 511 unread, or room at NTF_TAIL. -/
theorem notificationPosted : Obligations.NotificationPosted := by
  intro p type data s ha m t
  by_cases hf : (m.ntfTail - m.ntfHead).toNat = 511
  · have ht : t = setBox p _ s := postNtf_lost ha hf
    obtain ⟨hframe, hp, hq⟩ := setBox_frame p _ s
    rw [ht, hp]
    exact ⟨fun h => absurd hf h, fun _ => ⟨rfl, rfl, rfl, rfl⟩, rfl, rfl, fun _ _ => rfl, hframe, hq⟩
  · have ht : t = setBox p _ s := postNtf_post ha hf
    obtain ⟨hframe, hp, hq⟩ := setBox_frame p _ s
    rw [ht, hp]
    exact ⟨fun _ => ⟨rfl, tget_tset_self _ _ _, rfl, rfl⟩, fun h => absurd h hf, rfl, rfl,
      fun k hk => tget_tset_ne _ _ (unread_ne_tail hk), hframe, hq⟩

/-! ### The ring pointers (R34) -/

/-- A write of CPL_HEAD of an active, ready page: the pointer within the span, a ring fault beyond it. -/
theorem writeCplHead_eq {p : Nat} {s : State} (ha : (box s p).active = true) (hr : (box s p).ready = true) (v : Word) :
    writeCplHead p v s =
      if (v.extractLsb' 0 9 - (box s p).cplHead).toNat ≤ ((box s p).cplTail - (box s p).cplHead).toNat then
        setBox p { box s p with cplHead := v.extractLsb' 0 9 } s
      else ringFault p s := if_neg (by simp [ha, hr])

/-- A write of NTF_HEAD of an active, ready page, in the same way. -/
theorem writeNtfHead_eq {p : Nat} {s : State} (ha : (box s p).active = true) (hr : (box s p).ready = true) (v : Word) :
    writeNtfHead p v s =
      if (v.extractLsb' 0 9 - (box s p).ntfHead).toNat ≤ ((box s p).ntfTail - (box s p).ntfHead).toNat then
        setBox p { box s p with ntfHead := v.extractLsb' 0 9 } s
      else ringFault p s := if_neg (by simp [ha, hr])

theorem exec_cplHeadWrite {s : State} (h : held s = false) (p : Fin 16) (v : Word) :
    exec (.cplHeadWrite p v) s = .next (writeCplHead p.val v s) := congrArg _ (awake_live h _)

theorem exec_ntfHeadWrite {s : State} (h : held s = false) (p : Fin 16) (v : Word) :
    exec (.ntfHeadWrite p v) s = .next (writeNtfHead p.val v s) := congrArg _ (awake_live h _)

/-- Settles O30: both pointers have the same span check, and the current value is at distance 0 of itself. -/
theorem pointerWrites : Obligations.PointerWrites := by
  intro p v s hh ha hr
  rw [exec_cplHeadWrite hh, exec_ntfHeadWrite hh, writeCplHead_eq ha hr, writeNtfHead_eq ha hr]
  refine ⟨fun h => by rw [if_pos h], fun h => by rw [if_pos h], fun h => by rw [if_neg (not_le.mpr h)]; rfl,
    fun h => by rw [if_neg (not_le.mpr h)]; rfl, fun q => by rw [box_raise, box_setBox], fun h => ?_, fun h => ?_⟩
  · rw [if_pos (by simp [h]), h]
  · rw [if_pos (by simp [h]), h]

/-! ### Powered time (R23) -/

/-- PTIME_LO read by 32 bits or by 64: the data is of one instant, and the high half is held. -/
theorem exec_ptimeLoRead {s : State} (h : held s = false) (wide : Bool) :
    exec (.ptimeLoRead wide) s = .next { s with
      sys := { s.sys with ptimeHold := s.sys.ptime.extractLsb' 32 32 }
      bus := if wide then [s.sys.ptime.extractLsb' 0 32, s.sys.ptime.extractLsb' 32 32]
        else [s.sys.ptime.extractLsb' 0 32] } := congrArg _ (awake_live h _)

/-- A read of PTIME_HI returns the holding register. -/
theorem readWindow_ptimeHi (s : State) : (readWindow 0 0x014 s).bus = [s.sys.ptimeHold] := rfl

/-- Settles O31: PTIME_HI is the held copy, whatever PTIME has become. -/
theorem poweredTimeRead : Obligations.PoweredTimeRead := fun _ h =>
  ⟨_, _, exec_ptimeLoRead h false, rfl, fun _ => readWindow_ptimeHi _, exec_ptimeLoRead h true, rfl, rfl, rfl⟩

/-! ### Refused accesses (R25, R26) -/

/-- With the capture free, the refused access is captured. -/
theorem refuseAccess_first {s : State} (a : Access) (h : s.sys.errValid = false) :
    refuseAccess a s = raise 237 0 (captureAccess a s) := by
  simp [refuseAccess, h]

/-- With the capture taken, ERR_MORE sets. -/
theorem refuseAccess_more {s : State} (a : Access) (h : s.sys.errValid = true) :
    refuseAccess a s = raise 237 0 { s with sys := { s.sys with errMore := true } } := by
  simp [refuseAccess, h]

section
variable {s : State} {a : Access} (hh : held s = false) (hn : a.bytes.val ≠ 0) (hb : accessBad a = true)
include hh hn hb

theorem exec_accessRefused_bad : exec (.accessRefused a) s
    = .next { refuseAccess a s with bus := if a.write then s.bus else allOnes a.bytes.val } :=
  (if_neg hn).trans (congrArg _ ((awake_live hh _).trans (if_pos hb)))

theorem exec_bar2AccessRefused_bad : exec (.bar2AccessRefused a) s
    = .next (if a.write then s else { s with bus := allOnes a.bytes.val }) := by
  have hread : accessBar2 a s = { s with bus := allOnes a.bytes.val } := by simp [accessBar2, hb]
  rw [← hread]
  exact (if_neg hn).trans (congrArg _ (awake_live hh _))

theorem exec_errValidClear_bad : exec (.errValidClear (some a)) s = .next (raise 237 0 (captureAccess a s)) :=
  (if_neg hn).trans (congrArg _ ((awake_live hh _).trans (if_pos hb)))

theorem exec_errMoreClear_bad : exec (.errMoreClear (some a)) s
    = .next (refuseAccess a { s with sys := { s.sys with errMore := false } }) :=
  (if_neg hn).trans (congrArg _ ((awake_live hh _).trans (if_pos hb)))

end

/-- Settles O32, by whether ERR_VALID is 0 or 1 when the access is refused. -/
theorem refusedAccesses : Obligations.RefusedAccesses := by
  intro a s hh hn hb
  refine ⟨fun hv => ⟨_, exec_accessRefused_bad hh hn hb, ?_, rfl⟩, fun hv => ⟨_, exec_accessRefused_bad hh hn hb, ?_, rfl⟩,
    exec_errValidClear_bad hh hn hb, fun n sub t => ⟨raise_sys n sub t, raise_boxes n sub t, raise_hostMem n sub t⟩,
    exec_bar2AccessRefused_bad hh hn hb, fun hv => ?_⟩
  · rw [refuseAccess_first a hv]; rfl
  · rw [refuseAccess_more a hv]
  · exact (exec_errMoreClear_bad hh hn hb).trans
      (congrArg _ (refuseAccess_more (s := { s with sys := { s.sys with errMore := false } }) a hv))

end Sys2Proof.Proofs
end

section
/-! Proofs of the statements about descriptors, opcodes and the taking of commands (R29–R42): the encoding of a descriptor. -/

namespace Sys2Proof.Proofs

open Sys2Proof Sys2Proof.Machine Sys2Proof.Safety Sys2Proof.Laws

/-! ### Descriptors and opcodes (R36, R38) -/

/-- A row that is a mailbox opcode: its opcode is a half word, and the term is a command of the table where its
descriptor has its twelve body words. -/
theorem command_wf (i : Instr) : Wf.Statement i := by
  cases i
  case acquireObject page d rivals => exact Wf.acquireObject page d rivals
  case submitJob page d rivals => exact Wf.submitJob page d rivals
  all_goals
    intro p op d h
    cases h <;> exact ⟨by decide, decide_eq_true_iff⟩

/-- Word 0 of a descriptor holds the opcode and the tag. -/
theorem descWord0_reads (op : Nat) (tag : BitVec 16) (h : op < 65536) :
    bits (pack [(op, 15, 0), (tag.toNat, 31, 16)]) 15 0 = op ∧
      (pack [(op, 15, 0), (tag.toNat, 31, 16)]).extractLsb' 16 16 = tag := by
  have ht := tag.isLt
  refine ⟨(bits_lo_pack _ _).trans (Nat.mod_eq_of_lt h), BitVec.eq_of_toNat_eq ?_⟩
  rw [BitVec.extractLsb'_toNat, pack_halves, Nat.shiftRight_eq_div_pow]
  omega

/-- Word 1 of a descriptor holds the length, BULK and the reserved bits. -/
theorem descWord1_reads (n : BitVec 16) (b : Bool) (r : BitVec 15) :
    (pack [(n.toNat, 15, 0), (b1 b, 16, 16), (r.toNat, 31, 17)]).extractLsb' 0 16 = n ∧
      bit (pack [(n.toNat, 15, 0), (b1 b, 16, 16), (r.toNat, 31, 17)]) 16 = b ∧
      (pack [(n.toNat, 15, 0), (b1 b, 16, 16), (r.toNat, 31, 17)]).extractLsb' 17 15 = r := by
  have hn := n.isLt
  have hr := r.isLt
  have hb : b1 b < 2 := by cases b <;> decide
  refine ⟨BitVec.eq_of_toNat_eq ?_, ?_, BitVec.eq_of_toNat_eq ?_⟩
  · rw [BitVec.extractLsb'_toNat, desc_word1_toNat, Nat.shiftRight_zero]
    omega
  · rw [bit, BitVec.getLsbD, desc_word1_toNat, Nat.testBit_eq_decide_div_mod_eq,
      show (r.toNat * 131072 + (b1 b * 65536 + n.toNat)) / 2 ^ 16 % 2 = b1 b by omega]
    cases b <;> rfl
  · rw [BitVec.extractLsb'_toNat, desc_word1_toNat, Nat.shiftRight_eq_div_pow]
    omega

/-- The first words of a list, read one by one, are the list. -/
theorem map_wd_range (ws : List Word) : (List.range ws.length).map (wd ws) = ws := by
  apply List.ext_getElem
  · simp
  · intro i h1 h2
    simp [wd, h2]

/-- Settles O6: each field reads back from the word it was packed into, and the body word by word. -/
theorem descriptorRoundTrip : Obligations.DescriptorRoundTrip := by
  intro i p op d hc hw
  obtain ⟨hop, hwf⟩ := command_wf i p op d hc
  have hlen : d.body.length = 12 := hwf.mp hw
  obtain ⟨hopc, htag⟩ := descWord0_reads op d.tag hop
  obtain ⟨hn, hb, hr⟩ := descWord1_reads d.bodyLen d.bulk d.rsvd1
  have hbody : (List.range 12).map (fun i => wd (descWords op d) (4 + i)) = d.body := by
    rw [List.map_congr_left (fun i hi => descWords_body op d i (List.mem_range.mp hi)), ← hlen, map_wd_range]
  refine ⟨length_descWords op d, ?_⟩
  rw [descOf, hbody]
  simp only [descWords, wd, List.cons_append, List.getD_cons_zero, List.getD_cons_succ, hopc, htag, hn, hb, hr]

/-- A word is put together again from its fields. -/
theorem pack_word0 (w : Word) : pack [(bits w 15 0, 15, 0), ((w.extractLsb' 16 16).toNat, 31, 16)] = w := by
  have h := w.isLt
  refine BitVec.eq_of_toNat_eq ?_
  rw [pack_halves, BitVec.extractLsb'_toNat, bits, Nat.shiftRight_zero, Nat.shiftRight_eq_div_pow]
  omega

theorem pack_word1 (w : Word) : pack [((w.extractLsb' 0 16).toNat, 15, 0), (b1 (bit w 16), 16, 16),
    ((w.extractLsb' 17 15).toNat, 31, 17)] = w := by
  have h := w.isLt
  have hb : b1 (bit w 16) = w.toNat / 65536 % 2 := by
    rw [bit, BitVec.getLsbD, Nat.testBit_eq_decide_div_mod_eq, b1]
    split <;> simp_all
  refine BitVec.eq_of_toNat_eq ?_
  rw [desc_word1_toNat, hb, BitVec.extractLsb'_toNat, BitVec.extractLsb'_toNat, Nat.shiftRight_zero,
    Nat.shiftRight_eq_div_pow]
  omega

/-- Settles O7: the first two words are put together from their fields, the others are kept whole. -/
theorem descriptorWordsBack : Obligations.DescriptorWordsBack := by
  intro ws h
  obtain ⟨w0, w1, w2, w3, body, rfl⟩ : ∃ w0 w1 w2 w3 body, ws = w0 :: w1 :: w2 :: w3 :: body := by
    match ws, h with
    | w0 :: w1 :: w2 :: w3 :: body, _ => exact ⟨w0, w1, w2, w3, body, rfl⟩
  have hlen : body.length = 12 := by simpa using h
  have hbody : (List.range 12).map (wd ((List.range 12).map (fun i => wd (w0 :: w1 :: w2 :: w3 :: body) (4 + i)))) = body := by
    have hb : (List.range 12).map (fun i => wd (w0 :: w1 :: w2 :: w3 :: body) (4 + i)) = body := by
      rw [← hlen]
      refine Eq.trans (List.map_congr_left fun i _ => ?_) (map_wd_range body)
      simp [wd, Nat.add_comm 4 i]
    rw [hb, ← hlen, map_wd_range]
  rw [descWords, descOf]
  dsimp only
  rw [hbody]
  simp only [wd, List.getD_cons_zero, List.getD_cons_succ, pack_word0, pack_word1, List.cons_append, List.nil_append]

/-- The opcodes of the table are the rows' own. -/
theorem command_spec (i : Instr) (p : Fin 16) (op : Nat) (d : Desc) (h : i.command = some (p, op, d)) :
    ∃ sp, specOf op = some sp := by
  cases i
  case acquireObject page d rivals => cases rivals <;> cases h; exact ⟨_, rfl⟩
  case submitJob page d rivals => cases rivals <;> cases h; exact ⟨_, rfl⟩
  all_goals cases h <;> exact ⟨_, rfl⟩

/-- Settles O8: the table of opcodes finds a section under the opcode of each row, and the row issues under it. -/
theorem opcodeNamesRow : Obligations.OpcodeNamesRow := by
  intro i p op d h
  obtain ⟨sp, hs⟩ := command_spec i p op d h
  exact ⟨sp, hs, specOf_op hs, fun s hd => exec_command h hs hd s⟩

end Sys2Proof.Proofs
end

section
/-! Proofs of the statements about the pipeline of one command: the taking, the checks, the completion, handles and epochs. -/

namespace Sys2Proof.Proofs

open Sys2Proof Sys2Proof.Machine Sys2Proof.Safety Sys2Proof.Laws

/-! ### Taking a command (R29–R32) -/

theorem canTake_iff (s : State) (p : Nat) : canTake s p = true ↔ (box s p).active = true ∧ (box s p).ready = true ∧
    s.exec = none ∧ cplUnread (box s p) ≠ 511 ∧ (box s p).flrWaits = false := by
  simp [canTake, cplStall, and_assoc]

/-- COMMAND_TAKE while no page has a command that may be taken. -/
theorem exec_commandTake_none {s : State} (h : nextPage s = none) : exec .commandTake s = .next s := by
  simp only [exec, execCommandTake, h]

/-- COMMAND_TAKE runs the descriptor at CMD_HEAD of the served page. -/
theorem exec_commandTake_some {s : State} {p op : Nat} {d : Desc} (h : nextPage s = some p)
    (hd : descOf (slotWords s p (box s p).cmdHead.toNat) = (op, d)) : exec .commandTake s
      = .next (runCommand (specOf op) p op d (setBox p { box s p with cmdHead := (box s p).cmdHead + 1 } s)) := by
  simp only [exec, execCommandTake, h, hd]

/-- The page served may have a command taken and has one waiting. -/
theorem nextPage_takes {s : State} {p : Nat} (h : nextPage s = some p) : canTake s p = true ∧ cmdWaits s p = true := by
  simpa using List.find?_some h

/-- Moving CMD_HEAD does not hinder the taking. -/
theorem canTake_cmdHead {s : State} {p : Nat} (k : BitVec 8) (h : canTake s p = true) :
    canTake (setBox p { box s p with cmdHead := k } s) p = true := by
  obtain ⟨e, o, hs⟩ := setBox_eq p { box s p with cmdHead := k } s
  have he : (setBox p { box s p with cmdHead := k } s).exec = s.exec := by rw [hs]
  rw [canTake_iff] at h ⊢
  rw [he]
  simpa [cplUnread] using h

/-- Settles O9: the descriptor at CMD_HEAD has twelve body words, so its row issues it, and a page that may take a
command still may once CMD_HEAD has moved. -/
theorem takeRunsRow : Obligations.TakeRunsRow := by
  refine ⟨?_, fun s p op d h hd => exec_commandTake_some h hd, ?_⟩
  · intro s i p op d h hd hc
    obtain ⟨sp, hs⟩ := command_spec i p op d hc
    have hw : d.Wf := by
      have hl := length_descOf_body (slotWords s p.val (box s p.val).cmdHead.toNat)
      rwa [hd] at hl
    have ht := canTake_cmdHead ((box s p.val).cmdHead + 1) (nextPage_takes h).1
    rw [exec_commandTake_some h hd, exec_command hc hs hw, issue, if_pos ht, hs, specOf_op hs]
  · intro i p op d s hc hw hb
    obtain ⟨sp, hs⟩ := command_spec i p op d hc
    have hn : canTake s p.val = false := by
      rw [← Bool.not_eq_true, canTake_iff]
      rintro ⟨ha, hr, he, hu, -⟩
      rcases hb with hb | hb | hb | hb <;> simp_all
    rw [exec_command hc hs hw, issue_blocked hn]

/-- Settles O10: with no section under the opcode, step 3 of R38 is the first that fails. -/
theorem unknownOpcode : Obligations.UnknownOpcode := by
  intro s p op d h hd hs h1 h3 hw
  have hc : ∀ b ws m, checkDesc p.val op none d b ws m = some (.opcode, 3) := fun b ws m => by
    simp [checkDesc, h1, h3]
  rw [exec_commandTake_some h hd, hs]
  generalize ht : setBox p.val { box s p.val with cmdHead := (box s p.val).cmdHead + 1 } s = t
  have hwin : (box (taken p d t) p.val).window.find? (fun e => decide (e.tag = d.tag)) = none := by
    rw [box_taken, if_pos rfl, ← ht, box_setBox, if_pos rfl]
    exact hw
  unfold taken at hwin
  simp only [runCommand, hwin, hc]
  rfl

/-- The page found is the first of the sixteen, from the one after the last served, that may be served. -/
theorem nextPage_eq_some_iff {s : State} {p : Nat} : nextPage s = some p ↔ ∃ i < 16, (s.lastServed + 1 + i) % 16 = p ∧
    (canTake s p && cmdWaits s p) = true ∧
    ∀ j < i, (canTake s ((s.lastServed + 1 + j) % 16) && cmdWaits s ((s.lastServed + 1 + j) % 16)) = false := by
  simp only [nextPage, List.find?_map, Option.map_eq_some_iff, List.find?_range_eq_some, List.mem_range,
    Function.comp_apply, Bool.not_eq_true']
  constructor
  · rintro ⟨i, ⟨hi, hl, hj⟩, rfl⟩
    exact ⟨i, hl, rfl, hi, hj⟩
  · rintro ⟨i, hl, rfl, hi, hj⟩
    exact ⟨i, ⟨hi, hl, hj⟩, rfl⟩

theorem nextPage_eq_none_iff {s : State} : nextPage s = none ↔ ∀ i < 16,
    (canTake s ((s.lastServed + 1 + i) % 16) && cmdWaits s ((s.lastServed + 1 + i) % 16)) = false := by
  simp [nextPage]

/-- Settles O11: page q stands at place (q + 15 - last) mod 16 of the search. -/
theorem roundRobin : Obligations.RoundRobin := by
  intro s hl
  have place : ∀ q < 16, (s.lastServed + 1 + (q + 15 - s.lastServed) % 16) % 16 = q := fun q hq => by omega
  refine ⟨fun p hp => ?_, fun hn => ⟨fun q hq => ?_, exec_commandTake_none hn⟩⟩
  · obtain ⟨i, hi, hpi, -, hfirst⟩ := nextPage_eq_some_iff.mp hp
    obtain ⟨ht, hw⟩ := nextPage_takes hp
    refine ⟨by omega, ht, hw, fun q hq hqt hqw => ?_⟩
    by_contra hlt
    have := hfirst ((q + 15 - s.lastServed) % 16) (by omega)
    rw [place q hq, hqt, hqw] at this
    exact Bool.noConfusion this
  · have := nextPage_eq_none_iff.mp hn ((q + 15 - s.lastServed) % 16) (Nat.mod_lt _ (by decide))
    rwa [place q hq, Bool.and_eq_false_iff] at this

/-! ### The checks and what follows them (R38) -/

/-- Of three checks with one outcome, one fails. -/
theorem ite_or_or_pos {α : Type} {a b c : Prop} [Decidable a] [Decidable b] [Decidable c] {x r : α} (h : a ∨ b ∨ c) :
    (if a then x else if b then x else if c then x else r) = x := by
  by_cases ha : a
  · exact if_pos ha
  · by_cases hb : b
    · exact (if_neg ha).trans (if_pos hb)
    · exact (if_neg ha).trans ((if_neg hb).trans (if_pos ((h.resolve_left ha).resolve_left hb)))

/-- All three pass. -/
theorem ite_or_or_neg {α : Type} {a b c : Prop} [Decidable a] [Decidable b] [Decidable c] {x r : α} (h : ¬(a ∨ b ∨ c)) :
    (if a then x else if b then x else if c then x else r) = r := by
  rw [not_or, not_or] at h
  exact (if_neg h.1).trans ((if_neg h.2.1).trans (if_neg h.2.2))

/-- Settles O12: each check is reached where those before it pass; step 4 is three checks of the lengths. -/
theorem checkOrder : Obligations.CheckOrder := by
  intro sp p d block body m check step2 step3 step4 step6 step7
  have n2 : step2 → ¬(d.rsvd1 ≠ 0 ∨ d.rsvd3 ≠ 0) := fun h => by simpa [step2] using h
  have n3 : step3 → ¬((sp.p0 : Prop) ∧ p ≠ 0) := fun h => by simpa [step3] using h
  have n4 : ¬step4 ↔ (!restZero d (if d.bulk then 12 else d.bodyLen.toNat)) = true ∨ d.bulk ∧ (!bulkGood sp d) = true ∨
      (!d.bulk) = true ∧ (sp.bulkOnly ∨ min 48 sp.maxLen < d.bodyLen.toNat ∨ d.bodyLen.toNat < sp.minLen) := by
    simp only [step4]
    cases d.bulk <;> simp only [Bool.false_eq_true, if_true, if_false, Bool.not_eq_true', not_and_or, not_le,
      Bool.not_eq_false, Bool.not_eq_true, true_and, false_and, false_or, or_false, Bool.not_true, Bool.not_false]
    rw [or_comm (a := d.bodyLen.toNat < sp.minLen)]
  have n6 : step6 → ¬(!sp.rsv body) = true := fun h => by simpa [step6] using h
  have n7 : step7 ↔ ¬((sp.guard : Prop) ∧ sp.op ≠ 0x0110 ∧ d.epoch ≠ 0 ∧ d.epoch ≠ m.epochStaged) := by
    simp only [step7, ne_eq, not_and_or, not_not, Bool.not_eq_true]
  refine ⟨fun h => if_pos (by simpa only [step2, not_and_or] using h),
    fun a2 h => (if_neg (n2 a2)).trans (if_pos (by simpa [step3] using h)),
    fun a2 a3 h => (if_neg (n2 a2)).trans ((if_neg (n3 a3)).trans (ite_or_or_pos (n4.mp h))),
    fun a2 a3 a4 h => (if_neg (n2 a2)).trans ((if_neg (n3 a3)).trans ((ite_or_or_neg (mt n4.mpr (not_not_intro a4))).trans (if_pos h))),
    fun a2 a3 a4 a5 h => (if_neg (n2 a2)).trans ((if_neg (n3 a3)).trans ((ite_or_or_neg (mt n4.mpr (not_not_intro a4))).trans ((if_neg a5).trans
      (if_pos (by simpa [step6] using h))))),
    fun a2 a3 a4 a5 a6 h => (if_neg (n2 a2)).trans ((if_neg (n3 a3)).trans ((ite_or_or_neg (mt n4.mpr (not_not_intro a4))).trans ((if_neg a5).trans
      ((if_neg (n6 a6)).trans (if_pos (not_not.mp (mt n7.mpr h))))))),
    fun a2 a3 a4 a5 a6 a7 => (if_neg (n2 a2)).trans ((if_neg (n3 a3)).trans ((ite_or_or_neg (mt n4.mpr (not_not_intro a4))).trans ((if_neg a5).trans
      ((if_neg (n6 a6)).trans (if_neg (n7.mp a7))))))⟩

/-- Settles O13: the completion of the check that fails is what the taking of a fresh descriptor answers. -/
theorem failedCheckCompletes : Obligations.FailedCheckCompletes := by
  intro i p op d s sp st k hc hs hf hk
  have hop := specOf_op hs
  subst hop
  rw [exec_command hc hs hf.1, issue_fresh hf, checkDesc_tagLast, hk]

/-- The section's transfer fails: what it has written to host memory stays (R54). -/
theorem issue_dma {sp : OpSpec} {page : Fin 16} {d : Desc} {s : State} {m : Mem}
    (h : Admitted sp page d s) (hr : sp.run (ctxOf sp page d s) (taken page d s) = .dma m) :
    issue sp page d s = completion sp page d s 0 .hostDma []
      { taken page d s with hostMem := m, free := s.free + 1 } := by
  obtain ⟨b, e, o, ht⟩ := taken_eq page d s
  have hfree : (taken page d s).free = s.free := by rw [ht]
  rw [issue_admitted h, runBody]
  simp only [admitted_rom h, if_false, hr, hfree]
  rfl

/-- Settles O14, by how the section ends. -/
theorem sectionRuns : Obligations.SectionRuns := by
  intro i p op d s sp hc hs ha
  have hop := specOf_op hs
  subst hop
  rw [exec_command hc hs ha.1.1]
  cases hr : sp.run (ctxOf sp p d s) (taken p d s) with
  | done st res t => exact congrArg _ (issue_done ha hr)
  | fail st res => exact congrArg _ (issue_fail ha hr)
  | dma m => exact congrArg _ (issue_dma ha hr)
  | wait w t => exact congrArg _ (issue_wait ha hr)

/-- A completion over what the section was given leaves all but its page, the round-robin, the events and records. -/
theorem finish_taken_frame (p : Fin 16) (d : Desc) (s : State) (op : Nat) (tag : BitVec 16) (dg : BitVec 128)
    (enters logs : Bool) (h : Nat) (st : Status) (res : List Word) :
    ∃ b e o r, finish p.val op tag dg enters logs h st res (taken p d s)
        = { s with lastServed := p.val, boxes := b, events := e, out := o, persist := r } ∧
      ∀ q, q ≠ p.val → box { s with boxes := b } q = box s q := by
  obtain ⟨⟨b, e, o, r, hf⟩, hq⟩ := onPage_finish p.val op tag dg enters logs h st res (taken p d s)
  obtain ⟨b', e', o', ht⟩ := taken_eq p d s
  refine ⟨b, e, o, r, by rw [hf, ht], fun q hne => ?_⟩
  have := hq q hne
  rw [box_taken, if_neg hne, hf] at this
  exact this

/-- Settles O15: in both cases the next state is a completion over the state that the section was given. -/
theorem refusedChangesNothing : Obligations.RefusedChangesNothing := by
  intro i p op d s sp hc hs hf h
  rcases h with ⟨st, k, hk⟩ | ⟨ha, st, res, hr⟩
  · rw [failedCheckCompletes i p op d s sp st k hc hs hf hk]
    obtain ⟨b, e, o, r, hx, hq⟩ := finish_taken_frame p d s op d.tag (digestOf op d (fetchBulk (some sp) d s))
      (decide (k ≠ 4 ∧ k ≠ 5)) false 0 st []
    exact ⟨b, e, o, r, congrArg _ hx, hq⟩
  · rw [exec_command hc hs hf.1, issue_fail ha hr, completion]
    obtain ⟨b, e, o, r, hx, hq⟩ := finish_taken_frame p d s sp.op d.tag (digestOf sp.op d (fetchBulk (some sp) d s))
      true (sp.log (bodyOf sp d s)) 0 st res
    exact ⟨b, e, o, r, congrArg _ hx, hq⟩

/-- A window of at most 64 entries stays so. -/
theorem length_pushWindow (w : List WinEntry) (e : WinEntry) : (pushWindow w e).length ≤ max 64 w.length := by
  unfold pushWindow
  dsimp only
  split <;> simp_all

/-- The page of a completion: the slot at CPL_TAIL is written, and the window takes the entry. -/
theorem box_finish (p op : Nat) (tag : BitVec 16) (dg : BitVec 128) (enters logs : Bool) (h : Nat) (st : Status)
    (res : List Word) (s : State) : box (finish p op tag dg enters logs h st res s) p = { box s p with
      cplRing := tset (box s p).cplRing (box s p).cplTail.toNat (cplWords st tag (box s p).epochStaged res)
      cplTail := (box s p).cplTail + 1
      window := if enters then pushWindow (box s p).window ⟨tag, dg, cplWords st tag (box s p).epochStaged res⟩
        else (box s p).window } := by
  have hr : ∀ c : Prop, [Decidable c] → ∀ n k t, box (if c then raise n k t else t) p = box t p := by
    intro c _ n k t
    split
    · exact box_raise n k t p
    · rfl
  have hl : ∀ t, Raised t (changeRecord p op tag st (wd (cplWords st tag (box s p).epochStaged res) 1) h t) :=
    fun t => Raised.ite (raised_record _ _) (Raised.refl _)
  unfold finish
  dsimp only
  have hfin : ∀ c : Prop, [Decidable c] → ∀ t, box (if c then
      changeRecord p op tag st (wd (cplWords st tag (box s p).epochStaged res) 1) h t else t) p = box t p := by
    intro c _ t
    split
    · exact box_of_raised (hl t) p
    · rfl
  rw [hfin, hr, postCpl, box_modBox, if_pos rfl]
  cases enters <;> simp

/-- Settles O16: the page by `box_finish`, the frame by what a completion may change. -/
theorem completionFrame : Obligations.CompletionFrame := by
  intro p op tag dg enters logs h st res s t ws
  obtain ⟨hframe, hq⟩ := onPage_finish p op tag dg enters logs h st res s
  exact ⟨box_finish p op tag dg enters logs h st res s, hq, hframe, length_pushWindow _ _⟩

/-! ### The words of a notification (R40), the order of epochs (R47), handles (R11) -/

theorem now_lt (s : State) : now s < 2 ^ 64 := s.sys.ptime.isLt

/-- Settles O20: word 0 is two half words, words 2 and 3 are the time, and the data follow. -/
theorem notificationWords : Obligations.NotificationWords := by
  intro p type data s
  refine ⟨postNtf_inactive, fun ht hd => ?_⟩
  intro ws
  refine ⟨rfl, (bits_lo_pack _ _).trans (Nat.mod_eq_of_lt ht),
    (bits_hi_pack _ _).trans (Nat.mod_eq_of_lt (box s p).ntfSeq.isLt), rfl,
    (wide_words _).trans (Nat.mod_eq_of_lt (now_lt s)), fun i hi => ?_⟩
  match i, hi with
  | 0, _ => rfl
  | 1, _ => rfl
  | 2, _ => rfl
  | 3, _ => rfl

theorem later_iff (e1 e2 : Word) : later e2 e1 = true ↔ 1 ≤ (e2 - e1).toNat ∧ (e2 - e1).toNat ≤ 2147483647 :=
  decide_eq_true_iff

/-- Settles O21: the two differences add up to 2³², so at most one is small. -/
theorem epochOrder : Obligations.EpochOrder := by
  refine ⟨later_iff, fun e => by simp [later], fun e1 e2 h => ?_, rowRefuses_of_run (issues fun _ _ _ => rfl) ?_⟩
  · obtain ⟨h1, h2⟩ := (later_iff _ _).mp h
    rw [← Bool.not_eq_true, later_iff]
    bv_omega
  · rintro c s ⟨h64, hlen, hgood, hep⟩
    have hrange : ¬(64 < bf c 0 7 0 ∨ (bf c 0 7 0 ≠ 0 ∧ c.len < 4 + 4 * bf c 0 7 0) ∨
        ((List.range (bf c 0 7 0)).map (fun i => bn c (1 + i))).any (fun d => !destGood d) = true) := by
      simp only [List.any_map, List.any_eq_true, List.mem_range, Function.comp_apply, Bool.not_eq_true', not_or, not_exists]
      refine ⟨by omega, by omega, fun i ⟨hi, hb⟩ => ?_⟩
      rw [hgood i hi] at hb
      exact Bool.noConfusion hb
    have hst : c.epoch = 0 ∨ (!later c.epoch (box s c.page).epochStaged) = true := by simpa using hep
    exact (if_neg hrange).trans (if_pos hst)

/-- Settles O22: the four steps of R11 in order, then the fields of a handle. -/
theorem handleChecks : Obligations.HandleChecks := by
  intro page s h type x k ht h0 known granted
  have htype : 1 ≤ type ∧ type < 10 := by have := List.mem_range.mp ht; omega
  have hk : ¬known ↔ (hType h = 0 ∨ 10 ≤ hType h) := by simp only [known]; omega
  have hg : ¬granted ↔ (hPart h ≠ page ∧ page ≠ 0 ∧ (grantOf s h page).isNone = true) := by
    simp [granted, not_or]
  have fault : ∀ e, handleFault page s h [type] = some e → withHandle page s h type x k = refuse e := fun e he => by
    simp only [withHandle, he]
  have passes : known → hType h = type → granted → handleFault page s h [type] = none := fun h1 h2 h3 => by
    rw [handleFault, if_neg (fun h => hk.mpr h h1), if_neg (by simp [h2]), if_neg (fun h => hg.mpr h h3)]
  refine ⟨fun h1 => fault _ ?_, fun h1 h2 => fault _ ?_, fun h1 h2 h3 => fault _ ?_, fun h1 h2 h3 h4 => ?_,
    fun h1 h2 h3 y hy => ?_, fun part i hp hi => ?_⟩
  · rw [handleFault, if_pos (hk.mp h1)]
  · rw [handleFault, if_neg (fun h => hk.mpr h h1), if_pos (by simpa using h2)]
  · rw [handleFault, if_neg (fun h => hk.mpr h h1), if_neg (by simp [h2]), if_pos (hg.mp h3)]
  · simp only [withHandle, passes h1 h2 h3, h4]
  · rw [hy]
    exact withHandle_named (passes h1 h2 h3)
  · simp only [hPart, hType, hIndex, handleOf]
    omega

end Sys2Proof.Proofs
end

section
/-! The proof that every command of the table answers a next state, and only a term that is none stops. -/

namespace Sys2Proof.Proofs

open Sys2Proof Sys2Proof.Machine Sys2Proof.Safety Sys2Proof.Laws

/-! ### Which terms stop -/

/-- A meaning that answers a next state where the term is a command of the table, and stops by name where it is not. -/
def Answers (isCommand : Bool) (o : Host.Outcome State Fault Refusal) : Prop :=
  (isCommand = true → ∃ t, o = .next t) ∧ (isCommand = false → o = .fault .illFormed)

/-- A row without a condition on its term. -/
theorem answers_always {o : Host.Outcome State Fault Refusal} (h : ∃ t, o = .next t) : Answers true o :=
  ⟨fun _ => h, nofun⟩

/-- A row whose term is checked first. -/
theorem answers_checked {P : Prop} [Decidable P] {o : Host.Outcome State Fault Refusal} (h : ∃ t, o = .next t) :
    Answers (decide P) (if P then o else .fault .illFormed) :=
  ⟨fun hp => (if_pos (of_decide_eq_true hp)) ▸ h, fun hp => if_neg (of_decide_eq_false hp)⟩

/-- The same check with its branches the other way round. -/
theorem answers_unless {P Q : Prop} [Decidable P] [Decidable Q] {o : Host.Outcome State Fault Refusal} (hq : Q ↔ ¬P)
    (h : ∃ t, o = .next t) : Answers (decide P) (if Q then .fault .illFormed else o) :=
  ⟨fun hp => (if_neg (fun q => hq.mp q (of_decide_eq_true hp))) ▸ h, fun hp => if_pos (hq.mpr (of_decide_eq_false hp))⟩

/-- An access asks for at least one byte (R25). -/
theorem answers_access {a : Access} {o : Host.Outcome State Fault Refusal} (h : ∃ t, o = .next t) :
    Answers (decide (1 ≤ a.bytes.val)) (if a.bytes.val = 0 then .fault .illFormed else o) :=
  answers_unless (by omega) h

/-- So does the access that meets a clear (R26). -/
theorem answers_rival {rival : Option Access} {f : Option Access → Host.Outcome State Fault Refusal}
    (hn : ∃ t, f none = .next t) (hs : ∀ a, Answers (decide (1 ≤ a.bytes.val)) (f (some a))) :
    Answers (decide (∀ a ∈ rival, 1 ≤ a.bytes.val)) (f rival) := by
  cases rival with
  | none => simpa using answers_always hn
  | some a => simpa using hs a

/-- A row that is a mailbox opcode is checked for its twelve body words. -/
theorem command_answers {c : Instr} {p : Fin 16} {op : Nat} {d : Desc} (h : c.command = some (p, op, d)) (s : State) :
    Answers c.wf (exec c s) := by
  cases c
  case acquireObject => exact answers_checked ⟨_, rfl⟩
  case submitJob => exact answers_checked ⟨_, rfl⟩
  all_goals cases h <;> exact answers_checked ⟨_, rfl⟩

/-- The other rows: those whose term is checked, each by its own condition; those that go several ways, on each of them;
and those that go one way. -/
theorem event_answers {c : Instr} (h : c.command = none) (s : State) : Answers c.wf (exec c s) := by
  cases c
  any_goals contradiction
  case acquireObject => exact answers_checked ⟨_, rfl⟩
  case submitJob => exact answers_checked ⟨_, rfl⟩
  case ancPacket => exact answers_checked ⟨_, rfl⟩
  case errValidClear rival =>
    exact answers_rival (f := fun r => exec (.errValidClear r) s) ⟨_, rfl⟩ fun a => answers_access ⟨_, rfl⟩
  case errMoreClear rival =>
    exact answers_rival (f := fun r => exec (.errMoreClear r) s) ⟨_, rfl⟩ fun a => answers_access ⟨_, rfl⟩
  case accessRefused a => exact answers_access ⟨_, rfl⟩
  case bar2AccessRefused a => exact answers_access ⟨_, rfl⟩
  case plannerRun slowdowns nack edges =>
    refine answers_unless Iff.rfl ?_
    split <;> exact ⟨_, rfl⟩
  case thermalSample readings lost =>
    refine answers_unless Iff.rfl ?_
    split <;> exact ⟨_, rfl⟩
  case
    workItemDone | vbatCheck | hbmTemperature | deadlineMiss | capacityRiseHold | patchCopyDone | surfaceDone | decodePictureDone |
    decodeBudgetExpiry | readObjectDone | spillCopyDone | spillLate | recallStart | recallDone |
    timeshiftPresentation | jobRelease | linkCkDetected | linkLockHeld | alignInterval | backLost |
    linkStateTimeout | linkErrorHold | linkActiveHold | low2IdleExpiry | prbsSync | prbsSyncLost | lineMatch |
    headFetchStart | headLineZero | layerUnderrun | audioPlayoutMissing | audioBufferTarget | srcUnlock |
    audioClockMove | audioRampEnd | audioOutputPacket | streamStallTimeout | candidateFault | qualTimeExpiry |
    refinEdge | ptpMessage | selectorEvaluation | slewDone | holdoverDataValid | streamEntryPacket | ethPacket
    | ethLinkDown | ethLinkUp | fecCodewordUncorrected | silenceTimeout | nexthopTimeout | nexthopProbe |
    arpReply | resolveFail | holdoffExpiry | holdoffRestore | bothLostNexthopHold | poolDone | exportDone |
    encodeFrameDone | nvmeCompletion | nvmeTimeout | stallHeaderRetry | smartPoll | segmentTimeLimit |
    postrollExpiry | manifestSigned | digestSigned | groupFrameStart | importRequestTimeout |
    subscriptionRenew | renewExpired | leaderlessTimeout | formFail | divergencePersist | commitHandOff |
    causeClear | registerWrite | msixUnmask | lateCompletion | eventTimerExpiry | faultExit |
    musicBoxFoldExpiry | domainFrameTick | partitionFreed | partitionResetQuiet | checkpointTimer | tamperEdge
    | throttleHoldExpiry | railExcursion | adcConversionDone | deviceResetDelay | watchdogExpiry |
    powerFailDetect | flashDone | commandTake =>
    refine answers_always ?_
    dsimp only [exec,
      execWorkItemDone, execVbatCheck, execHbmTemperature, execDeadlineMiss, execCapacityRiseHold, execPatchCopyDone, execSurfaceDone,
      execDecodePictureDone, execDecodeBudgetExpiry, execReadObjectDone, execSpillCopyDone, execSpillLate,
      execRecallStart, execRecallDone, execTimeshiftPresentation, execJobRelease, execLinkCkDetected,
      execLinkLockHeld, execAlignInterval, execBackLost, execLinkStateTimeout, execLinkErrorHold,
      execLinkActiveHold, execLow2IdleExpiry, execPrbsSync, execPrbsSyncLost, execLineMatch,
      execHeadFetchStart, execHeadLineZero, execLayerUnderrun, execAudioPlayoutMissing, execAudioBufferTarget,
      execSrcUnlock, execAudioClockMove, execAudioRampEnd, execAudioOutputPacket, execStreamStallTimeout,
      execCandidateFault, execQualTimeExpiry, execRefinEdge, execPtpMessage, execSelectorEvaluation,
      execSlewDone, execHoldoverDataValid, execStreamEntryPacket, execEthPacket, execEthLinkDown,
      execEthLinkUp, execFecCodewordUncorrected, execSilenceTimeout, execNexthopTimeout, execNexthopProbe,
      execArpReply, execResolveFail, execHoldoffExpiry, execHoldoffRestore, execBothLostNexthopHold,
      execPoolDone, execExportDone, execEncodeFrameDone, execNvmeCompletion, execNvmeTimeout,
      execStallHeaderRetry, execSmartPoll, execSegmentTimeLimit, execPostrollExpiry, execManifestSigned,
      execDigestSigned, execGroupFrameStart, execImportRequestTimeout, execSubscriptionRenew,
      execRenewExpired, execLeaderlessTimeout, execFormFail, execDivergencePersist, execCommitHandOff,
      execCauseClear, execRegisterWrite, execMsixUnmask, execLateCompletion, execEventTimerExpiry,
      execFaultExit, execMusicBoxFoldExpiry, execDomainFrameTick, execPartitionFreed, execPartitionResetQuiet,
      execCheckpointTimer, execTamperEdge, execThrottleHoldExpiry, execRailExcursion, execAdcConversionDone,
      execDeviceResetDelay, execWatchdogExpiry, execPowerFailDetect, execFlashDone, execCommandTake]
    repeat' split
    all_goals exact ⟨_, rfl⟩
  all_goals exact answers_always ⟨_, rfl⟩

/-- Settles O3, by whether the row is a mailbox opcode. -/
theorem commandsAnswer : Obligations.CommandsAnswer := by
  intro c s
  obtain hc | ⟨⟨p, op, d⟩, hc⟩ := Option.eq_none_or_eq_some c.command
  · exact event_answers hc s
  · exact command_answers hc s

end Sys2Proof.Proofs
end

section
/-! Proofs of the statements about the system class, COMMIT and partitions (chapters 2 and 3). -/

namespace Sys2Proof.Proofs

open Sys2Proof Sys2Proof.Machine Sys2Proof.Safety Sys2Proof.Laws

/-! ### System (R55–R59) -/

/-- Settles O23: each command's own section, at the branch that the case names. -/
theorem systemCommands : Obligations.SystemCommands := by
  refine ⟨row_of_run (issues fun _ _ _ => rfl) fun _ _ _ => rfl, ?_, ?_,
    rowRefuses_of_run (issues fun _ _ _ => rfl) fun _ _ h => if_pos h,
    row_of_run (issues fun _ _ _ => rfl) fun _ _ _ => rfl, row_of_run (issues fun _ _ _ => rfl) fun _ _ _ => rfl, ?_, ?_, ?_⟩
  · refine row_of_run (issues fun _ _ _ => rfl) fun c s h => ?_
    show cmdGetCapabilities c s = _
    rw [cmdGetCapabilities, h]
    rfl
  · refine row_of_run (issues fun _ _ _ => rfl) fun c s h => ?_
    show cmdGetCapabilities c s = _
    rw [cmdGetCapabilities, h]
    rfl
  · refine row_of_run (issues fun _ _ _ => rfl) fun c s ⟨hs, ht⟩ => ?_
    show cmdReset c s = _
    simp only [cmdReset, hs, ht]
    simp [nothing, zeroPointers]
  · refine rowWaits_of_run (issues fun _ _ _ => rfl) fun c s ⟨hs, ht, ha, ho⟩ => ?_
    show cmdReset c s = _
    have hauth : ¬(c.page ≠ 0 ∧ ¬bf c 0 11 8 = c.page) := by tauto
    simp [cmdReset, hs, ht, ha, hauth]
  · refine row_of_run (issues fun _ _ _ => rfl) fun c s ⟨hs, ht, hp⟩ => ?_
    show cmdReset c s = _
    simp [cmdReset, hs, ht, hp, nothing]

/-- Settles O24: by what the executing command waits for, and by whether the instant has come. -/
theorem resetEnds : Obligations.ResetEnds := by
  refine ⟨fun s e t he hw hq => ?_, fun s e t he hw hq => ?_, fun s st cause t hd ht => ?_, fun s st cause t hd ht => ?_⟩
  · simp [exec, execPartitionResetQuiet, he, hw, hq]
  · simp [exec, execPartitionResetQuiet, he, hw, hq]
  · simp [exec, execDeviceResetDelay, hd, ht]
  · simp [exec, execDeviceResetDelay, hd, ht]

/-! ### COMMIT (R46–R52) -/

/-- Changes of rings leave the pages. -/
theorem foldl_boxes {α : Type} {f : State → α → State} (hf : ∀ s a, (f s a).boxes = s.boxes) (l : List α) (s : State) :
    (l.foldl f s).boxes = s.boxes := by
  induction l generalizing s with
  | nil => rfl
  | cons a l ih => rw [List.foldl_cons, ih, hf]

@[simp] theorem setRing_boxes (h : Handle) (l : List Slot) (s : State) : (setRing h l s).boxes = s.boxes := by
  unfold setRing
  split <;> rfl

@[simp] theorem addSlot_boxes (h : Handle) (pages payer : Nat) (ext : Bool) (s : State) :
    (addSlot h pages payer ext s).boxes = s.boxes := by
  unfold addSlot
  split
  · rfl
  · simp [tickOrder]

@[simp] theorem addSlots_boxes (h : Handle) (pages payer : Nat) (ext : Bool) (n : Nat) (s : State) :
    (addSlots h pages payer ext n s).boxes = s.boxes := by
  induction n generalizing s with
  | zero => rfl
  | succ n ih => rw [addSlots, ih, addSlot_boxes]

@[simp] theorem dropDeleted_boxes (h : Handle) (s : State) : (dropDeleted h s).boxes = s.boxes := by
  unfold dropDeleted
  split
  · split <;> rfl
  · rfl

@[simp] theorem settleObj_boxes (id : Nat) (s : State) : (settleObj id s).boxes = s.boxes := by
  unfold settleObj
  split
  · rfl
  · dsimp only
    refine (apply_ite State.boxes _ _ _).trans (ite_eq_left_iff.mpr fun _ => ?_)
    refine (apply_ite State.boxes _ _ _).trans (ite_eq_right_iff.mpr fun _ => ?_)
    rw [dropDeleted_boxes, setRing_boxes]

@[simp] theorem settleRing_boxes (h : Handle) (s : State) : (settleRing h s).boxes = s.boxes :=
  foldl_boxes (fun s (e : Slot) => settleObj_boxes e.id s) _ s

@[simp] theorem settleRings_boxes (s : State) : (settleRings s).boxes = s.boxes :=
  (foldl_boxes (fun s h => settleRing_boxes h s) _ _).trans (foldl_boxes (fun s h => settleRing_boxes h s) _ s)

@[simp] theorem markRing_boxes (h : Handle) (s : State) : (markRing h s).boxes = s.boxes := by
  unfold markRing
  split
  · rfl
  · split
    · rfl
    · rw [addSlots_boxes, srcMod_boxes]

@[simp] theorem markRings_boxes (s : State) : (markRings s).boxes = s.boxes :=
  foldl_boxes (fun s h => markRing_boxes h s) _ s

@[simp] theorem followRing_boxes (h : Handle) (s : State) : (followRing h s).boxes = s.boxes := by
  unfold followRing
  split
  · rfl
  · dsimp only
    split
    · rfl
    · rw [addSlots_boxes, modRoute_boxes]

@[simp] theorem followRings_boxes (s : State) : (followRings s).boxes = s.boxes :=
  foldl_boxes (fun s _ => foldl_boxes (fun s (e : Handle × Nat × Nat) => followRing_boxes e.1 s) _ s) _ s

theorem box_of_boxes {s t : State} (h : t.boxes = s.boxes) (p : Nat) : box t p = box s p := by
  unfold box
  rw [h]

/-- Posting a notification leaves what its page has staged, handed off and is waiting for. -/
theorem box_postNtf_epochs (p type : Nat) (data : List Word) (s : State) :
    (box (postNtf p type data s) p).epochStaged = (box s p).epochStaged ∧
      (box (postNtf p type data s) p).staged = (box s p).staged ∧
      (box (postNtf p type data s) p).outstanding = (box s p).outstanding := by
  unfold postNtf
  dsimp only
  split
  · exact ⟨rfl, rfl, rfl⟩
  · split <;> simp [lostNtf]

/-- With no item staged, a hand-off plans no head and changes nothing but its page's epoch and rings. -/
theorem handOff_nothing {p : Nat} {e : Word} {s : State} (h : (box s p).staged = []) :
    handOff p e s = ([], settleRings (postNtf p 0x0101 [e, 0] (modBox p (fun m => { m with epochStaged := e, staged := [] })
      (planAll [] (placeAll p e [] s))))) := by
  rw [handOff, h]
  rfl

/-- Settles O25: COMMIT's checks are those of `CommitSound` in their order; the other cases are the sections' own. -/
theorem commitCommands : Obligations.CommitCommands := by
  have sound : ∀ c s, CommitSound c s → cmdCommit c s = if inSpan s (groupOf c) then .wait (.handOff c.epoch (groupOf c)) s
      else .done .ok (handOffWords s c.page (handOff c.page c.epoch s).1) (handOff c.page c.epoch s).2 := by
    rintro c s ⟨⟨hn, hl, hd⟩, ⟨he0, hel⟩, ⟨hk, ht⟩, hitem, hhead, hcount, hshort⟩
    have hrange : ¬(64 < bf c 0 7 0 ∨ (bf c 0 7 0 ≠ 0 ∧ c.len < 4 + 4 * bf c 0 7 0) ∨
        (groupOf c).any (fun d => !destGood d) = true) := by
      rintro (h | ⟨h, hlt⟩ | h)
      · omega
      · have := hl h; omega
      · obtain ⟨d, hm, hb⟩ := List.any_eq_true.mp h
        simp [hd d hm] at hb
    have hepoch : ¬(c.epoch = 0 ∨ (!later c.epoch (box s c.page).epochStaged) = true) := by
      simpa [hel] using he0
    have hgroup : ¬((groupOf c).any (fun d => decide (dKind d = 3)) = true ∨ 1 < ((groupOf c).map (destTd s)).dedup.length) := by
      rintro (h | h)
      · obtain ⟨d, hm, hb⟩ := List.any_eq_true.mp h
        exact hk d hm (of_decide_eq_true hb)
      · omega
    refine (if_neg hrange).trans ((if_neg hepoch).trans ((if_neg hgroup).trans ?_))
    unfold placed at hitem hhead hcount hshort
    simp only [hitem, hhead, hcount, hshort]
    rfl
  refine ⟨row_of_run (issues fun _ _ _ => rfl) fun c s ⟨hc, hs⟩ => ?_,
    rowWaits_of_run (issues fun _ _ _ => rfl) fun c s ⟨hc, hs⟩ => ?_,
    row_of_run (issues fun _ _ _ => rfl) fun _ _ _ => rfl, row_of_run (issues fun _ _ _ => rfl) fun _ _ _ => rfl,
    fun s e epoch g he hw hs => ?_, fun p e s h => ?_⟩
  · exact (sound c s hc).trans (if_neg (by simp [hs]))
  · exact (sound c s hc).trans (if_pos hs)
  · simp only [exec, execCommitHandOff, he, hw, hs]
    rfl
  · rw [handOff_nothing h]
    have hb : ∀ t, box (settleRings t) p = box t p := fun t => box_of_boxes (settleRings_boxes t) p
    have hplan : box (planAll [] (placeAll p e [] s)) p = box (placeAll p e [] s) p :=
      box_of_boxes ((markRings_boxes _).trans (followRings_boxes _)) p
    obtain ⟨h1, h2, h3⟩ := box_postNtf_epochs p 0x0101 [e, 0] (modBox p (fun m => { m with epochStaged := e, staged := [] })
      (planAll [] (placeAll p e [] s)))
    refine ⟨rfl, ?_, ?_, ?_⟩
    · rw [hb, h1, box_modBox, if_pos rfl]
    · rw [hb, h2, box_modBox, if_pos rfl]
    · rw [hb, h3, box_modBox, if_pos rfl, hplan]

end Sys2Proof.Proofs
end

section
/-! Proof of the statement about partitions (chapter 3). -/

namespace Sys2Proof.Proofs

open Sys2Proof Sys2Proof.Machine Sys2Proof.Safety Sys2Proof.Laws

@[simp] theorem evGet_evPut (n : Nat) (x : EventSrc) (s : State) : evGet (evPut n x s) n = x := by
  simp [evGet]

/-- A source that is not pending, and was not, sends nothing. -/
theorem settle_quiet {n : Nat} {s : State} (hp : isPending s n = false) (hw : (evGet s n).wasPending = false) :
    settle n s = s := by
  simp [settle, hp, hw]

/-- A source that changes owner has no enabled cause, so nothing is sent (R374). -/
theorem changeOwner_eq (n : Nat) (s : State) : changeOwner n s = evPut n { evGet s n with
    cause := 0, enable := 0, vector := 0, int := false, wasPending := false } s :=
  settle_quiet (by simp [isPending]) (by simp)

@[simp] theorem length_insertBy {α : Type} (le : α → α → Bool) (x : α) (l : List α) :
    (insertBy le x l).length = l.length + 1 := by
  induction l with
  | nil => rfl
  | cons y l ih =>
    unfold insertBy
    split <;> simp [ih]

@[simp] theorem length_sortBy {α : Type} (le : α → α → Bool) (l : List α) : (sortBy le l).length = l.length := by
  induction l with
  | nil => rfl
  | cons x l ih => rw [sortBy, List.foldr_cons, length_insertBy, List.length_cons]; exact congrArg (· + 1) ih

/-- Records that fit into the host's buffer are all written (R78). -/
theorem writeRecords_fit {l : List (List Word)} {n a len : Nat} {s : State} (hl : l.length ≤ len / 64)
    (hr : Reaches s a (bytesOf l.flatten).length) : writeRecords l n a len s
      = .done .ok [word l.length, (l.getLast?.map (fun r => wd r 3)).getD (word n)] (wrote a (bytesOf l.flatten) s) := by
  unfold writeRecords
  simp only [List.take_of_length_le hl]
  rw [hostWrite_reached hr, if_neg (lt_irrefl _)]

/-- No element of a filtered list meets a condition that none of its members meets. -/
theorem any_filter_false {l : List Nat} {p q : Nat → Bool} (h : ∀ b ∈ l, p b = true → q b = false) :
    (l.filter p).any q = false := by
  rw [List.any_eq_false]
  intro b hb
  obtain ⟨hm, hp⟩ := List.mem_filter.mp hb
  simp [h b hm hp]

/-- Settles O26, row by row: each guard of the section is refuted by the case's condition. -/
theorem partitionCommands : Obligations.PartitionCommands := by
  refine ⟨row_of_run (issues fun _ _ _ => rfl) fun c s ⟨hp, ha, hg⟩ => ?_, fun p s => ?_,
    row_of_run (issues fun _ _ _ => rfl) fun c s ⟨hp, ha, hk⟩ => ?_,
    rowRefuses_of_run (issues fun _ _ _ => rfl) fun c s ⟨hp, h⟩ => ?_,
    row_of_run (issues fun _ _ _ => rfl) fun c s ⟨hp, h3, h11, ha, huse, hroom⟩ => ?_,
    rowRefuses_of_run (issues fun _ _ _ => rfl) fun c s ⟨hp, h3, h11, ha, hold, huse⟩ => ?_,
    row_of_run (issues fun _ _ _ => rfl) fun c s ⟨hp, hr, ha, hgained, hlost⟩ => ?_,
    row_of_run (issues fun _ _ _ => rfl) fun c s ⟨hr, h11, hv, ho, ha⟩ => ?_,
    fun x => row_of_run (issues fun _ _ _ => rfl) fun c s ⟨hx, hne, ha, hd, hroom⟩ => ?_,
    fun x => row_of_run (issues fun _ _ _ => rfl) fun c s ⟨hx, ho⟩ => ?_,
    row_of_run (issues fun _ _ _ => rfl) fun c s h => ?_,
    fun l => row_of_run (issues fun _ _ _ => rfl) fun c s ⟨hal, hm, hlo, hhi, hl, hfit, hreach⟩ => ?_,
    fun p s x hx hh hf => ?_⟩
  · show cmdCreatePartition c s = _
    simp [cmdCreatePartition, hp, ha, hg, nothing]
  · simp [changeOwner_eq]
  · show cmdDeletePartition c s = _
    have hkeys : ¬((!(box s (bf c 0 3 0)).active) = true ∨ ((!bb c 0 4) = true ∧ (!(keysOf s (bf c 0 3 0)).isEmpty) = true)) := by
      rcases hk with hk | hk <;> simp [ha, hk]
    exact (if_neg hp).trans (if_neg hkeys)
  · show cmdDeletePartition c s = _
    refine (if_neg hp).trans (if_pos ?_)
    rcases h with h | ⟨hb, hk⟩
    · simp [h]
    · simp [hb, hk]
  · show cmdSetQuota c s = _
    have hrange : ¬(bf c 0 3 0 = 0 ∨ bf c 0 15 8 = 0 ∨ 11 < bf c 0 15 8 ∨ (bf c 0 15 8 = 2 ∧ 2 ^ 32 ≤ bn64 c 1)) := by omega
    unfold cmdSetQuota
    dsimp only
    rw [if_neg hrange, if_neg (by simp [ha]), if_neg (by omega), if_neg ?_, if_neg (by omega)]
    · by_cases h7 : bf c 0 15 8 = 7
      · rw [if_pos h7, if_pos h7, h7]
        rfl
      · rw [if_neg h7, if_neg h7]
        rfl
    · split at hroom <;> simp [*] <;> omega
  · show cmdSetQuota c s = _
    have hrange : ¬(bf c 0 3 0 = 0 ∨ bf c 0 15 8 = 0 ∨ 11 < bf c 0 15 8 ∨ (bf c 0 15 8 = 2 ∧ 2 ^ 32 ≤ bn64 c 1)) := by omega
    unfold cmdSetQuota
    dsimp only
    rw [if_neg hrange, if_neg (by simp [ha]), if_neg (by omega), if_neg ?_, if_pos ⟨hold, huse⟩]
    split <;> simp <;> omega
  · show cmdSetQuota c s = _
    have hrange : ¬(bf c 0 3 0 = 0 ∨ bf c 0 15 8 = 0 ∨ 11 < bf c 0 15 8 ∨ (bf c 0 15 8 = 2 ∧ 2 ^ 32 ≤ bn64 c 1)) := by omega
    have hfree : ((members (bn64 c 1) 64).filter (fun b => !tb (quotaOf s (bf c 0 3 0) (bf c 0 15 8)) b)).any
        (fun b => decide (holder s (bf c 0 15 8 - 1) b ≠ 0)) = false :=
      any_filter_false fun b hb hn => by simp [(hgained b hb (by simpa using hn)).1]
    have hunused : ((members (bn64 c 1) 64).filter (fun b => !tb (quotaOf s (bf c 0 3 0) (bf c 0 15 8)) b)).any
        (fun b => tb (useOf s 0 (bf c 0 15 8)) b) = false :=
      any_filter_false fun b hb hn => (hgained b hb (by simpa using hn)).2
    have hidle : ((members (quotaOf s (bf c 0 3 0) (bf c 0 15 8)) 64).filter (fun b => !tb (bn64 c 1) b)).any
        (fun b => tb (useOf s (bf c 0 3 0) (bf c 0 15 8)) b) = false :=
      any_filter_false fun b hb hn => hlost b hb (by simpa using hn)
    unfold cmdSetQuota
    dsimp only
    rw [if_neg hrange, if_neg (by simp [ha]), if_pos (by omega), hfree, hidle, hunused, if_neg Bool.false_ne_true,
      if_neg (by simp)]
    rfl
  · show cmdGetQuota c s = _
    have hrange : ¬(bf c 0 15 8 = 0 ∨ 11 < bf c 0 15 8 ∨ bn64 c 1 ≠ 0) := by omega
    have hauth : ¬(c.page ≠ 0 ∧ bf c 0 3 0 ≠ c.page) := by tauto
    refine (if_neg hrange).trans ((if_neg hauth).trans ?_)
    simp [ha, same]
  · refine (withOwnSource_owns hx).trans ?_
    have hrange : ¬(bf c 1 3 0 = x.owner ∨ (!(box s (bf c 1 3 0)).active) = true) := by simp [hne, ha]
    have hgrants : ¬((grantOf s (bn c 0) (bf c 1 3 0)).isNone = true ∧ 4096 ≤ s.grants.length) := by
      rintro ⟨h1, h2⟩
      rcases hroom with h | h
      · simp_all
      · omega
    exact (if_neg hrange).trans ((if_neg (by simp [hd])).trans (if_neg hgrants))
  · refine (withSource_reads hx).trans (if_neg ?_)
    tauto
  · show cmdListGrants c s = _
    unfold cmdListGrants
    dsimp only
    have hlen := h
    rw [← length_sortBy grantLe] at hlen
    rw [if_neg, List.take_of_length_le]
    · rfl
    · simp at hlen ⊢; omega
    · simp at hlen ⊢; omega
  · show cmdReadChangeLog c s = _
    have hrange : ¬(bn64 c 1 % 4 ≠ 0 ∨ bn c 3 % 64 ≠ 0 ∨ bn c 3 < 64 ∨ 16384 < bn c 3) := by omega
    refine (if_neg hrange).trans ?_
    rw [hl]
    exact writeRecords_fit hfit hreach
  · simp [exec, execPartitionFreed, hx, hh, hf]

end Sys2Proof.Proofs
end

section
/-! Proofs of the statements about the commands of the ingress (chapter 4). -/

namespace Sys2Proof.Proofs

open Sys2Proof Sys2Proof.Machine Sys2Proof.Safety Sys2Proof.Laws

theorem createLinkStream_fits {c : Ctx} {s : State} {f : Format} {u w : Nat}
    (hw : bf c 0 7 6 = 0 ∧ w = 1 ∨ bf c 0 7 6 = 1 ∧ w = 2 ∨ bf c 0 7 6 = 2 ∧ w = 4)
    (hlanes : lanesFit (((tget s.ports (bf c 0 3 0)).map (fun q => q.lanes)).getD 0) (subsOnPort s (bf c 0 3 0)) (bf c 0 5 4) w = true)
    (hf : f = formatOf (bw c 2) (bw c 3) (bw c 4)) (hold : holder s 1 (bf c 0 3 0) = c.page) (hrange : formatRange f = true)
    (hmode : ((tget s.ports (bf c 0 3 0)).map (fun q => q.mode)).getD 0 ≠ 2)
    (hagree : formatAgrees (.link (bf c 0 3 0) (bf c 0 5 4) w) f = true)
    (hsub : ∀ o ∈ subsOnPort s (bf c 0 3 0), o.1 ≠ bf c 0 5 4)
    (hfits : StreamFits c (.link (bf c 0 3 0) (bf c 0 5 4) w) f u s) :
    cmdCreateLinkStream c s = .done .ok (madeWords u (makeSource c.page (.link (bf c 0 3 0) (bf c 0 5 4) w) f u s))
      (makeSource c.page (.link (bf c 0 3 0) (bf c 0 5 4) w) f u s).2 := by
  have hwidth : (if bf c 0 7 6 = 0 then 1 else if bf c 0 7 6 = 1 then 2 else 4) = w := by
    obtain ⟨h, rfl⟩ | ⟨h, rfl⟩ | ⟨h, rfl⟩ := hw <;> rw [h] <;> rfl
  have hfree : ¬(subsOnPort s (bf c 0 3 0)).any (fun o => decide (o.1 = bf c 0 5 4)) = true := by
    rw [Bool.not_eq_true, List.any_eq_false]
    exact fun o ho => by simpa using hsub o ho
  subst hf
  unfold cmdCreateLinkStream
  dsimp only
  rw [hwidth, if_neg (by simp [hold]), if_neg (by simp [hrange]; omega), if_neg hmode, if_neg (by rw [hagree, hlanes]; decide),
    if_neg hfree, createStream_fits hfits]

theorem create2110Stream_fits {c : Ctx} {s : State} {f : Format} {u : Nat} {anc : Option Nat}
    (hanc : anc = if bf c 1 15 0 = 0xFFFF then none else some (bf c 1 15 0)) (hf : f = formatOf (bw c 2) (bw c 3) (bw c 4))
    (hn : bf c 0 7 0 ≤ 159) (hown : ownsFlow s c.page (bf c 0 7 0) = true) (hrx : rxFlow s (bf c 0 7 0) 0 = true)
    (hancs : bf c 1 15 0 = 0xFFFF ∨ bf c 1 15 0 ≤ 1023 ∧ ownsFlow s c.page (bf c 1 15 0) = true ∧ rxFlow s (bf c 1 15 0) 2 = true)
    (hrange : formatRange f = true) (hagree : formatAgrees (.st2110 (bf c 0 7 0) (bb c 0 8) anc) f = true)
    (hfree : ∀ e ∈ s.sources, e.2.deleted = false → ∀ m b a, e.2.kind = .st2110 m b a → m ≠ bf c 0 7 0 ∧
      (a.isSome = true → a ≠ anc))
    (hfits : StreamFits c (.st2110 (bf c 0 7 0) (bb c 0 8) anc) f u s) :
    cmdCreate2110Stream c s = .done .ok (madeWords u (makeSource c.page (.st2110 (bf c 0 7 0) (bb c 0 8) anc) f u s))
      (makeSource c.page (.st2110 (bf c 0 7 0) (bb c 0 8) anc) f u s).2 := by
  have hbusy : ¬s.sources.any (fun e => match e.2.kind with
      | .st2110 m _ a => !e.2.deleted && (decide (m = bf c 0 7 0) || (a.isSome && decide (a = anc)))
      | _ => false) = true := by
    rw [Bool.not_eq_true, List.any_eq_false]
    intro e he
    split
    · next m b a hk =>
      cases hd : e.2.deleted
      · obtain ⟨hm, ha⟩ := hfree e he hd m b a hk
        cases a with
        | none => simp [hm]
        | some j => simp [hm, ha rfl]
      · simp
    · exact Bool.false_ne_true
  subst hf
  unfold cmdCreate2110Stream
  dsimp only
  rw [← hanc]
  have hauth : ¬(bf c 0 7 0 ≤ 159 ∧ (!ownsFlow s c.page (bf c 0 7 0)) = true ∨
      bf c 1 15 0 ≤ 1023 ∧ (!ownsFlow s c.page (bf c 1 15 0)) = true) := by
    rcases hancs with h | ⟨h, ho, -⟩
    · simp [hown, h]
    · simp [hown, ho]
  have hkind : ¬((!formatAgrees (.st2110 (bf c 0 7 0) (bb c 0 8) anc) (formatOf (bw c 2) (bw c 3) (bw c 4))) = true ∨
      (!rxFlow s (bf c 0 7 0) 0) = true ∨ bf c 1 15 0 ≠ 0xFFFF ∧ (!rxFlow s (bf c 1 15 0) 2) = true) := by
    rcases hancs with h | ⟨-, -, hr⟩
    · simp [hagree, hrx, h]
    · simp [hagree, hrx, hr]
  rw [if_neg hauth, if_neg (by simp [hrange]; omega), if_neg hkind]
  exact (if_neg hbusy).trans (createStream_fits hfits)

/-- The core of CREATE_DECODE_CONTEXT: the one asked for where it has room, or the one chosen. -/
theorem createDecode_fits {c : Ctx} {s : State} {x : Source} {k : Nat} (hx : Owns c s x) (hkind : x.kind = .entry)
    (hrange : DecodeInRange c) (h265 : bb c 1 9 = true → bb c 1 8 = true) (hquota : quotaUse s c.page 5 < quotaOf s c.page 5)
    (hcore : if bf c 1 7 0 = 255 then chooseCore s ⟨bf c 2 12 0 * bf c 2 27 16 * rate1001 (bf c 1 19 16), 1001⟩ = some k
      else (s.decodes.filter (fun e => decide (e.2.core = bf c 1 7 0))).length < 16 ∧ k = bf c 1 7 0)
    (hobjs : (makeDecode c k s).2.2.objects.length ≤ 262144) (hshort : shortfall s (makeDecode c k s).2.2 = none) :
    cmdCreateDecode c s = .done .ok [word (makeDecode c k s).1, word (makeDecode c k s).2.1, word k,
      word (refUnitsOf (bf c 2 12 0) (bf c 2 27 16) (decodeDpb c) (bb c 1 9))] (makeDecode c k s).2.2 := by
  have hpick : (if bf c 1 7 0 = 255 then chooseCore s ⟨bf c 2 12 0 * bf c 2 27 16 * rate1001 (bf c 1 19 16), 1001⟩
      else if (s.decodes.filter (fun e => decide (e.2.core = bf c 1 7 0))).length < 16 then some (bf c 1 7 0) else none) = some k := by
    split at hcore
    · rwa [if_pos ‹_›]
    · rw [if_neg ‹_›, if_pos hcore.1, hcore.2]
  unfold DecodeInRange decodeDpb decodeRing at hrange
  refine (withOwnSource_owns hx).trans ?_
  dsimp only
  rw [if_neg (by omega), if_neg (by simp [hkind]; exact h265), if_neg (by omega)]
  simp only [hpick]
  exact (if_neg (Nat.not_lt.mpr hobjs)).trans (admitted_fits hshort)

/-- Settles O27: the four commands where what they make fits. -/
theorem ingressCreates : Obligations.IngressCreates := by
  refine ⟨fun k f u => row_of_run (issues fun _ _ _ => rfl) ?_, fun k f u => row_of_run (issues fun _ _ _ => rfl) ?_,
    fun f => row_of_run (issues fun _ _ _ => rfl) ?_, fun x k => row_of_run (issues fun _ _ _ => rfl) ?_⟩
  · rintro c s ⟨⟨w, rfl, hw, hlanes⟩, hf, hold, hrange, hmode, hagree, hsub, hfits⟩
    exact createLinkStream_fits hw hlanes hf hold hrange hmode hagree hsub hfits
  · rintro c s ⟨rfl, hf, hn, hown, hrx, hancs, hrange, hagree, hfree, hfits⟩
    exact create2110Stream_fits rfl hf hn hown hrx hancs hrange hagree hfree hfits
  · rintro c s ⟨rfl, hrange, hagree, hcount, hobjs, hshort⟩
    show cmdCreateSurface c s = _
    unfold cmdCreateSurface
    dsimp only
    rw [if_neg (by simp [hrange]), if_neg (by simp [hagree]), if_neg (by omega)]
    exact (if_neg (Nat.not_lt.mpr hobjs)).trans (admitted_fits hshort)
  · rintro c s ⟨hx, hkind, hrange, h265, hquota, hcore, hobjs, hshort⟩
    exact createDecode_fits hx hkind hrange h265 hquota hcore hobjs hshort

end Sys2Proof.Proofs
end

section
/-! Proofs of the statements about streams, surfaces and decode contexts (chapter 4). -/

namespace Sys2Proof.Proofs

open Sys2Proof Sys2Proof.Machine Sys2Proof.Safety Sys2Proof.Laws

/-- READ_ANC with the host's buffer of n entries: the first n are written and leave the queue (R106). -/
theorem readAnc_reached {c : Ctx} {s : State} {x : Source} (hx : Owns c s x) (hi : isIngress x = true)
    (him : isImport x = false) (hal : bn64 c 1 % 4 = 0) (hm : bn c 3 % 528 = 0) (hlo : 528 ≤ bn c 3) (hhi : bn c 3 ≤ 33792)
    {n : Nat} (hn : n = min x.ancQueue.length (bn c 3 / 528))
    (hr : Reaches s (bn64 c 1) (bytesOf ((x.ancQueue.take n).flatMap ancEntryWords)).length) :
    cmdReadAnc c s = .done (if n < x.ancQueue.length then .okPartial else .ok) [word n, word x.ancDropped]
      (srcMod (bn c 0) (fun y => { y with ancQueue := y.ancQueue.drop n, ancDropped := 0 })
        (wrote (bn64 c 1) (bytesOf ((x.ancQueue.take n).flatMap ancEntryWords)) s)) := by
  refine (withStream_owns hx hi).trans ?_
  dsimp only
  rw [if_neg (by simp [him]), if_neg (by omega), ← hn, hostWrite_reached hr]

/-- Settles O28, row by row: the handle's checks pass, then the section's own guards. -/
theorem ingressCommands : Obligations.IngressCommands := by
  refine ⟨fun x => row_of_run (issues fun _ _ _ => rfl) fun c s ⟨hx, hi, him, _, hrange, hagree, hroom⟩ => ?_,
    fun x => row_of_run (issues fun _ _ _ => rfl) fun c s ⟨hx, hi, hk, hst⟩ => ?_,
    fun x => row_of_run (issues fun _ _ _ => rfl) fun c s ⟨hx, hi, hk, hst⟩ => ?_,
    fun x => rowRefuses_of_run (issues fun _ _ _ => rfl) fun c s ⟨hx, hi, h⟩ => (withStream_owns hx hi).trans (if_pos h),
    fun x => rowRefuses_of_run (issues fun _ _ _ => rfl) fun c s ⟨hx, hi, h⟩ => (withStream_owns hx hi).trans (if_pos h),
    fun x => row_of_run (issues fun _ _ _ => rfl) fun c s ⟨hx, hi⟩ => withStream_owns hx hi,
    fun x => row_of_run (issues fun _ _ _ => rfl) fun c s ⟨hx, hi, hk, hb⟩ => ?_,
    fun x => row_of_run (issues fun _ _ _ => rfl) fun c s ⟨hx, hi, hk⟩ => ?_,
    fun x => row_of_run (issues fun _ _ _ => rfl) fun c s ⟨hx, hi, him, hal, hm, hlo, hhi, hfit, hr⟩ => ?_,
    fun x => row_of_run (issues fun _ _ _ => rfl) fun c s ⟨hx, hi, him, hal, hm, hlo, hhi, hfit, hr⟩ => ?_,
    fun x id r => row_of_run (issues fun _ _ _ => rfl) fun c s ⟨hx, hk, hrect, hal, hpa, hpitch, hw, hh, hup, hslot⟩ => ?_,
    fun x => row_of_run (issues fun _ _ _ => rfl) fun c s ⟨hn, hx⟩ => withDecode_named hn hx,
    fun x => row_of_run (issues fun _ _ _ => rfl) fun c s ⟨hn, hx⟩ => withDecode_named hn hx,
    fun x => row_of_run (issues fun _ _ _ => rfl) fun c s ⟨hn, hx⟩ => withDecode_named hn hx⟩
  · refine (withStream_owns hx hi).trans ?_
    dsimp only
    rw [if_neg (by simp [him]), if_neg (by simp [hrange]), if_neg (by simp [hagree])]
    exact restage_room hroom
  · exact (withStream_owns hx hi).trans (if_neg (by simp [hk, hst]))
  · exact (withStream_owns hx hi).trans (if_neg (by simp [hk, hst]))
  · refine (withSource_reads hx).trans ?_
    simp [hi, hk, hb, same]
  · refine (withSource_reads hx).trans ((if_neg (by simp [hi])).trans ?_)
    exact congrArg (fun words => CmdOut.done .ok words _) (if_neg (by simp [hk]))
  · have hn : x.ancQueue.length = min x.ancQueue.length (bn c 3 / 528) := (min_eq_left hfit).symm
    have hall : x.ancQueue.take x.ancQueue.length = x.ancQueue := List.take_length
    refine (readAnc_reached hx hi him hal hm hlo hhi hn (by rwa [hall])).trans ?_
    rw [if_neg (lt_irrefl _), hall]
  · refine (readAnc_reached hx hi him hal hm hlo hhi (min_eq_right hfit.le).symm hr).trans ?_
    rw [if_pos hfit]
  · have hi : isIngress x = true := by simp [isIngress, hk]
    refine (withStream_owns hx hi).trans ?_
    have hr : (if bf c 5 15 0 ≤ bf c 4 15 0 ∨ bf c 5 31 16 ≤ bf c 4 31 16 then
        (⟨0, 0, (nextFmt s (bn c 0)).width, (nextFmt s (bn c 0)).height⟩ : Rect)
      else ⟨bf c 4 15 0, bf c 4 31 16, bf c 5 15 0, bf c 5 31 16⟩) = r := hrect.symm
    dsimp only
    rw [hr, if_neg (by simp [hk]), if_neg (by omega), if_neg (by simp [hup]), hslot]
    rfl

/-! ### What arrives and what ends -/

@[simp] theorem word_toNat (w : Word) : word w.toNat = w := by simp [word]

/-- The rows of an upload are all reached, so none fails (R102). -/
theorem uploadRows_reached {s : State} {u : Upload} (h : ∀ i < u.rect.y1 - u.rect.y0,
    Reaches s (u.addr + (u.rect.y0 + i) * u.pitch + 4 * u.rect.x0) (4 * (u.rect.x1 - u.rect.x0))) :
    ((List.range (u.rect.y1 - u.rect.y0)).map (fun i => u.rect.y0 + i)).any (fun y => decide
      (dmaReach s (u.addr + y * u.pitch + 4 * u.rect.x0) (4 * (u.rect.x1 - u.rect.x0)) < 4 * (u.rect.x1 - u.rect.x0)))
      = false := by
  rw [List.any_map, List.any_eq_false]
  intro i hi
  have hr := h i (List.mem_range.mp hi)
  simpa [Reaches] using hr

/-- Settles O29, event by event: by what the event names. -/
theorem ingressEvents : Obligations.IngressEvents := by
  refine ⟨fun h b s hi => ?_, fun h s hi => ?_, fun h s hi => ?_, fun h a s ha hi => ?_, fun h b a s ha hi => ?_,
    fun h x s hx hr hd => ?_, fun n p s => ?_, fun h p e port s he hn hr => ?_, fun h p e s he hn hr => ?_,
    fun h pic x u us s hx hu => ?_, fun h u s hu => ?_, fun h u s hu hr => ?_⟩
  · simp only [exec, execFrameStart, hi, if_true]
  · simp only [exec, execFrameClose, hi, if_true]
  · exact if_neg (by simp [hi])
  · simp only [exec, execAncPacket, if_pos ha, hi, if_true]
  · simp only [exec, execFrameStart, execFrameClose, execPatchCopyDone, execAncPacket, hi, if_pos ha, Bool.not_false,
      Bool.false_eq_true, if_true, if_false, and_self]
  · have hdue : stallDue s x = true := by simp [stallDue, hr, hd]
    simp only [exec, execStreamStallTimeout, hx, hdue, if_true]
    rfl
  · simp only [exec, execSt2110Packet]
    congr 2
    funext t h
    cases liveSource t h <;> simp
  · simp only [exec, execStreamEntryPacket, he, hn, hr, Option.isSome_none, Bool.false_eq_true, if_false]
  · simp only [exec, execStreamEntryPacket, he, hn, hr, Option.isSome_none, Bool.false_eq_true, if_false]
  · simp only [exec, execDecodePictureDone, execDecodeBudgetExpiry, hx, hu, and_self]
  · simp only [exec, execSurfaceDone, hu, Bool.true_or, if_true, word_toNat]
  · simp only [exec, execSurfaceDone, hu, uploadRows_reached hr, Bool.or_self, Bool.false_eq_true, if_false, word_toNat]
    rfl

end Sys2Proof.Proofs
end

section
/-! Proofs of the statements about the frame store (chapter 5). -/

namespace Sys2Proof.Proofs

open Sys2Proof Sys2Proof.Machine Sys2Proof.Safety Sys2Proof.Laws

/-- A request that meets no close is the request alone (R16). -/
@[simp] theorem serveRequest_zero (f : State → State) (s : State) : serveRequest 0 f s = f s := by
  simp [serveRequest]

/-- CREATE_TIMESHIFT where its checks and admission pass (R135). -/
theorem createTimeshift_fits {c : Ctx} {s : State} {x : Source} (hx : Owns c s x) (hk : shiftable x = true)
    (hlo : 16 ≤ bn c 2) (hhi : bn c 2 ≤ 4194304)
    (hd : delayGood (keptPeriod s (bn c 0) (shiftEvery c)) (bn c 2) (bn c 3) = true)
    (hfree : ∀ e ∈ s.shifts, e.2.source ≠ bn c 0) (hm : s.pool.mounted = true) (hcnt : s.shifts.length < 64)
    (hq : tier2Use s x.owner + bn c 2 * footprint x.fmt ≤ quotaOf s x.owner 9)
    (ho : (makeShift c x s).2.objects.length ≤ 262144) (hf : shortfall s (makeShift c x s).2 = none) :
    cmdCreateTimeshift c s = .done .ok [word (makeShift c x s).1, word (bn c 2 * footprint x.fmt),
      word (ringPages (makeShift c x s).2 (makeShift c x s).1),
      word ((keptPeriod s (bn c 0) (shiftEvery c)).num / (keptPeriod s (bn c 0) (shiftEvery c)).den)]
      (postNtf x.owner 0x0402 [word (makeShift c x s).1, 0] (makeShift c x s).2) := by
  have hany : s.shifts.any (fun e => decide (e.2.source = bn c 0)) = false :=
    List.any_eq_false.mpr fun e he => by simpa using hfree e he
  have hrange : ¬((!shiftable x) = true ∨ bn c 2 < 16 ∨ 4194304 < bn c 2 ∨
      (!delayGood (keptPeriod s (bn c 0) (shiftEvery c)) (bn c 2) (bn c 3)) = true) := by
    simp only [hk, hd, Bool.not_true, Bool.false_eq_true, false_or, or_false]
    omega
  unfold makeShift shiftEvery at *
  unfold cmdCreateTimeshift
  rw [withOwnSource_owns hx]
  rcases hnew : newHandle x.owner 1 s with ⟨dh, s1⟩
  simp only [hnew] at ho hf ⊢
  rw [if_neg hrange, if_neg (by simp [hany, hm]), if_neg (by omega), if_neg (Nat.not_lt.mpr ho), admitted_fits hf]

/-- Settles O35, row by row: the handle's checks pass, then the section's own guards. -/
theorem frameStoreCommands : Obligations.FrameStoreCommands := by
  refine ⟨fun x id => row_of_run (issues fun _ _ _ => rfl) fun c s ⟨hx, hl, hq⟩ => ?_,
    fun x => rowRefuses_of_run (issues fun _ _ _ => rfl) fun c s ⟨hx, hl⟩ => ?_,
    fun p d n s hd => if_pos hd,
    fun id => row_of_run (issues fun _ _ _ => rfl) fun c s ⟨hn, ho, hr⟩ => ?_,
    fun id => rowRefuses_of_run (issues fun _ _ _ => rfl) fun c s ⟨hn, ho, hr⟩ => ?_,
    fun id o => row_of_run (issues fun _ _ _ => rfl) fun c s ⟨hn, ho, hobj, hb⟩ => ?_,
    fun id o => row_of_run (issues fun _ _ _ => rfl) fun c s ⟨hn, ho, hobj, hb⟩ => ?_,
    fun id o r => rowWaits_of_run (issues fun _ _ _ => rfl)
      fun c s ⟨hn, ho, hobj, hrect, hal, hpa, hplo, hphi, hw, hh, h10, h8, hlen⟩ => ?_,
    fun x => row_of_run (issues fun _ _ _ => rfl) fun c s ⟨hx, hf, hb, hsh⟩ => ?_,
    fun x => row_of_run (issues fun _ _ _ => rfl) fun c s ⟨hx, hf, hb⟩ => ?_,
    fun x => row_of_run (issues fun _ _ _ => rfl) fun c s ⟨hx, hk, hlo, hhi, hd, hfree, hm, hcnt, hq, ho, hf⟩ =>
      createTimeshift_fits hx hk hlo hhi hd hfree hm hcnt hq ho hf,
    fun x y => row_of_run (issues fun _ _ _ => rfl) fun c s ⟨hx, hy, hd⟩ => ?_,
    fun x y => row_of_run (issues fun _ _ _ => rfl) fun c s ⟨hx, hy⟩ => withShift_owns hx hy,
    fun x w => row_of_run (issues fun _ _ _ => rfl) fun c s ⟨hx, h0, ho, hw⟩ => ?_,
    fun x w => row_of_run (issues fun _ _ _ => rfl) fun c s ⟨hx, hw⟩ => ?_,
    row_of_run (issues fun _ _ _ => rfl) fun c s _ => rfl⟩
  · refine (withOwnSource_owns hx).trans ?_
    simp only [hl]
    exact if_neg (by omega)
  · refine (withOwnSource_owns hx).trans ?_
    simp only [hl]
  · show cmdReleaseObject c s = _
    rw [cmdReleaseObject, withObject_named hn ho]
    exact if_pos hr
  · show cmdReleaseObject c s = _
    rw [cmdReleaseObject, withObject_named hn ho]
    exact if_neg hr
  · show cmdGetObjectInfo c s = _
    rw [cmdGetObjectInfo, withObject_named hn ho]
    simp only [hb, hobj, same]
    rfl
  · show cmdGetObjectInfo c s = _
    rw [cmdGetObjectInfo, withObject_named hn ho]
    simp only [hb, hobj, same]
    rfl
  · show cmdReadObject c s = _
    rw [cmdReadObject, withObject_named hn ho]
    have hr : (if bf c 5 15 0 ≤ bf c 4 15 0 ∨ bf c 5 31 16 ≤ bf c 4 31 16 then
        (⟨0, 0, o.w, o.h⟩ : Rect)
      else ⟨bf c 4 15 0, bf c 4 31 16, bf c 5 15 0, bf c 5 31 16⟩) = r := hrect.symm
    rw [← hobj]
    dsimp only
    rw [hr]
    have hal2 : (if o.format = 2 then decide (r.x0 % 6 = 0 ∧ (r.x1 % 6 = 0 ∨ r.x1 = o.w))
        else if o.format = 3 then decide (r.x0 % 2 = 0 ∧ r.x1 % 2 = 0) else true) = true := by
      split
      case isTrue h => exact decide_eq_true (h10 h)
      case isFalse h =>
        split
        case isTrue h => exact decide_eq_true (h8 h)
        case isFalse => rfl
    rw [hal2, if_neg (by simp only [Bool.not_true, Bool.false_eq_true, false_or]; omega)]
  · refine (withOwnSource_owns hx).trans ?_
    simp only [hf, hb, Bool.not_true, Bool.false_eq_true, if_false, if_true]
    exact admitted_fits hsh
  · refine (withOwnSource_owns hx).trans ?_
    simp only [hf, hb, Bool.not_true, Bool.false_eq_true, if_false]
    rfl
  · refine (withShift_owns hx hy).trans ?_
    rw [if_neg (by simp [hd])]
    rfl
  · refine (withSource_reads hx).trans ?_
    have hm : decide (c.page = 0 ∨ x.owner = c.page) = false := by simp [h0, ho]
    simp only [hm, hw, same, Bool.not_false, if_true]
    cases x.latest <;> rfl
  · refine (withSource_reads hx.1).trans ?_
    have hm : decide (c.page = 0 ∨ x.owner = c.page) = true := decide_eq_true hx.2
    simp only [hm, hw, same, Bool.not_true, Bool.false_eq_true, if_false]
    cases x.latest <;> rfl

/-- Settles O36, event by event: by what the event finds. -/
theorem frameStoreEvents : Obligations.FrameStoreEvents := by
  refine ⟨fun n err e id a pitch r s he hw => ?_, fun n err s he => ?_, fun h dh x k s hx hk => ?_,
    fun h dh x k s hx hk ht => ?_, fun h x s hx => ?_, fun h x s hx hr => ?_, fun h x s hx hd => ?_,
    fun h x k s t hx hk ht => ?_⟩
  · simp only [exec, execReadObjectDone, he, hw]
  · simp only [exec, execReadObjectDone, he]
  · simp only [exec, execSpillCopyDone, hx, hk, Bool.false_eq_true, if_false, if_true, and_self]
  · simp only [exec, execSpillLate, hx, hk, if_neg (Nat.not_lt.mpr ht)]
  · simp only [exec, execRecallStart, hx]
  · simp only [exec, execRecallDone, hx, hr, Bool.not_true, Bool.false_eq_true, if_false, if_true, and_self]
  · have hnone : x.kept.find? (fun k => !k.shown && decide (k.capture + x.delayMs * 1000 ≤ now s)) = none := by
      rw [List.find?_eq_none]
      intro k hk
      cases hs : k.shown
      case true => simp
      case false => simpa using hd k hk hs
    simp only [exec, execTimeshiftPresentation, hx, hnone]
  · subst ht
    refine ⟨fun ha => ?_, fun ha hr => ?_, fun ha hr => ?_⟩
    · simp only [exec, execTimeshiftPresentation, hx, hk, ha, if_true]
    · simp only [exec, execTimeshiftPresentation, hx, hk, ha, hr, ne_eq, not_true_eq_false, Bool.false_eq_true, if_false]
    · simp only [exec, execTimeshiftPresentation, hx, hk, ha, if_pos hr, Bool.false_eq_true, if_false]

end Sys2Proof.Proofs
end

section
/-! Proofs of the statements about the pixel engines (chapter 6). -/

namespace Sys2Proof.Proofs

open Sys2Proof Sys2Proof.Machine Sys2Proof.Safety Sys2Proof.Laws

/-! ### Handles of the engine commands -/

/-- A handle that passes the steps of R11 and names a live source reaches it. -/
theorem withSource_live {page : Nat} {s : State} {h : Handle} {x : Source} {k : Source → CmdOut}
    (hf : handleFault page s h [1] = none) (hx : liveSource s h = some x) : withSource page s h k = k x := by
  rw [withSource, hx, withHandle_named hf]

/-- A job's source that the issuer may read is reached (R141). -/
theorem withReadable_may {page : Nat} {s : State} {h : Handle} {x : Source} {k : Source → CmdOut}
    (hf : handleFault page s h [1] = none) (hx : liveSource s h = some x) (hr : mayRead s page h = true) :
    withReadable page s h k = k x := by
  rw [withReadable, if_neg (by simp [hr]), withSource_live hf hx]

/-- A handle that passes for one type is of that type. -/
theorem hType_of_passes {page : Nat} {s : State} {h : Handle} {type : Nat} (hf : handleFault page s h [type] = none) :
    hType h = type := by
  by_contra hne
  have hmem : hType h ∉ [type] := by simpa using hne
  unfold handleFault at hf
  rw [if_pos hmem] at hf
  split at hf
  · contradiction
  · contradiction

/-! ### SUBMIT_JOB -/

/-- The input of a one-shot job that may be read is handed on with its object, size and scan (Table 6-10). -/
theorem jobInput_reads {c : Ctx} {s : State} {id w h : Nat} {field : Bool} (hr : JobReads c s id w h field) :
    ∃ x, ∀ k, jobInput c s (bn c 2) k = k x (some id) w h field := by
  unfold jobInput
  dsimp only
  rcases hr with ⟨h0, h8, hl, rfl, rfl, rfl⟩ | ⟨hno, hf, rfl, rfl, rfl, hobj⟩
  · exact ⟨_, fun k => by rw [if_pos ⟨h0, h8⟩, hl]⟩
  · simp only [if_neg hno, hf]
    rcases hobj with ⟨ht, hmay, hf1, x, hx, hfr, hl⟩ | ⟨ht, hp, ho⟩
    · refine ⟨x, fun k => ?_⟩
      rw [if_pos ht, withReadable_may hf1 hx hmay]
      simp only [hfr, hl, Bool.not_true, Bool.false_eq_true, if_false]
    · refine ⟨srcGet s (objGet s id).source, fun k => ?_⟩
      rw [if_neg ht, if_neg (by simp [hp]), ho]

/-- SUBMIT_JOB where every check and the admission pass (R163, R164). -/
theorem submitJob_fits {c : Ctx} {s : State} {id w h slot : Nat} {field : Bool} {y : Source} {r : Rect}
    (hin : JobReads c s id w h field) (ht : handleFault c.page s (bn c 2) [1] = none) (hy : liveSource s (bn c 2) = some y)
    (hr : r = askedRect c 3 y.fmt.width y.fmt.height) (hfit : JobFits c s y r w h field)
    (hslot : pickSlot s (bn c 2) = some slot)
    (hshort : shortfall s (acceptJob c id r ((r.x1 - r.x0) * (r.y1 - r.y0)) slot s).2 = none) :
    cmdSubmitJob c s = .done .ok
      [word (acceptJob c id r ((r.x1 - r.x0) * (r.y1 - r.y0)) slot s).1, word (fceil (jobCost c r)),
        word (fceil ⟨(jobCost c r).num * 1000, (jobCost c r).den * bn c 6⟩)]
      (dispatch (acceptJob c id r ((r.x1 - r.x0) * (r.y1 - r.y0)) slot s).2) := by
  obtain ⟨x, hinput⟩ := jobInput_reads hin
  obtain ⟨hsurf, hown, ⟨hk, hcost, hlo, hhi, hcol, hx1, hy1⟩, happ, hfield, hsize, hdata, hbusy, hcount⟩ := hfit
  have hrect : (if decide (bf c 4 15 0 ≤ bf c 3 15 0 ∨ bf c 4 31 16 ≤ bf c 3 31 16) = true then
      (⟨0, 0, y.fmt.width, y.fmt.height⟩ : Rect)
    else ⟨bf c 3 15 0, bf c 3 31 16, bf c 4 15 0, bf c 4 31 16⟩) = r := by
    rw [hr]
    simp only [decide_eq_true_eq, askedRect]
  have hrange : ¬(bf c 0 7 0 ∉ [1, 4, 5, 6, 7, 8] ∨ kernelK (bf c 0 7 0) (bf c 0 15 8) = 0 ∨ bn c 6 < 1000 ∨
      10000000 < bn c 6 ∨ (bf c 0 7 0 = 5 ∧ (!colourGood (bf c 5 7 0)) = true) ∨ y.fmt.width < r.x1 ∨
      y.fmt.height < r.y1) := by
    rintro (hf | hf | hf | hf | ⟨h5, hf⟩ | hf | hf)
    · exact hf hk
    · exact hcost hf
    · omega
    · omega
    · simp [hcol h5] at hf
    · omega
    · omega
  have happly : ¬((!procApplies (jobParams c)) = true ∨ (bf c 0 7 0 = 4 ∧ (!field) = true)) := by
    rintro (hf | ⟨h4, hf⟩)
    · simp [happ] at hf
    · simp [hfield h4] at hf
  unfold cmdSubmitJob
  dsimp only
  simp only [hinput, withSource_live ht hy, ite_self]
  rw [hrect, if_neg (not_not.mpr hsurf), if_neg (not_not.mpr hown), if_neg hrange]
  refine (if_neg happly).trans ?_
  rw [hsize]
  dsimp only
  rw [if_neg (by simp [hdata]), if_neg (by simp [hbusy]), if_neg (by omega), hslot]
  exact admitted_fits hshort

/-! ### SET_LADDER -/

/-- SET_LADDER on a target that the issuer may name, with rungs that agree and fall (R163). -/
theorem setLadder_fits {c : Ctx} {s : State} {kv : Nat × Nat} {allowed : List Nat}
    (hf : handleFault c.page s (bn c 0) [1, 3] = none)
    (hown : if hType (bn c 0) = 1 then ∃ x, Owns c s x else ∃ r, tget s.routes (bn c 0) = some r)
    (hn : bf c 1 6 4 ≤ 3) (hcost : ∀ r ∈ askedRungs c, kernelK r.1 r.2 ≠ 0)
    (htarget : ladderTarget s (bn c 0) = some (kv, allowed))
    (hzero : ∀ i ∈ (List.range 3).drop (bf c 1 6 4), bw c (2 + i) = 0) (hallow : ∀ r ∈ askedRungs c, r.1 ∈ allowed)
    (hfall : falling (kv :: askedRungs c) = true) (hroom : (box s c.page).staged.length < 4096) :
    cmdSetLadder c s = .done .ok [word ((box s c.page).staged.length + 1)]
      (setBox c.page { box s c.page with staged := (box s c.page).staged ++
        [.ladder (bn c 0) { priority := bf c 1 3 0, rungs := askedRungs c }] } s) := by
  have hrest : ¬((List.range 3).drop (bf c 1 6 4)).any (fun i => decide (bw c (2 + i) ≠ 0)) = true := by
    rw [Bool.not_eq_true, List.any_eq_false]
    intro i hi
    simpa using hzero i hi
  have hrungs : ¬((askedRungs c).any (fun r => decide (r.1 ∉ allowed ∨ kernelK r.1 r.2 = 0)) = true ∨
      (!falling (kv :: askedRungs c)) = true) := by
    rintro (hbad | hbad)
    · obtain ⟨r, hr, hbad⟩ := List.any_eq_true.mp hbad
      rcases of_decide_eq_true hbad with h | h
      · exact h (hallow r hr)
      · exact hcost r hr h
    · simp [hfall] at hbad
  have hstage : stage c [.ladder (bn c 0) { priority := bf c 1 3 0, rungs := askedRungs c }]
      [word ((box s c.page).staged.length + 1)] s = .done .ok [word ((box s c.page).staged.length + 1)]
      (setBox c.page { box s c.page with staged := (box s c.page).staged ++
        [.ladder (bn c 0) { priority := bf c 1 3 0, rungs := askedRungs c }] } s) :=
    if_neg (by simp only [List.length_singleton]; omega)
  unfold cmdSetLadder
  simp only [hf, htarget, if_neg hrest, if_neg (Nat.not_lt.mpr hn)]
  split at hown
  case isTrue ht =>
    obtain ⟨x, hx⟩ := hown
    rw [if_pos ht, withOwnSource_owns hx]
    exact (if_neg hrungs).trans hstage
  case isFalse ht =>
    obtain ⟨r, hr⟩ := hown
    rw [if_neg ht, hr]
    exact (if_neg hrungs).trans hstage

/-! ### The commands -/

/-- Settles O37, row by row: the handle's checks pass, then the section's own guards. -/
theorem engineCommands : Obligations.EngineCommands := by
  refine ⟨fun x => row_of_run (issues fun _ _ _ => rfl) fun c s ⟨hx, hmay, hchk, hcnt, hsh⟩ => ?_,
    fun x => rowRefuses_of_run (issues fun _ _ _ => rfl) fun c s ⟨hx, hmay⟩ => if_pos ⟨hType_of_passes hx.1, hmay⟩,
    fun x y => row_of_run (issues fun _ _ _ => rfl) fun c s ⟨hx, hy, hrange, hk, hchk, hroom⟩ => ?_,
    fun p d n s hd => if_pos hd,
    fun x y => row_of_run (issues fun _ _ _ => rfl) fun c s ⟨hx, hy, hpre⟩ => ?_,
    row_of_run (issues fun _ _ _ => rfl) fun c s ⟨hhead, hlen, hgood⟩ => ?_,
    fun kv allowed => row_of_run (issues fun _ _ _ => rfl) fun c s ⟨hf, hown, hn, hc, ht, hz, ha, hfall, hroom⟩ =>
      setLadder_fits hf hown hn hc ht hz ha hfall hroom,
    fun id w h slot field y r => row_of_run (issues fun _ _ _ => rfl) fun c s ⟨hin, ht, hy, hr, hfit, hslot, hsh⟩ =>
      submitJob_fits hin ht hy hr hfit hslot hsh,
    fun x => row_of_run (issues fun _ _ _ => rfl) fun c s ⟨⟨hn, hx, hs⟩, hst⟩ => ?_,
    fun x => rowRefuses_of_run (issues fun _ _ _ => rfl) fun c s ⟨⟨hn, hx, hs⟩, hst⟩ => ?_,
    fun x => row_of_run (issues fun _ _ _ => rfl) fun c s ⟨hn, hx, hs⟩ => ?_,
    row_of_run (issues fun _ _ _ => rfl) fun c s _ => rfl,
    row_of_run (issues fun _ _ _ => rfl) fun c s ⟨hlo, hhi⟩ => if_neg (by omega),
    rowRefuses_of_run (issues fun _ _ _ => rfl) fun c s _ => rfl⟩
  · refine (withReadable_may hx.1 hx.2 hmay).trans ?_
    have hchk' : procCheck s c.page (1 + chainLen s 4 (bn c 0)) (procParams (bw c 1) (bw c 2) (bw c 3)) x = none := hchk
    unfold processed askedProc at *
    rcases hmk : makeProc c.page (bn c 0) (procParams (bw c 1) (bw c 2) (bw c 3)) (derived s c.page (bn c 0)) none s
      with ⟨h, s1⟩
    simp only [hmk] at hcnt hsh ⊢
    simp only [hchk', hcnt, Bool.not_true, Bool.false_eq_true, if_false]
    exact admitted_fits hsh
  · refine (withProc_owns hx hy).trans ?_
    unfold askedProc at *
    simp only [hrange, hk, hchk, Bool.not_true, Bool.false_eq_true, if_false, ne_eq, not_true_eq_false]
    exact restage_room hroom
  · refine (withProc_owns hx hy).trans ?_
    exact if_neg (by simp [hpre])
  · have h1 : wd (c.body.drop 1) 0 = wd c.body 1 := by simp [wd]
    show cmdLoadKernelData c s = _
    unfold cmdLoadKernelData
    dsimp only
    rw [h1, if_neg (by simp [hhead]), if_neg (not_not.mpr hlen), if_neg (by rw [hgood]; decide)]
    rfl
  · show cmdCancelJob c s = _
    rw [cmdCancelJob, withJob_named hn hx hs, if_neg hst]
    rfl
  · show cmdCancelJob c s = _
    rw [cmdCancelJob, withJob_named hn hx hs, if_pos hst]
  · show cmdGetJobStatus c s = _
    rw [cmdGetJobStatus, withJob_named hn hx hs]
    rfl

/-! ### Engines and jobs -/

/-- An engine that starts a work item of another partition than its last reads 0 (R141). -/
theorem localByte_startItem {e : Nat} {j : Handle} {s : State} (h : tget s.engines.lastPart e ≠ some (jobGet s j).part)
    (a : Nat) : localByte (startItem e j s) e a = 0 := by
  have hmem : tget (startItem e j s).engines.localMem e = none := by
    simp only [startItem, setEngines, if_neg h, tget_tdel_self]
  rw [localByte, hmem]

/-- Freeing an engine changes no job. -/
theorem jobLive_freeEngine (e : Nat) (j : Handle) (s : State) : jobLive (freeEngine e s) j = jobLive s j := rfl

/-- Settles O38, event by event: by what the event finds. -/
theorem engineEvents : Obligations.EngineEvents := by
  refine ⟨fun h same more r s hr h1 h2 h3 h4 => ?_, fun e j s hj hl => ?_, fun e j a s h => localByte_startItem h a,
    fun e j x s t hj hl ht => ?_, fun h x s t hx hst hm hd he ht => ?_, fun h x s hx => ⟨fun hc => ?_, fun h1 h2 h3 => ?_⟩,
    fun e trap s he => ?_, fun e trap s t hheld hon hb ht hn => ?_, fun e s => rfl, fun n s hn hd => ?_, fun s hn => ?_⟩
  · simp only [exec, execJobRelease, hr]
    exact if_pos ⟨h1, h2, h3, h4⟩
  · rw [jobLive_freeEngine] at hl
    simp only [exec, execWorkItemDone, hj, hl]
  · rw [jobLive_freeEngine] at hl
    subst ht
    refine ⟨fun h1 h2 => ?_, fun h => ?_⟩
    · simp only [exec, execWorkItemDone, hj, hl, if_pos (And.intro h1 h2)]
    · simp only [exec, execWorkItemDone, hj, hl]
      rw [if_neg (by omega)]
  · subst ht
    simp only [exec, execDeadlineMiss, hx]
    rw [if_neg (by simp [hst, hd]), if_neg (by simp [he]), if_neg (by simp [hm])]
  · simp only [exec, execDeadlineMiss, hx]
    by_cases hdone : x.state = 2 ∨ fgt x.deadline ⟨now s, 1⟩ = true
    · rw [if_pos hdone]
    · obtain ⟨hm, he⟩ : x.missed = true ∧ x.ends = false := by tauto
      rw [if_neg hdone, if_neg (by simp [he]), if_pos hm]
  · simp only [exec, execDeadlineMiss, hx]
    rw [if_neg (by simp [h1, h2]), if_pos h3]
  · simp only [exec, execEngineFault, awake, if_pos he, ite_self]
  · have hoff : engineOff e trap s = t := by
      simp only [engineOff, if_neg hon, hb, Option.bind_none]
      subst ht
      exact if_neg (Nat.not_le.mpr hn)
    simp only [exec, execEngineFault, awake_live hheld, if_neg hon, hoff]
  · simp only [exec, execCapacityRiseHold, hn, if_neg (Nat.not_lt.mpr hd)]
    rfl
  · simp only [exec, execCapacityRiseHold, hn]

end Sys2Proof.Proofs
end

section
/-! Proofs of the statements about routes, layers and the commands of heads (chapters 7 to 9). -/

namespace Sys2Proof.Proofs

open Sys2Proof Sys2Proof.Machine Sys2Proof.Safety Sys2Proof.Laws

/-! ### Routes -/

/-- A route command whose staged set fits completes with its length (R46). -/
theorem stagedDone_fits {c : Ctx} {t : State} (h : (box t c.page).staged.length ≤ 4096) :
    stagedDone c t = .done .ok [word (box t c.page).staged.length] t :=
  if_neg (by simp [stageFits, h])

/-- A salvo whose entries all pass reaches the list of its handles (R187). -/
theorem stageSalvo_ok {c : Ctx} {s t : State} {hs : List Handle} (hn : 1 ≤ bf c 0 8 0) (hlen : c.len = 16 + 16 * bf c 0 8 0)
    (ha : bn64 c 1 % 4 = 0) (hok : salvo c.page c.body 4 (bf c 0 8 0) s = .ok (hs, t)) :
    cmdStageSalvo c s = if bn64 c 1 = 0 then .done .ok [word (bf c 0 8 0), word (hs.headD 0)] t
      else hostWrite t (bn64 c 1) (bytesOf (hs.map word)) fun s2 => .done .ok [word (bf c 0 8 0), word (hs.headD 0)] s2 := by
  unfold cmdStageSalvo
  dsimp only
  rw [if_neg (by omega), if_neg (not_not.mpr ha), hok]

/-- Settles O39, row by row: the handle's checks pass, then the section's own guards. -/
theorem routeCommands : Obligations.RouteCommands := by
  refine ⟨row_of_run (issues fun _ _ _ => rfl) fun c s ⟨hadd, hcnt, hroom⟩ => ?_,
    fun r => row_of_run (issues fun _ _ _ => rfl)
      fun c s ⟨⟨hn, hr⟩, hmode, hvar, hw1, hb4, hfade, hv0, hsrc, hperm, hfld, hst, hroom⟩ => ?_,
    fun r => row_of_run (issues fun _ _ _ => rfl) fun c s ⟨⟨hn, hr⟩, hmode, hvar, hfade, hkind, hroom⟩ => ?_,
    fun hs t => row_of_run (issues fun _ _ _ => rfl) fun c s ⟨hn, hlen, ha, hok⟩ =>
      (stageSalvo_ok hn hlen (by simp [ha]) hok).trans (if_pos ha),
    fun hs t => row_of_run (issues fun _ _ _ => rfl) fun c s ⟨hn, hlen, hne, ha, hok, hreach⟩ =>
      (stageSalvo_ok hn hlen ha hok).trans ((if_neg hne).trans (hostWrite_reached hreach)),
    fun r => row_of_run (issues fun _ _ _ => rfl) fun c s ⟨hn, hr⟩ => withRoute_named hn hr,
    row_of_run (issues fun _ _ _ => rfl) fun c s ⟨hgood, hdest⟩ => ?_⟩
  · have hfit : ¬(maxRoutes < (added c s).2.routes.length ∨ (!stageFits c.page (added c s).2) = true) := by
      simp only [maxRoutes, stageFits, decide_eq_true hroom, Bool.not_true, Bool.false_eq_true, or_false]
      omega
    show cmdAddRoute c s = _
    rw [cmdAddRoute, hadd]
    exact if_neg hfit
  · refine (withRoute_named hn hr).trans ?_
    have hrange : ¬(bf c 2 1 0 = 3 ∨ (bf c 2 1 0 = 2 ∧ 1 < bf c 2 17 16)) := by omega
    have hagree : ¬(bw c 1 ≠ 0 ∨ bb c 2 4 = true ∨ bf c 2 15 8 ≠ 0 ∨ (bf c 2 1 0 ≠ 2 ∧ bf c 2 17 16 ≠ 0)) := by
      simp only [hw1, hb4, hfade, ne_eq, not_true_eq_false, Bool.false_eq_true, false_or]
      exact fun ⟨h2, hne⟩ => hne (hv0 h2)
    refine (if_neg hrange).trans ((if_neg hagree).trans ?_)
    rw [hsrc]
    refine (if_neg (by simp [hperm])).trans ?_
    have hfld' : fieldsFault s r.dest (srcGet s r.source) (bits (bw c 2) 1 0) 0 = none := hfld
    simp only [hfld', if_neg hst]
    exact stagedDone_fits hroom
  · refine (withRoute_named hn hr).trans ?_
    have hrange : ¬(bf c 2 1 0 ≠ 0 ∨ bf c 2 17 16 ≠ 0 ∨ (bb c 2 4 = true ∧ bf c 2 15 8 = 0) ∨
        ((!bb c 2 4) = true ∧ bf c 2 15 8 ≠ 0)) := by
      simp only [hmode, hvar, ne_eq, not_true_eq_false, false_or, Bool.not_eq_true']
      rintro (⟨hb, h0⟩ | ⟨hb, h0⟩)
      · exact hfade.mp hb h0
      · simp [hfade.mpr h0] at hb
    refine (if_neg hrange).trans ((if_neg ?_).trans (stagedDone_fits hroom))
    exact fun ⟨hne, hb⟩ => hne (hkind hb)
  · show cmdGetDestination c s = _
    simp only [cmdGetDestination, hgood, hdest, Bool.not_true, Bool.false_eq_true, if_false]
    rfl

/-! ### Layers -/

/-- Settles O40, row by row: the head is held, then the section's own guards. -/
theorem layerCommands : Obligations.LayerCommands := by
  refine ⟨rowStages_of_run (issues fun _ _ _ => rfl) fun c s ⟨⟨hd, hk, ho, hp⟩, hblend, hpre, hrect, hodd, hplain⟩ => ?_,
    rowStages_of_run (issues fun _ _ _ => rfl) fun c s ⟨⟨ho, hp⟩, htr, hpre, hord⟩ => ?_,
    rowStages_of_run (issues fun _ _ _ => rfl) fun c s ⟨⟨ho, hp⟩, ht⟩ => ?_,
    rowStages_of_run (issues fun _ _ _ => rfl) fun c s ⟨hlen, ⟨ho, hp⟩, hrange, hsum⟩ => ?_,
    fun bs => row_of_run (issues fun _ _ _ => rfl) fun c s ⟨⟨ho, hp⟩, ha, hbs, hreach⟩ => ?_,
    fun h l x => row_of_run (issues fun _ _ _ => rfl) fun c s ⟨⟨hd, hk, ho, hp⟩, hh, hl, hx⟩ => ?_,
    row_of_run (issues fun _ _ _ => rfl) fun c s ⟨ho, hp⟩ => withHead_held ho hp⟩
  · refine (withLayer_held hd hk ho (by simpa using hp)).trans ?_
    have heven : ¬(decide ((layerOf c).crop.x0 % 2 = 1 ∨ (layerOf c).crop.x1 % 2 = 1) &&
        ((layerSource s c.page (bn c 0)).map (fun x => decide (x.fmt.sampling = 2))).getD false) = true := by
      rw [Bool.and_eq_true, decide_eq_true_eq]
      rintro ⟨hne, hsub⟩
      cases hsrc : layerSource s c.page (bn c 0) with
      | none => simp [hsrc] at hsub
      | some x =>
        have h2 : x.fmt.sampling = 2 := by simpa [hsrc] using hsub
        have hev := hodd x hsrc h2
        omega
    dsimp only
    rw [if_neg (by simp [hblend, hpre, hrect]), if_neg heven, if_neg]
    · rfl
    · rintro ⟨h4, hnp⟩
      simp [hplain h4] at hnp
  · refine (withHead_held ho hp).trans ?_
    dsimp only
    rw [if_neg (by simp [htr, hpre]), if_neg (by simp [hord])]
    rfl
  · refine (withHead_held ho hp).trans ?_
    exact if_neg (Nat.not_lt.mpr ht)
  · refine (if_neg (not_not.mpr hlen)).trans ((withHead_held ho hp).trans ?_)
    dsimp only
    rw [if_neg (by simp [hrange]), if_neg (by simp [hsum])]
    rfl
  · subst hbs
    refine (withHead_held ho hp).trans ((if_neg (not_not.mpr ha)).trans ?_)
    exact hostWrite_reached hreach
  · subst hx hh hl
    exact withLayer_held hd hk ho (by simpa using hp)

/-! ### The commands of heads -/

/-- Settles O41, row by row: the head is held, then the section's own guards. -/
theorem headCommands : Obligations.HeadCommands := by
  refine ⟨fun t => rowStages_of_run (issues fun _ _ _ => rfl)
      fun c s ⟨⟨ho, hp⟩, hm, ⟨hf8, hrate, htiming⟩, hline, hsr, hodd⟩ => ?_,
    rowRefuses_of_run (issues fun _ _ _ => rfl) fun c s ⟨⟨ho, hp⟩, hm⟩ => ?_,
    fun k => rowStages_of_run (issues fun _ _ _ => rfl) fun c s ⟨⟨ho, hp⟩, hk⟩ => ?_,
    rowStages_of_run (issues fun _ _ _ => rfl) fun c s ⟨ho, hp⟩ => withHead_held ho hp,
    fun h x => row_of_run (issues fun _ _ _ => rfl) fun c s ⟨hh, ⟨ho, hp⟩, hx, hpage⟩ => ?_,
    fun x => row_of_run (issues fun _ _ _ => rfl) fun c s ⟨⟨ho, hp⟩, hx, hpage⟩ => ?_,
    fun h x => row_of_run (issues fun _ _ _ => rfl) fun c s ⟨hh, ⟨ho, hp⟩, hx, hpage⟩ => ?_,
    rowRefuses_of_run (issues fun _ _ _ => rfl) fun c s ⟨⟨ho, hp⟩, hpage⟩ => ?_⟩
  · refine (withHead_held ho hp).trans ?_
    have hrange : ¬(8 < bf c 0 15 8 ∨ rate1001 (bf c 0 19 16) = 0) := by omega
    have hline' : ¬((!applyLineGood t (askedLine c t)) = true ∨ bf c 2 7 0 = 1) := by simp [hline, hsr]
    have hodd' : ¬(6 ≤ bf c 0 15 8 ∧ bf c 0 5 0 % 2 = 1) := by omega
    simp only [hm, Bool.false_eq_true, if_false, if_neg hrange]
    rcases htiming with ⟨h0, hcust, rfl⟩ | ⟨h0, hmode, hzero⟩
    · unfold customTiming at hcust
      simp only [if_pos h0, hcust]
      exact (if_neg hline').trans (if_neg hodd')
    · have hnone : ¬(List.range 6).any (fun i => decide (bw c (3 + i) ≠ 0)) = true := by
        rw [Bool.not_eq_true, List.any_eq_false]
        intro i hi
        simpa using hzero i (List.mem_range.mp hi)
      simp only [if_neg h0, hmode, if_neg hnone]
      exact (if_neg hline').trans (if_neg hodd')
  · exact (withHead_held ho hp).trans (if_pos hm)
  · refine (withHead_held ho hp).trans ?_
    rw [hk]
    rfl
  · subst hh hx
    refine (withHead_held ho hp).trans ?_
    dsimp only
    rw [if_neg (by omega), if_pos hpage]
    rfl
  · subst hx
    refine (withHead_held ho hp).trans ?_
    dsimp only
    rw [if_neg (by omega), if_neg (by omega), if_pos hpage]
    rfl
  · subst hh hx
    refine (withHead_held ho hp).trans ?_
    dsimp only
    rw [if_neg (by omega), if_neg (by omega), if_neg (by omega)]
    rfl
  · refine (withHead_held ho hp).trans ?_
    exact if_pos hpage

end Sys2Proof.Proofs
end

section
/-! Refutation of the statement about the lines of a head's frame (chapter 9). -/

namespace Sys2Proof.Proofs

open Sys2Proof Sys2Proof.Machine Sys2Proof.Safety Sys2Proof.Laws

/-- A head in SELF_REFRESH (state 3) that still scans its last frame, and shows layer 0 in it (R228). -/
def refreshingHead : Head :=
  { state := 3, scanning := true, scanShown := [(0, [], [], 0)] }

/-- A device whose head 0 is in SELF_REFRESH and scans. -/
def refreshing : State := { State.reset with heads := [(0, refreshingHead)] }

/-- The underrun of a head is noted in the next state. -/
def underranAfter (o : Host.Outcome State Fault Refusal) : Bool :=
  match o with
  | .next t => (headGet t 0).underran
  | _ => false

/-- In SELF_REFRESH the last frame is still scanned, and its underrun counts (R232). -/
theorem refreshing_underruns : underranAfter (exec (.layerUnderrun 0 0 0 0) refreshing) = true := by decide +kernel

/-- Refutes O42: the conjunct that an underrun of a head outside RUNNING has no effect forgets SELF_REFRESH. The model
leaves the state alone only below RUNNING, or while nothing is scanned; a head in SELF_REFRESH that still scans its last
frame has the underrun. -/
theorem not_headEvents : ¬ Obligations.HeadEvents := by
  intro h
  obtain ⟨-, -, -, -, -, -, -, -, -, -, -, -, -, -, -, -, -, -, hquiet, -⟩ := h
  have hsame : exec (.layerUnderrun 0 0 0 0) refreshing = .next refreshing :=
    hquiet 0 0 0 0 refreshing (.inl (by decide))
  have hunder := refreshing_underruns
  rw [hsame] at hunder
  exact absurd hunder (by decide)

end Sys2Proof.Proofs
end

section
/-! Proofs of the statements about audio (chapter 10). -/

namespace Sys2Proof.Proofs

open Sys2Proof Sys2Proof.Machine Sys2Proof.Safety Sys2Proof.Laws

/-! ### Making inputs and outputs -/

/-- A flow that another input takes, or an input on the source, makes the entry busy; where `InputFits` holds there is
neither. -/
theorem flow_free {c : Ctx} {s : State} (h : ∀ e ∈ s.audio.inputs, e.2.flow ≠ some (bf c 2 15 0)) :
    s.audio.inputs.any (fun e => e.2.flow.isSome && decide (e.2.flow = some (bf c 2 15 0))) = false :=
  List.any_eq_false.mpr fun e he => by simp [h e he]

/-- The channels of an input that fits are given out from the lowest free run (R247). -/
theorem attachInput_fits {c : Ctx} {s : State} {owner f : Nat} {h : Handle} (hf : freeRun (inTaken s) (bf c 1 10 4) = some f) :
    attachInput c owner h s = .done .ok [word h, word f] (withInput c owner h f s) := by
  rw [attachInput, hf]
  rfl

/-- The issuer may use the flow of a kind that has one (R246). -/
theorem flow_owned {c : Ctx} {s : State}
    (h : bf c 1 2 0 = 2 ∨ bf c 1 2 0 = 3 → ownsFlow s c.page (bf c 2 15 0) = true ∧ rxFlow s (bf c 2 15 0) 1 = true) :
    (decide (bf c 1 2 0 ≠ 2 ∧ bf c 1 2 0 ≠ 3) || decide (1023 < bf c 2 15 0) || ownsFlow s c.page (bf c 2 15 0)) = true := by
  by_cases hk : bf c 1 2 0 = 2 ∨ bf c 1 2 0 = 3
  · simp [(h hk).1]
  · have hk' : bf c 1 2 0 ≠ 2 ∧ bf c 1 2 0 ≠ 3 := by tauto
    simp [hk']

theorem createAudioInput_onSource {c : Ctx} {s : State} {x : Source} {f : Nat} (hk : bf c 1 2 0 ≠ 3) (hx : Owns c s x)
    (hfit : InputFits c s) (hsrc : inputSource s (bf c 1 2 0) (bn c 0) x = none)
    (hf : freeRun (inTaken s) (bf c 1 10 4) = some f) :
    cmdCreateAudioInput c s = .done .ok [word (bn c 0), word f] (withInput c x.owner (bn c 0) f s) := by
  obtain ⟨hrange, hagree, hflow, hsum, hin, hfree⟩ := hfit
  unfold cmdCreateAudioInput
  dsimp only
  rw [if_neg hk, withOwnSource_owns hx, flow_owned hflow, if_neg (by decide), if_neg (by simp [hrange]),
    if_neg (by simp [hagree]), hsrc]
  dsimp only
  rw [if_neg (by rintro ⟨h23, hno⟩; simp [(hflow h23).2] at hno), if_neg (by omega),
    if_neg (by simp only [hin, flow_free hfree]; decide), attachInput_fits hf]

theorem createAudioInput_onFlow {c : Ctx} {s : State} {f : Nat} (hk : bf c 1 2 0 = 3) (hfit : InputFits c s)
    (hf : freeRun (inTaken s) (bf c 1 10 4) = some f) :
    cmdCreateAudioInput c s = .done .ok [word (flowSource c s).1, word f]
      (withInput c c.page (flowSource c s).1 f (flowSource c s).2) := by
  obtain ⟨hrange, hagree, hflow, hsum, hin, hfree⟩ := hfit
  have hattach : attachInput c c.page (flowSource c s).1 (flowSource c s).2 = .done .ok
      [word (flowSource c s).1, word f] (withInput c c.page (flowSource c s).1 f (flowSource c s).2) :=
    attachInput_fits hf
  unfold cmdCreateAudioInput
  dsimp only
  rw [if_pos hk, flow_owned hflow, if_neg (by decide), if_neg (by simp [hrange]), if_neg (by simp [hagree]),
    if_neg (by rintro ⟨h23, hno⟩; simp [(hflow h23).2] at hno), if_neg (by omega),
    if_neg (by simp only [hin, flow_free hfree]; decide)]
  exact hattach

theorem createAudioOutput_fits {c : Ctx} {s : State} {f : Nat} (hfit : OutputFits c s)
    (hf : freeRun (outTaken s) (bf c 1 6 0) = some f) :
    cmdCreateAudioOutput c s = .done .ok [word f]
      { s with audio := { s.audio with outputs := tset s.audio.outputs (bn c 0) (newOutput c f s) } } := by
  obtain ⟨hgood, hlo, hhi, hown, hsum, hfree⟩ := hfit
  have howner : ¬(outputGood (bn c 0) = true ∧ (if bn c 0 / 2 ^ 28 = 1 then holder s 1 (bn c 0 % 32) ≠ c.page
      else (!ownsFlow s c.page (bn c 0 % 65536)) = true)) := by
    rintro ⟨-, hno⟩
    split at hown
    · rename_i hp
      rw [if_pos hp] at hno
      exact hno hown.1
    · rename_i hp
      rw [if_neg hp] at hno
      simp [hown.1] at hno
  have hport : ¬(bn c 0 / 2 ^ 28 = 1 ∧ (16 < bf c 1 6 0 ∨ bb c 1 8 = true)) := by
    rintro ⟨hp, hno⟩
    rw [if_pos hp] at hown
    obtain ⟨-, h16, h8⟩ := hown
    rcases hno with h | h
    · omega
    · simp [h8] at h
  have hflow : ¬(bn c 0 / 2 ^ 28 = 2 ∧
      (!((tget s.eth.flows (bn c 0 % 65536)).map (fun f => f.tx && decide (f.essence = 1))).getD false) = true) := by
    rintro ⟨h2, hno⟩
    rw [if_neg (by omega)] at hown
    obtain ⟨g, hg, htx, hess⟩ := hown.2 h2
    simp [hg, htx, hess] at hno
  unfold cmdCreateAudioOutput
  dsimp only
  rw [if_neg howner, if_neg (by simp [hgood]; omega), if_neg hport, if_neg hflow, if_neg (by omega), if_neg (by simp [hfree]), hf]
  rfl

/-- Settles O43, row by row: the handle's or the output's checks pass, then the section's own guards. -/
theorem audioCommands : Obligations.AudioCommands := by
  refine ⟨fun x f => row_of_run (issues fun _ _ _ => rfl) fun c s ⟨hk, hx, hfit, hsrc, hf⟩ =>
      createAudioInput_onSource hk hx hfit hsrc hf,
    fun f => row_of_run (issues fun _ _ _ => rfl) fun c s ⟨hk, hfit, hf⟩ => createAudioInput_onFlow hk hfit hf,
    fun x i => row_of_run (issues fun _ _ _ => rfl) fun c s ⟨hx, hi⟩ => ?_,
    fun f => row_of_run (issues fun _ _ _ => rfl) fun c s ⟨hfit, hf⟩ => createAudioOutput_fits hfit hf,
    fun o => row_of_run (issues fun _ _ _ => rfl) fun c s ⟨hg, ho, hx⟩ => withOutput_owned hg ho hx,
    fun o => row_of_run (issues fun _ _ _ => rfl) fun c s ⟨⟨hg, ho, hx⟩, hch, hsel, hin, hroom⟩ => ?_,
    fun x i => row_of_run (issues fun _ _ _ => rfl) fun c s ⟨ht, hx, hi⟩ => ?_,
    fun o => row_of_run (issues fun _ _ _ => rfl) fun c s ⟨ht, hg, ho, hx⟩ =>
      (if_neg ht).trans (withOutput_owned hg ho hx),
    row_of_run (issues fun _ _ _ => rfl) fun c s _ => rfl⟩
  · refine (withOwnSource_owns hx).trans ?_
    simp only [hi]
    rfl
  · refine (withOutput_owned hg ho hx).trans ?_
    have hlisten : ¬((channelCfg c 0).sel = 1 ∧ (inGet s (channelCfg c 0).src).isNone = true) := by
      rintro ⟨h1, hno⟩
      obtain ⟨i, hi⟩ := Option.isSome_iff_exists.mp (hin h1)
      simp [hi] at hno
    simp only [hsel, hch, if_neg hlisten, ite_self]
    exact if_neg (by simp only [List.length_singleton]; omega)
  · refine (if_pos ht).trans ((withSource_reads hx).trans ?_)
    simp only [hi]

/-! ### What happens to audio -/

/-- A packet that a G.711 input discards is counted (R260). -/
theorem audioArrive_bad {h : Handle} {p : AudPacket} {i : AudioIn} {s : State} (hi : inGet s h = some i) (hk : i.kind = 4)
    (hb : badG711 p = true) : audioArrive h p s = badPacket h s := by
  simp only [audioArrive, hi, if_pos (And.intro hk hb)]

/-- The first packet that is missing plays a ramp down from what was played last (R258). -/
theorem missOne_eq (h : Handle) (s : State) : missOne h s = inMod h (fun i => { i with
    missedAt := some (now s), lostPkts := sat 0xFFFFFFFF i.lostPkts 1
    buffered := i.buffered.filter (fun p => decide (p.1 ≤ now s))
      ++ [(now s, rampedDown i.channels (lastPlayed (now s) i))]
      ++ i.buffered.filter (fun p => !decide (p.1 ≤ now s)) }) s := by
  simp only [missOne, List.partition_eq_filter_filter]
  rfl

/-- A packet has come between the last one missed and now, so the next missing one is the first again (R258). -/
theorem missedBefore_false {t : Nat} {i : AudioIn} (h : ∀ m, i.missedAt = some m → ∃ p ∈ i.buffered, m < p.1 ∧ p.1 ≤ t) :
    missedBefore t i = false := by
  unfold missedBefore
  split
  · rfl
  · next m hm =>
    obtain ⟨p, hp, hlo, hhi⟩ := h m hm
    rw [List.all_eq_false]
    exact ⟨p, hp, by simp; omega⟩

/-- No packet has come since the last one missed (R258). -/
theorem missedBefore_true {t m : Nat} {i : AudioIn} (hm : i.missedAt = some m) (h : ∀ p ∈ i.buffered, p.1 ≤ m ∨ t < p.1) :
    missedBefore t i = true := by
  simp only [missedBefore, hm]
  exact List.all_eq_true.mpr fun p hp => decide_eq_true (h p hp)

/-- An output sends its packet; its clips are counted, and noted once a second (R249, R254, R259). -/
theorem exec_audioOutputPacket {id : Word} {o : AudioOut} {n clips : Nat} {ts : Word} {s : State}
    (ho : outGet s id.toNat = some o) (hn : n = (if o.ptime125 then 6 else 48))
    (hc : clips = ((packetRuns s o).map (fun r => r.2.2.1)).sum)
    (hts : ts = (if id.toNat / 2 ^ 28 = 2 ∧ followsPtp s = true then firstRtp s else o.rtp)) :
    exec (.audioOutputPacket id) s = .next (sendAudio id.toNat o.channels ts
      (interleave ((packetRuns s o).map (fun r => outputSamples s id.toNat (o.first + r.1) r.2.1)) n)
      (if decide (0 < clips ∧ o.clipSecond ≠ some (second s)) = true then
        raise 224 0 (outPut id.toNat { o with
          chans := (packetRuns s o).map (fun r => (r.1, r.2.2.2)), rtp := ts + word n, clips := sat 0xFFFFFFFF o.clips clips
          clipSecond := if decide (0 < clips ∧ o.clipSecond ≠ some (second s)) = true then some (second s)
            else o.clipSecond } s)
      else outPut id.toNat { o with
          chans := (packetRuns s o).map (fun r => (r.1, r.2.2.2)), rtp := ts + word n, clips := sat 0xFFFFFFFF o.clips clips
          clipSecond := if decide (0 < clips ∧ o.clipSecond ≠ some (second s)) = true then some (second s)
            else o.clipSecond } s)) := by
  subst hn hc hts
  simp only [exec, execAudioOutputPacket, ho]
  rfl

/-- Settles O44, event by event: by what the event finds. -/
theorem audioEvents : Obligations.AudioEvents := by
  refine ⟨fun h p i s hi hk hb => ?_, fun h p i s t hi hk ht => ⟨fun hg => ?_, fun hg => ?_⟩, fun h s hi => ?_,
    fun h i s hi => ⟨fun hg => ?_, fun hg hm => ?_, fun m hg hm hp => ?_, fun hg => ?_, fun t hg hr => ?_, fun hl => ?_,
      fun hl => ?_, rfl⟩, fun s hm => ?_, fun td t s hm ht => ?_, fun id n o s ho => ?_, fun id s ho => ?_,
    fun id o n clips ts s t ho hn hc hts => ⟨fun ht hquiet => ?_, fun ht h0 hsec => ?_⟩⟩
  · simp only [exec, execAudioPacket, audioArrive_bad hi hk hb]
    rfl
  · have hgood : ¬(i.kind = 4 ∧ badG711 p = true) := by rintro ⟨h4, hb⟩; simp [h4, hb] at hk
    simp only [exec, execAudioPacket, audioArrive, hi, if_neg hgood, hg, Bool.false_eq_true, false_and, if_false, ht]
  · have hgood : ¬(i.kind = 4 ∧ badG711 p = true) := by rintro ⟨h4, hb⟩; simp [h4, hb] at hk
    simp only [exec, execAudioPacket, audioArrive, hi, if_neg hgood, hg, true_and, ht]
  · simp only [exec, execAudioPlayoutMissing, execAudioBufferTarget, execSrcUnlock, hi, and_self]
  · simp only [exec, execAudioPlayoutMissing, hi, hg, if_true]
  · simp only [exec, execAudioPlayoutMissing, hi, hg, missedBefore_false hm, missOne_eq, Bool.false_eq_true, if_false]
  · simp only [exec, execAudioPlayoutMissing, hi, hg, missedBefore_true hm hp, Bool.false_eq_true, if_false, if_true]
    rfl
  · simp only [exec, execAudioBufferTarget, hi, hg]
  · simp only [exec, execAudioBufferTarget, hi, hg, hr]
  · simp only [exec, execSrcUnlock, hi, hl, if_true]
  · simp only [exec, execSrcUnlock, hi, hl, Bool.false_eq_true, if_false]
  · simp only [exec, execAudioClockMove, hm]
  · simp only [exec, execAudioClockMove, hm, if_neg (Nat.not_lt.mpr ht)]
    rfl
  · have hramp : (fun k : Chan => { k with ramp := match k.ramp with
        | some r => if r.length ≤ r.pos then none else some r
        | none => none })
        = fun k => { k with ramp := k.ramp.bind (fun r => if r.length ≤ r.pos then none else some r) } := by
      funext k
      cases k.ramp <;> rfl
    simp only [exec, execAudioRampEnd, ho]
    exact congrArg (fun f => Host.Outcome.next (outPut id.toNat { o with chans := tmod o.chans n.val f } s)) hramp
  · simp only [exec, execAudioRampEnd, execAudioOutputPacket, ho, and_self]
  · have hnote : decide (0 < clips ∧ o.clipSecond ≠ some (second s)) = false := by
      rcases hquiet with h | h
      · simp [h]
      · simp [h]
    exact (exec_audioOutputPacket ho hn hc hts).trans (by simp only [hnote, ht, Bool.false_eq_true, if_false])
  · have hnote : decide (0 < clips ∧ o.clipSecond ≠ some (second s)) = true :=
      decide_eq_true ⟨Nat.pos_of_ne_zero h0, hsec⟩
    exact (exec_audioOutputPacket ho hn hc hts).trans (by simp only [hnote, ht, if_true])

end Sys2Proof.Proofs
end

section
/-! Proofs of the statements about reference timing (chapter 11). -/

namespace Sys2Proof.Proofs

open Sys2Proof Sys2Proof.Machine Sys2Proof.Safety Sys2Proof.Laws

/-! ### The commands -/

/-- SET_CANDIDATE with fields in range that agree, on an input that no other entry names (R264). -/
theorem setCandidate_fits {c : Ctx} {s : State} (hfit : CandidateFits c s) :
    cmdSetCandidate c s = .done .ok [] (ptpStep s (if s.time.selected = some (bf c 0 2 0) then raise 220 1 { candidateSet c s with
      time := { (candidateSet c s).time with dropped := true, hostCause := true } } else candidateSet c s)) := by
  obtain ⟨hkind, hport, hptp, hrate, hagree, hclash, hsrc⟩ := hfit
  have hrange : ¬(5 < bf c 0 6 4 ∨ ((bf c 0 6 4 = 1 ∨ bf c 0 6 4 = 2) ∧ 3 < bf c 1 3 0) ∨
      (bf c 0 6 4 = 3 ∧ (7 < bf c 1 3 0 ∨ 127 < bf c 1 23 16)) ∨ (bf c 0 6 4 = 1 ∧ rate1001 (bf c 1 7 4) = 0)) := by
    rintro (h | ⟨h12, h⟩ | ⟨h3, h⟩ | ⟨h1, h⟩)
    · omega
    · have := hport h12
      omega
    · have := hptp h3
      omega
    · exact hrate h1 h
  have hagree' : ¬((!candAgrees c) = true ∨
      candClash s (bf c 0 2 0) (bf c 0 6 4) (bf c 1 3 0) (bf c 1 23 16) = true) := by simp [hagree, hclash]
  unfold cmdSetCandidate candidateSet askedCandidate
  dsimp only
  by_cases h4 : bf c 0 6 4 = 4
  · obtain ⟨hf, x, hx, hk⟩ := hsrc h4
    rw [if_pos h4, withSource_live hf hx]
    rcases hk with ⟨p, a, w, hk⟩ | ⟨n, b, a, hk⟩
    all_goals
      rw [hk]
      dsimp only
      rw [if_neg hrange, if_neg hagree']
      simp only [decide_eq_true_eq]
      rfl
  · rw [if_neg h4, if_neg hrange, if_neg hagree']
    simp only [decide_eq_true_eq]
    rfl

/-- SET_FRAME_PULSE with OFFSET and WIDTH in range of the source's period (R276). -/
theorem setFramePulse_fits {c : Ctx} {s : State} (hsrc : bf c 0 8 4 ≤ 20) (hwidth : 16 ≤ bf c 2 15 0)
    (hper : ∀ r, pulseRate c s = some r → (sbits (bw c 1) 31 0).natAbs * (periodNs r).den ≤ (periodNs r).num
      ∧ 2 * bf c 2 15 0 * (periodNs r).den < (periodNs r).num)
    (hentry : 17 ≤ bf c 0 8 4 → (pulseRate c s).isSome = true) :
    cmdSetFramePulse c s = .done .ok [] { s with time := { s.time with
      pulses := tset s.time.pulses (bf c 0 1 0) (askedPulse c s ((tget s.time.pulses (bf c 0 1 0)).getD {})) } } := by
  unfold cmdSetFramePulse askedPulse
  unfold pulseRate at hper hentry
  dsimp only
  simp only [decide_eq_true_eq]
  rw [if_neg, if_neg]
  · rfl
  · rintro ⟨h17, hno⟩
    have := hentry h17
    simp_all
  · rintro (h | h | h)
    · omega
    · omega
    · split at h
      · exact Bool.false_ne_true h
      · next r hr =>
        obtain ⟨h1, h2⟩ := hper r hr
        have := of_decide_eq_true h
        omega

/-- Settles O45, row by row: the fields are in range and agree, then the section's own guards. -/
theorem timingCommands : Obligations.TimingCommands := by
  refine ⟨row_of_run (issues fun _ _ _ => rfl) fun c s hfit => setCandidate_fits hfit,
    row_of_run (issues fun _ _ _ => rfl) fun c s ⟨hq, hb, hv⟩ => ?_,
    fun d off => row_of_run (issues fun _ _ _ => rfl) fun c s ⟨hd, hoff, hrate, hper, hused⟩ => ?_,
    fun off => row_of_run (issues fun _ _ _ => rfl) fun c s ⟨hoff, hsrc, hwidth, hper, hentry⟩ => ?_,
    row_of_run (issues fun _ _ _ => rfl) fun c s ⟨hb, hp⟩ => ?_,
    row_of_run (issues fun _ _ _ => rfl) fun c s ⟨hb, hp, hsel⟩ => ?_,
    fun d => row_of_run (issues fun _ _ _ => rfl) fun c s ⟨hb, hp, hd⟩ => ?_,
    rowRefuses_of_run (issues fun _ _ _ => rfl) fun c s ⟨hb, hp, hu⟩ => ?_⟩
  · show cmdSetSelection c s = _
    unfold orDefault at *
    unfold cmdSetSelection
    dsimp only
    rw [if_neg (by omega)]
    rfl
  · subst hd hoff
    show cmdSetTimingDomain c s = _
    unfold cmdSetTimingDomain
    dsimp only
    simp only [decide_eq_true_eq]
    rw [if_neg (by omega), if_neg]
    · rfl
    · rintro ⟨hne, hu⟩
      rcases hused with h | h
      · exact hne h
      · simp [h] at hu
  · subst hoff
    exact setFramePulse_fits hsrc hwidth hper hentry
  · show cmdGetTimingStatus c s = _
    simp only [cmdGetTimingStatus, hb, if_pos hp, Bool.not_false, if_true]
    rfl
  · obtain ⟨i, hi⟩ := Option.isSome_iff_exists.mp hsel
    show cmdGetTimingStatus c s = _
    simp only [cmdGetTimingStatus, hb, hp, hi, Bool.not_false, if_true, ne_eq, not_true_eq_false, if_false, Option.getD_some]
    rfl
  · subst hd
    show cmdGetTimingStatus c s = _
    simp only [cmdGetTimingStatus, hb, Bool.not_true, Bool.false_eq_true, if_false]
    exact if_neg (by rintro ⟨h0, hu⟩; rcases hp with h | h <;> simp_all)
  · show cmdGetTimingStatus c s = _
    simp only [cmdGetTimingStatus, hb, Bool.not_true, Bool.false_eq_true, if_false]
    exact if_pos ⟨hp, by simp [hu]⟩

/-! ### What happens to the reference -/

/-- An entry reads as it was put. -/
@[simp] theorem candGet_candPut (i : Nat) (x : Candidate) (s : State) : candGet (candPut i x s) i = x := by
  simp [candGet, candPut, setTime]

theorem candGet_of_list {s t : State} (h : t.time.list = s.time.list) (i : Nat) : candGet t i = candGet s i := by
  rw [candGet, h, candGet]

@[simp] theorem raise_time (n sub : Nat) (s : State) : (raise n sub s).time = s.time := by
  obtain ⟨_, _, _, h⟩ := raised_raise n sub s
  rw [h]

theorem slopeCheck_list (c : Candidate) (s : State) : (slopeCheck c s).time.list = s.time.list := by
  unfold slopeCheck
  split
  · rw [raise_time]
    rfl
  · rfl

theorem alignDomains_list (s : State) : (alignDomains s).time.list = s.time.list := by
  unfold alignDomains
  split <;> rfl

/-- An alignment event that is no fault leaves its entry with its phase and instant (R266, R270). -/
theorem candGet_alignment {i : Nat} {phase : Int} {s : State}
    (hf : ¬(candGet s i).faults < (seeEvent s (phaseOf s (candGet s i) phase) (candGet s i)).faults) :
    candGet (alignment i phase s) i = { seeEvent s (phaseOf s (candGet s i) phase) (candGet s i) with
      phaseNs := some (phaseOf s (candGet s i) phase), edgeAt := now s } := by
  unfold alignment
  dsimp only
  rw [if_neg hf]
  generalize seeEvent s (phaseOf s (candGet s i) phase) (candGet s i) = c0
  split
  · rw [candGet_candPut]
  · refine (candGet_of_list ?_ i).trans (candGet_candPut i _ s)
    rw [alignDomains_list]
    split
    · exact slopeCheck_list _ _
    · exact slopeCheck_list _ _

/-- A clock edge is never a fault: it has no expected instant (Table 11-1). -/
theorem seeEvent_clock_faults {s : State} {p : Int} {c : Candidate} (hk : c.kind = 2) : (seeEvent s p c).faults = c.faults := by
  unfold seeEvent withFreq restartCount
  simp only [hk]
  repeat' split
  all_goals rfl

/-- The phase of a clock edge, in the shorter direction modulo 100 ns (R270). -/
theorem phaseOf_clock {s : State} {c : Candidate} (hk : c.kind = 2) (p : Int) :
    phaseOf s c p = if p % 100 ≤ 50 then p % 100 else p % 100 - 100 := by
  simp only [phaseOf, hk, shorter, Nat.cast_one, mul_one, Nat.cast_ofNat, Int.ediv_one]
  split <;> split <;> omega

/-- Settles O46, event by event: by what the event finds. -/
theorem timingEvents : Obligations.TimingEvents := by
  refine ⟨fun i x s hx he h0 h5 hrun => ?_, fun i s h => ?_, fun i x s hx he h1 h4 hq hc => ?_, fun i s hc => ?_,
    fun r f ph i x s hfind => ⟨fun hk hf => ?_, fun hk hf => ?_, fun hk hf hg => ?_, fun hk hf => ?_⟩, fun p m s hno => ?_,
    fun p m i x s hfind => ⟨fun ht => ?_, fun ht hb => ?_, fun ht h2 hb => ?_, fun ht hd => ?_, fun ht hb => ?_⟩,
    fun s hfw => ?_, fun s t i hfw ht hsel hch hdrop => ?_, fun s t u i hfw ht hsel hch hcause hu => ?_,
    fun s hst hleft => ?_, fun s h => ?_, fun s t hst hh hl ht => ?_, fun v s hh => ?_⟩
  · subst hx
    simp only [exec, execCandidateFault]
    rw [if_neg (by simp [he, h0, h5, hrun])]
    rfl
  · simp only [exec, execCandidateFault]
    rw [if_pos]
    rcases h with h | h | h <;> simp [h]
  · subst hx
    simp only [exec, execQualTimeExpiry]
    exact if_pos ⟨he, h1, h4, hq, hc⟩
  · simp only [exec, execQualTimeExpiry]
    exact if_neg (by omega)
  · simp only [exec, execRefinEdge, hfind]
    rw [if_neg (by simp [hk, hf])]
    simp only [hk, true_and]
  · simp only [exec, execRefinEdge, hfind]
    exact if_pos (.inl ⟨hk, hf⟩)
  · have hk' : (candGet s i).kind = 2 := by rw [hg]; exact hk
    refine ⟨alignment i ph s, ?_, ?_⟩
    · simp only [exec, execRefinEdge, hfind]
      rw [if_neg (by simp [hk, hf]), if_neg (by simp [hk])]
    · rw [candGet_alignment (by rw [seeEvent_clock_faults hk']; exact lt_irrefl _), phaseOf_clock hk']
      exact ⟨rfl, rfl⟩
  · simp only [exec, execRefinEdge, hfind]
    exact if_pos (.inr ⟨hk, hf⟩)
  · have hnone : s.time.list.find? (fun e => e.2.enable
        && decide (e.2.kind = 3 ∧ e.2.port = p.val ∧ e.2.ptpDomain = m.domain.toNat)) = none :=
      List.find?_eq_none.mpr fun e he => by simp [hno e he]
    simp only [exec, execPtpMessage, hnone]
  · have hg : givesTime x m = false := by simp [givesTime, ht]
    simp only [exec, execPtpMessage, hfind, hearPtp, hg, if_pos ht, Bool.false_eq_true, if_false]
  · have hg : givesTime x m = false := by simp [givesTime, hb]
    simp only [exec, execPtpMessage, hfind, hearPtp, hg, if_neg ht, hb, and_false, Bool.false_eq_true, if_false]
  · have hg : givesTime x m = false := by simp [givesTime, ht, h2]
    have h0 : ¬m.type = 0 := by simp [ht]
    simp only [exec, execPtpMessage, hfind, hearPtp, hg, if_neg h0, if_pos (And.intro ht hb), Bool.false_eq_true, if_false]
  · have hg : givesTime x m = false := by simp [givesTime, ht, hd]
    have h01 : ¬m.type = 0 ∧ ¬m.type = 1 := by simp [ht]
    simp only [exec, execPtpMessage, hfind, hearPtp, hg, if_neg h01.1, h01.2, false_and, Bool.false_eq_true, if_false]
  · have hg : givesTime x m = true := by rcases ht with ⟨ht, h⟩ | ⟨ht, h⟩ <;> simp [givesTime, ht, h, hb]
    have h0 : ¬m.type = 0 := by rcases ht with ⟨ht, -⟩ | ⟨ht, -⟩ <;> simp [ht]
    simp only [exec, execPtpMessage, hfind, hearPtp, hg, if_neg h0, if_true]
  · simp only [exec, execSelectorEvaluation, hfw, Bool.not_false, if_true]
  · simp only [exec, execSelectorEvaluation, hfw, ← ht, hsel, hch, hdrop, ne_eq, not_true_eq_false, decide_false, Bool.or_self,
      Bool.not_true, Bool.false_eq_true, if_false]
    rfl
  · simp only [exec, execSelectorEvaluation, hfw, ← ht, hsel, hch, hcause, ne_eq, reduceCtorEq, not_false_eq_true, decide_true,
      Bool.true_or, Bool.not_true, Bool.false_eq_true, if_false, if_true, hu]
    rfl
  · simp only [exec, execSlewDone]
    exact if_pos ⟨hst, hleft⟩
  · simp only [exec, execSlewDone]
    exact if_neg (by omega)
  · subst ht
    simp only [exec, execHoldoverDataValid]
    exact if_pos ⟨hst, by simp [hh], hl⟩
  · simp only [exec, execHoldoverDataValid]
    exact if_neg (by simp [hh])

end Sys2Proof.Proofs
end

section
/-! Proofs of the statements about link ports (chapter 12). -/

namespace Sys2Proof.Proofs

open Sys2Proof Sys2Proof.Machine Sys2Proof.Safety Sys2Proof.Laws

/-! ### The commands -/

/-- SET_LINK_PORT on ports that the issuer holds and that nothing ties to what they are (R300, R302). -/
theorem setLinkPort_fits {c : Ctx} {s : State} {p : Nat} {x : Port} (hp : p = bf c 0 4 0) (hx : x = portGet s p)
    (hold : c.page = 0 ∨ holder s 1 p = c.page ∧ ((bf c 0 6 5 = 2 ∨ x.mode = 2) → holder s 1 (pairOf p) = c.page))
    (hmode : bf c 0 6 5 ≠ 3) (hlanes : bf c 0 6 5 ≠ 0 → (bw c 0).extractLsb' 12 4 ≠ (0 : BitVec 4))
    (hring : x.mode = 2 → bf c 0 6 5 ≠ 2 → inRing s p = false)
    (hpair : bf c 0 6 5 = 2 → portBound s p = false ∧ portBound s (pairOf p) = false)
    (hmoves : portMoves c s p → portBound s p = false) :
    cmdSetLinkPort c s = .done .ok [] ((if (bf c 0 6 5 = 2 ↔ x.mode = 2) then id
      else fun t => changeOwner (64 + pairOf p) (changeOwner (64 + p) t))
      (if bf c 0 6 5 = 2 then portSet c (pairOf p) (portSet c p s)
        else if x.mode = 2 then portOff (pairOf p) (portSet c p s) else portSet c p s)) := by
  subst hp hx
  have howner : ¬(c.page ≠ 0 ∧ (holder s 1 (bf c 0 4 0) ≠ c.page ∨
      (decide (bf c 0 6 5 = 2 ∨ (portGet s (bf c 0 4 0)).mode = 2) = true ∧ holder s 1 (pairOf (bf c 0 4 0)) ≠ c.page))) := by
    rintro ⟨h0, hno⟩
    obtain ⟨hp, hq⟩ := hold.resolve_left h0
    rcases hno with hno | ⟨hboth, hno⟩
    · exact hno hp
    · exact hno (hq (of_decide_eq_true hboth))
  have hfields : ¬(bf c 0 6 5 = 3 ∨ (bf c 0 6 5 ≠ 0 ∧ (bw c 0).extractLsb' 12 4 = (0 : BitVec 4))) := by
    rintro (h | ⟨h0, h⟩)
    · exact hmode h
    · exact hlanes h0 h
  have hinring : ¬((portGet s (bf c 0 4 0)).mode = 2 ∧ bf c 0 6 5 ≠ 2 ∧ inRing s (bf c 0 4 0) = true) := by
    rintro ⟨h2, hne, hin⟩
    simp [hring h2 hne] at hin
  have hbound : ¬(bf c 0 6 5 = 2 ∧ (portBound s (bf c 0 4 0) = true ∨ portBound s (pairOf (bf c 0 4 0)) = true)) := by
    rintro ⟨h2, hb⟩
    simp [hpair h2] at hb
  have hstays : ¬(((portGet s (bf c 0 4 0)).mode ≠ bf c 0 6 5 ∨ (portGet s (bf c 0 4 0)).rate ≠ bf c 0 9 8 ∨
      (portGet s (bf c 0 4 0)).lanes ≠ (bw c 0).extractLsb' 12 4) ∧ portBound s (bf c 0 4 0) = true) := by
    rintro ⟨hm, hb⟩
    simp [hmoves hm] at hb
  unfold cmdSetLinkPort
  dsimp only
  rw [if_neg howner, if_neg hfields, if_neg hinring, if_neg hbound, if_neg hstays]
  by_cases hsame : bf c 0 6 5 = 2 ↔ (portGet s (bf c 0 4 0)).mode = 2
  · rw [if_pos (decide_eq_decide.mpr hsame), if_pos hsame]
    rfl
  · rw [if_neg (mt decide_eq_decide.mp hsame), if_neg hsame]
    rfl

/-- SET_LINK_TEST on a port whose lanes it fits and to which nothing is bound (R297, R303). -/
theorem setLinkTest_fits {c : Ctx} {s : State} {p : Nat} (hp : HasPort c s p) (hfit : TestFits c (portGet s p) p)
    (hmode : (portGet s p).mode ≠ 0) (hb : portBound s p = false) :
    cmdSetLinkTest c s = if bb c 0 5 = true then .done .ok [] (setPort p 1 13 (portPut p { portGet s p with
        test := true, pattern := bf c 0 7 6, testLanes := (bw c 0).extractLsb' 8 4
        inject := bf c 0 13 12, burstLen := bf c 1 7 0, rateExp := bf c 1 11 8, prbsSync := 0, prbsSent := 0
        prbsReg := if (portGet s p).test ∧ (portGet s p).pattern = bf c 0 7 6 then (portGet s p).prbsReg else [] } s))
      else if (portGet s p).test = true then .done .ok [] (setPort p 0 13 (portPut p { portGet s p with
        test := false, inject := 0, testLanes := 0, prbsSync := 0, prbsReg := [] } s))
      else .done .ok [] s := by
  obtain ⟨hpat, hlanes, hinj, hburst, hexp, hexp0⟩ := hfit
  have hrange : ¬(bf c 0 7 6 = 3 ∨ (bw c 0).extractLsb' 8 4 &&& ~~~ (portGet s p).lanes ≠ 0 ∨
      (isRx p = true ∧ bf c 0 13 12 ≠ 0) ∨ (bf c 0 13 12 = 2 ∧ bf c 1 7 0 = 0) ∨ (bf c 0 13 12 ≠ 2 ∧ bf c 1 7 0 ≠ 0) ∨
      (bf c 0 13 12 = 3 ∧ (bf c 1 11 8 < 3 ∨ 12 < bf c 1 11 8)) ∨ (bf c 0 13 12 ≠ 3 ∧ bf c 1 11 8 ≠ 0)) := by
    rintro (h | h | ⟨hr, h⟩ | ⟨h2, h⟩ | ⟨h2, h⟩ | ⟨h3, h⟩ | ⟨h3, h⟩)
    · exact hpat h
    · exact h hlanes
    · exact h (hinj hr)
    · exact hburst.mp h2 h
    · exact h2 (hburst.mpr h)
    · have := hexp h3
      omega
    · exact h (hexp0 h3)
  rw [cmdSetLinkTest, withPort_has hp]
  dsimp only
  rw [if_neg hrange, if_neg (by simp [hmode, hb])]

/-- Settles O47, row by row: the port is held, then the section's own guards. -/
theorem linkCommands : Obligations.LinkCommands := by
  refine ⟨fun p x => row_of_run (issues fun _ _ _ => rfl)
      fun c s ⟨hp, hx, hold, hmode, hlanes, hring, hpair, hmoves⟩ =>
        setLinkPort_fits hp hx hold hmode hlanes hring hpair hmoves,
    fun p => row_of_run (issues fun _ _ _ => rfl) fun c s ⟨hp, hmode, ht⟩ => ?_,
    fun p => rowRefuses_of_run (issues fun _ _ _ => rfl) fun c s ⟨hp, h⟩ => ?_,
    fun p => row_of_run (issues fun _ _ _ => rfl) fun c s ⟨hp, hpage⟩ => ?_,
    fun p => row_of_run (issues fun _ _ _ => rfl) fun c s ⟨hp, hfit, hmode, hb, h5⟩ =>
      (setLinkTest_fits hp hfit hmode hb).trans (if_pos h5),
    fun p => row_of_run (issues fun _ _ _ => rfl) fun c s ⟨hp, hfit, hmode, hb, h5⟩ => ?_,
    fun p => row_of_run (issues fun _ _ _ => rfl) fun c s ⟨hp, hown⟩ => ?_,
    fun p r => row_of_run (issues fun _ _ _ => rfl) fun c s ⟨hp, hown, hr⟩ => ?_,
    fun p => rowRefuses_of_run (issues fun _ _ _ => rfl) fun c s ⟨hp, hown, hr⟩ => ?_⟩
  · show cmdRetrain c s = _
    rw [cmdRetrain, withPort_has hp]
    exact if_neg (by simp [hmode, ht])
  · show cmdRetrain c s = _
    rw [cmdRetrain, withPort_has hp]
    exact if_pos h
  · show cmdGetLinkStatus c s = _
    rw [cmdGetLinkStatus, withPort_has hp]
    exact if_neg hpage
  · refine (setLinkTest_fits hp hfit hmode hb).trans ((if_neg (by simp [h5])).trans ?_)
    split <;> rfl
  · show cmdGetLinkCaps c s = _
    rw [cmdGetLinkCaps, withPort_has hp]
    exact if_pos hown
  · show cmdGetLinkCaps c s = _
    rw [cmdGetLinkCaps, withPort_has hp]
    simp only [hown, hr, Bool.false_eq_true, if_false]
    rfl
  · show cmdGetLinkCaps c s = _
    rw [cmdGetLinkCaps, withPort_has hp]
    simp only [hown, hr, Bool.false_eq_true, if_false]

end Sys2Proof.Proofs
end

section
/-! Proofs of the statements about what happens on link ports and their streams (chapter 12). -/

namespace Sys2Proof.Proofs

open Sys2Proof Sys2Proof.Machine Sys2Proof.Safety Sys2Proof.Laws

/-! ### Ports -/

/-- A port that has taken a message keeps all but its back channel. -/
@[simp] theorem portGet_heardMsg (p : Nat) (s : State) :
    portGet (heardMsg p s) p = { portGet s p with backValid := true, lastBack := now s } := portGet_portPut p _ s

/-- A port that is powered down sends no STATUS (R289). -/
theorem sendStatus_off {p : Nat} {s : State} (h : (portGet s p).mode = 0) : sendStatus p s = s := if_pos (.inl h)

/-- A port that is powered down loses nothing (R88). -/
theorem portLoss_off {p k : Nat} {s : State} (h : (portGet s p).mode = 0) : portLoss p k s = s := if_pos (.inl h)

/-- Settles O48, event by event: by the port's state. -/
theorem linkPortEvents : Obligations.LinkPortEvents := by
  refine ⟨fun p x s hx hb hrx => ⟨fun h0 => ?_, fun h7 => ?_, fun h0 h7 => ?_⟩, fun p b l x s t hx hh hb h1 ht => ?_,
    fun p s hb h2 => ?_, fun p s h2 => ?_,
    fun p b agree x s hx hh hb => ⟨fun h6 => ?_, fun h3 ha => ?_, fun h3 ha hz => ?_, fun h3 ha hz => ?_, fun h3 h6 => ?_⟩,
    fun p l x n s hx hrx hb h2 h5 hl hn => ?_, fun p b s hh => ?_, fun p m s hh ht hlen => ?_,
    fun p m s hh ht hlen hb hloss h2 h5 => ?_, fun p m s hh ht hlen hb h0 => ?_, fun p b m s hoff => ?_,
    fun p b s hm hrx hhd => ?_, fun p s => rfl, fun p s hrx hm hl => ?_, fun p s hb hl => ?_, fun p s hl => ?_,
    fun p x s hx hm h8 hl => ⟨fun hr => ?_, fun hr ha => ?_⟩, fun p s h5 hm hl => ?_, fun p b s hh h5 hin => ?_,
    fun p b x r s hx hh h5 hin hr => ⟨fun h1 hbit hal => ?_, fun h2 hbit hal => ?_, fun h1 h2 => ?_⟩,
    fun p m x s t hx hh ht hlen h5 hreq hn hst => ?_, fun p m s hh ht => ?_, fun p s hidle hrun hl => ?_,
    fun p l x s hx ht hrx => ⟨fun hl => ?_, fun e n hs he => ?_, fun e n he => ?_⟩⟩
  · subst hx
    simp only [exec, execLinkCkDetected, hb, hrx, h0, Bool.not_true, Bool.false_eq_true, or_self, if_false, if_true]
  · subst hx
    simp only [exec, execLinkCkDetected, hb, hrx, h7, Bool.not_true, Bool.false_eq_true, or_self, if_false, if_true,
      OfNat.ofNat_ne_zero]
  · subst hx
    simp only [exec, execLinkCkDetected, hb, hrx, h0, h7, Bool.not_true, Bool.false_eq_true, or_self, if_false]
  · subst hx
    simp only [exec, execTrainBlock, withCtl_hears hh]
    rw [if_neg (by simp [hb, h1]), ht]
  · exact if_pos ⟨hb, h2⟩
  · exact if_neg fun h => h2 h.2
  · subst hx
    simp only [exec, execAlignBlock, withCtl_hears hh]
    rw [if_neg (by simp [hb]), if_pos h6]
  · subst hx
    simp only [exec, execAlignBlock, withCtl_hears hh]
    rw [if_neg (by simp [hb]), if_neg (by omega), if_neg (by omega), if_pos (by simp [ha])]
  · subst hx
    simp only [exec, execAlignBlock, withCtl_hears hh]
    rw [if_neg (by simp [hb]), if_neg (by omega), if_neg (by omega), if_neg (by simp [ha]), if_pos hz]
  · subst hx
    simp only [exec, execAlignBlock, withCtl_hears hh]
    rw [if_neg (by simp [hb]), if_neg (by omega), if_neg (by omega), if_neg (by simp [ha]), if_neg hz]
  · subst hx
    simp only [exec, execAlignBlock, withCtl_hears hh]
    rw [if_neg (by simp [hb]), if_neg h6, if_pos h3]
  · subst hx hn
    simp only [exec, execAlignInterval]
    rw [if_neg (by simp [hrx, hb, hl]; omega)]
    rfl
  · simp only [exec, execCapsBlock, withCtl_hears hh]
    rw [if_neg (by simp)]
  · simp only [exec, execCapsMessage, withMsg_hears hh]
    rw [if_neg (by simp [ht, hlen])]
  · simp only [exec, execStatusMessage, withMsg_hears hh, portGet_heardMsg]
    rw [if_neg (by simp [ht, hlen]; exact hb), if_pos ⟨hloss, h2, h5⟩]
  · simp only [exec, execStatusMessage, withMsg_hears hh, portGet_heardMsg]
    rw [if_neg (by simp [ht, hlen]; exact hb), if_neg (by omega), h0]
    rfl
  · simp only [exec, execTrainBlock, execAlignBlock, execCapsBlock, execCapsMessage, execStatusMessage, execLpBlock, execLpAck,
      execLpNak, execStatusPeriod, withCtl_off hoff, withMsg_off hoff, sendStatus_off hoff, and_self]
  · simp only [exec, execCapsBlock, withCtl]
    rw [if_neg (by simp [hm, hrx]), if_pos hhd]
    rfl
  · exact if_neg (by simp [hrx, hm]; omega)
  · exact if_pos ⟨hb, hl⟩
  · exact if_neg fun h => by simp [hl] at h
  · subst hx
    simp only [exec, execLinkErrorHold]
    rw [if_neg (by omega), if_pos hr]
  · subst hx
    simp only [exec, execLinkErrorHold]
    rw [if_neg (by omega), if_neg (by omega)]
  · exact if_pos ⟨h5, hm, hl⟩
  · simp only [exec, execLpBlock, withCtl_hears hh]
    rw [if_neg (by simp [h5]), if_pos (by simpa using hin)]
  · subst hx
    have hbit' : bit (wd r 1) 8 = true := hbit
    simp only [exec, execLpBlock, withCtl_hears hh, hr, h1, hbit', hal]
    rw [if_neg (by simp [h5]), if_neg (by simpa using hin), if_pos (by simp)]
    rfl
  · subst hx
    have hbit' : bit (wd r 1) 9 = true := hbit
    simp only [exec, execLpBlock, withCtl_hears hh, hr, h2, hbit', hal]
    rw [if_neg (by simp [h5]), if_neg (by simpa using hin), if_pos (by simp)]
    rfl
  · subst hx
    have hno : (decide (pb b 2 = 1) && (portGet s p.val).allowLow1 || decide (pb b 2 = 2) && (portGet s p.val).allowLow2) = false := by
      rw [Bool.or_eq_false_iff, Bool.and_eq_false_imp, Bool.and_eq_false_imp]
      exact ⟨fun h => h1 (of_decide_eq_true h), fun h => h2 (of_decide_eq_true h)⟩
    simp only [exec, execLpBlock, withCtl_hears hh, hno, Bool.and_false]
    rw [if_neg (by simp [h5]), if_neg (by simpa using hin), if_neg Bool.false_ne_true]
  · subst hx
    simp only [exec, execLpAck, withMsg_hears hh, portGet_heardMsg, ← hn]
    rw [if_neg (by simp [ht, hlen, h5, hreq]), hst, portGet_heardMsg]
  · simp only [exec, execLpNak, withMsg_hears hh]
    rw [if_neg (by simp [ht])]
  · exact if_neg (by simp [hidle, hrun]; omega)
  · subst hx
    exact if_pos ⟨ht, hrx, hl⟩
  · subst hx
    exact if_pos ⟨ht, hrx, hs, he⟩
  · exact if_neg fun h => by omega

/-! ### Stream blocks -/

/-- Data blocks that all carry data on the lanes of the stream are its payloads, none left out (R284, R285). -/
theorem dataOf_all {s : State} {p : Nat} {b : CtlBlock} {d : List CtlBlock} {h : Handle}
    (hs : streamOn s p (pb b 1 % 4) b.lane.val = some h)
    (hd : ∀ k ∈ d, k.header = 1 ∧ streamOn s p (pb b 1 % 4) k.lane.val = some h) :
    dataOf s p b d = d.map (fun k => k.payload) := by
  rw [dataOf, List.filter_eq_self.mpr]
  intro k hk
  obtain ⟨h1, h2⟩ := hd k hk
  simp [h1, h2, hs]

/-- And none of them is counted. -/
theorem countData_all {s : State} {p : Nat} {b : CtlBlock} {d : List CtlBlock} {h : Handle}
    (hs : streamOn s p (pb b 1 % 4) b.lane.val = some h)
    (hd : ∀ k ∈ d, k.header = 1 ∧ streamOn s p (pb b 1 % 4) k.lane.val = some h) : countData p b d s = s := by
  have hbad : d.filter (fun k => decide (k.header = 0 ∨ k.header = 3)) = [] :=
    List.filter_eq_nil_iff.mpr fun k hk => by simp [(hd k hk).1]
  have hgood : d.filter (fun k => decide (k.header = 1)) = d :=
    List.filter_eq_self.mpr fun k hk => decide_eq_true (hd k hk).1
  unfold countData
  dsimp only
  rw [dataOf_all hs hd, hbad, hgood, List.length_map, Nat.sub_self, ite_self]
  exact (if_congr Iff.rfl rfl (if_pos ⟨rfl, rfl⟩)).trans (ite_self s)

/-- A stream block of a port in OFF has no effect, nor do its data blocks. -/
theorem withStreamBlock_off {p : Fin 32} {type : Nat} {b : CtlBlock} {d : List CtlBlock}
    {act : List (BitVec 128) → Handle → State → State} {s : State} (h : (portGet s p.val).mode = 0) :
    withStreamBlock p type b d act s = s := by
  have hcount : countData p.val b d s = s := if_pos (.inl h)
  unfold withStreamBlock
  dsimp only
  rw [hcount, withCtl_off h]

/-- A stream block outside ACTIVE has no effect (R285). -/
theorem withStreamBlock_inactive {p : Fin 32} {type t : Nat} {b : CtlBlock}
    {act : List (BitVec 128) → Handle → State → State} {s : State} (hh : Hears s p.val b t) (h5 : (portGet s p.val).state ≠ 5) :
    withStreamBlock p type b [] act s = s := by
  unfold withStreamBlock
  dsimp only
  rw [countData_nil, withCtl_hears hh]
  exact if_pos (.inr (.inl h5))

/-- Counting data blocks changes no source. -/
@[simp] theorem srcGet_countData (p : Nat) (b : CtlBlock) (d : List CtlBlock) (s : State) (h : Handle) :
    srcGet (countData p b d s) h = srcGet s h := by
  obtain e | ⟨_, _, e⟩ := countData_eq p b d s
  · rw [e]
  · rw [e]
    rfl

/-- Settles O49, event by event: a block that the port carries acts on its stream. -/
theorem linkStreamEvents : Obligations.LinkStreamEvents := by
  refine ⟨fun p b h s hc => ?_, fun p b d full h s t hc ht => ?_, fun p b d full h s hc hd => ?_, fun p b h s hc => ?_,
    fun p b d h s hc hst => ?_, fun p b d ws h s hc hst hws => ?_, fun p b d h s hc => ?_, fun p b d full s hoff => ?_,
    fun p b s ⟨t, _, hh⟩ h5 => ?_, fun p s => ⟨rfl, rfl⟩⟩
  · simp only [exec, execFsBlock, withStreamBlock_carries hc, countData_nil]
  · simp only [exec, execLsBlock, withStreamBlock_carries hc, ht]
  · have hs := hc.2.2.2.2
    simp only [exec, execLsBlock, withStreamBlock_carries hc, countData_all hs hd, dataOf_all hs hd, List.length_map]
  · simp only [exec, execFeBlock, withStreamBlock_carries hc, countData_nil]
  · have hm := (carries_count d hc).2.2.2.1
    simp only [exec, execAncBlock, withStreamBlock_carries hc, if_neg hm, onAnc, srcGet_countData, if_pos hst]
  · have hm := (carries_count d hc).2.2.2.1
    simp only [exec, execAncBlock, withStreamBlock_carries hc, if_neg hm, onAnc, srcGet_countData, if_neg hst, hws]
  · have hm := (carries_count d hc).2.2.2.1
    simp only [exec, execAudBlock, withStreamBlock_carries hc, if_neg hm]
  · simp only [exec, execFsBlock, execLsBlock, execFeBlock, execAncBlock, execAudBlock, execLinkLos, execLinkLol,
      withStreamBlock_off hoff, portLoss_off hoff, and_self]
  · simp only [exec, execFsBlock, withStreamBlock_inactive hh h5]

end Sys2Proof.Proofs
end

section
/-! Proofs of the statements about Ethernet ports, stream entries, flows and Yo-yo pairs (chapter 13). -/

namespace Sys2Proof.Proofs

open Sys2Proof Sys2Proof.Machine Sys2Proof.Safety Sys2Proof.Laws

/-! ### Stream entries and flows -/

/-- CREATE_STREAM_ENTRY whose fields fit, within the limit and the quota (R306). -/
theorem createStreamEntry_fits {c : Ctx} {s : State} (hfit : EntryFits c s) (hlen : s.eth.entries.length < 8192)
    (hquota : quotaUse s c.page 3 < quotaOf s c.page 3) (hroom : shortfall s (withAskedEntry c s).2 = none) :
    cmdCreateStreamEntry c s = .done .ok [word (withAskedEntry c s).1] (withAskedEntry c s).2 := by
  obtain ⟨hvpt, hapt, haddr, hmin, hmax, hdiff, hnone, hsrc, hdst⟩ := hfit
  have hrange : ¬(bf c 0 7 1 < 96 ∨ (bb c 0 16 = true ∧ bf c 0 14 8 ≠ 0 ∧ bf c 0 14 8 ≠ 8 ∧ bf c 0 14 8 < 96) ∨
      addrFault c 1 s = some .range ∨ bn c 11 < 64 ∨ 400000 < bn c 11) := by
    rintro (h | ⟨ha, h0, h8, h⟩ | h | h | h)
    · omega
    · have := hapt ha
      omega
    · simp [haddr] at h
    · omega
    · omega
  have hagree : ¬((bb c 0 16 = true ∧ bf c 0 14 8 = bf c 0 7 1) ∨ ((!bb c 0 16) = true ∧ bf c 0 14 8 ≠ 0) ∨
      (addrFault c 1 s).isSome = true ∨ (!v4Good (addrOf c 1).ipv6 (bn128 c 7)) = true ∨
      ((!isMulticast (addrOf c 1).ipv6 (addrOf c 1).dst) = true ∧ (addrOf c 1).dst ≠ ownAddress s
        ((runsOn s (addrOf c 1).port).getD (2 * ((addrOf c 1).port - 8))) (addrOf c 1).subport (addrOf c 1).ipv6)) := by
    rintro (⟨ha, h⟩ | ⟨ha, h⟩ | h | h | ⟨hm, h⟩)
    · exact hdiff ha h
    · exact h (hnone (by simpa using ha))
    · simp [haddr] at h
    · simp [hsrc] at h
    · exact hdst.elim (fun hm' => by simp [hm'] at hm) h
  unfold cmdCreateStreamEntry
  dsimp only
  rw [if_neg hrange, if_neg hagree, if_neg (by omega)]
  exact admitted_fits hroom

/-- The flow asked for, its ancillary fields as CREATE_FLOW reads them. -/
theorem askedFlow_eq (c : Ctx) (s : State) : askedFlow c s = {
    owner := c.page, tx := bb c 0 10, essence := bf c 0 12 11, wide := bb c 0 13, td := bf c 0 19 16, addr := addrOf c 1
    src := if bb c 0 10 then 0 else bn128 c 7
    fmt := if bb c 0 10 && decide (bf c 0 12 11 = 0) then formatOf (bw c 7) (bw c 8) (bw c 9) else {}
    pt := if bb c 0 10 then bf c 10 6 0 else 0
    pair := if bb c 0 10 ∧ bf c 0 12 11 = 2 then bf c 7 9 0 else 0
    fromLayer := if bb c 0 10 ∧ bf c 0 12 11 = 2 then bn c 8 else 0, since := now s } := by
  simp only [askedFlow, Bool.and_eq_true, decide_eq_true_eq]

/-- A flow joins its group only where it receives, and then from the source asked for. -/
theorem withAskedFlow_eq (c : Ctx) (s : State) : withAskedFlow c s =
    rehop (if bb c 0 10 then setEth { s.eth with flows := tset s.eth.flows (bf c 0 9 0) (askedFlow c s) } s
      else groupNow true (askedFlow c s).addr (askedFlow c s).src
        (setEth { s.eth with flows := tset s.eth.flows (bf c 0 9 0) (askedFlow c s) } s)) := by
  unfold withAskedFlow
  cases hx : bb c 0 10
  · simp [askedFlow, hx]
  · rfl

/-- The flow that CREATE_FLOW puts into its table is the one asked for. -/
theorem createFlow_fits {c : Ctx} {s : State} (hfit : FlowFits c s) (hroom : shortfall s (withAskedFlow c s) = none) :
    cmdCreateFlow c s = .done .ok [word (bf c 0 9 0)] (withAskedFlow c s) := by
  obtain ⟨hess, haddr, hfree, hrx, hvideo, haudio, hanc⟩ := hfit
  have hlt : bf c 0 12 11 < 4 := Nat.mod_lt _ (by decide)
  have hrange : ¬(bf c 0 12 11 = 3 ∨ ((!bb c 0 10) = true ∧ bf c 0 12 11 = 0 ∧ 159 < bf c 0 9 0) ∨
      addrFault c 1 s = some .range ∨
      ((bb c 0 10 && decide (bf c 0 12 11 = 0)) = true ∧ (!formatRange (formatOf (bw c 7) (bw c 8) (bw c 9))) = true) ∨
      (bb c 0 10 = true ∧ bf c 0 12 11 = 2 ∧
        (bf c 10 6 0 < 96 ∨ (bn c 8 ≠ 0 ∧ (!(destGood (bn c 8) && decide (dKind (bn c 8) = 1))) = true)))) := by
    rintro (h | ⟨ht, h0, h⟩ | h | ⟨ht, h⟩ | ⟨ht, h2, h⟩)
    · exact hess h
    · have := (hrx (by simpa using ht)).1 h0
      omega
    · simp [haddr] at h
    · obtain ⟨ht, h0⟩ := by simpa using ht
      simp [(hvideo ht h0).1] at h
    · obtain ⟨-, hpt, -, -, hfrom⟩ := hanc ht h2
      rcases h with h | ⟨h8, h⟩
      · omega
      · simp [(hfrom h8).1, (hfrom h8).2.1] at h
  have hagree : ¬(((!(bb c 0 10 && decide (bf c 0 12 11 = 0))) = true ∧ bb c 0 13 = true) ∨
      ((!bb c 0 10) = true ∧ bf c 0 19 16 ≠ 0) ∨ (addrFault c 1 s).isSome = true ∨
      ((bb c 0 10 && decide (bf c 0 12 11 = 0)) = true ∧
        ((!formatAgrees (.st2110 0 false none) (formatOf (bw c 7) (bw c 8) (bw c 9))) = true ∨
          (formatOf (bw c 7) (bw c 8) (bw c 9)).store ≠ 0 ∨ bn c 9 ≠ 0)) ∨
      ((!bb c 0 10) = true ∧ (!v4Good (addrOf c 1).ipv6 (bn128 c 7)) = true) ∨
      (bb c 0 10 = true ∧ bf c 0 12 11 = 1 ∧ (bn c 7 ≠ 0 ∨ bn c 8 ≠ 0 ∨ bn c 9 ≠ 0))) := by
    rintro (⟨ht, h⟩ | ⟨ht, h⟩ | h | ⟨ht, h⟩ | ⟨ht, h⟩ | ⟨ht, h1, h⟩)
    · have hwide : bb c 0 13 = false := by
        cases hx : bb c 0 10 with
        | false => exact (hrx hx).2.1
        | true =>
          have h0 : bf c 0 12 11 ≠ 0 := by simpa [hx] using ht
          rcases (by omega : bf c 0 12 11 = 1 ∨ bf c 0 12 11 = 2) with h1 | h2
          · exact (haudio hx h1).1
          · exact (hanc hx h2).1
      simp [hwide] at h
    · exact h (hrx (by simpa using ht)).2.2.1
    · simp [haddr] at h
    · obtain ⟨ht, h0⟩ := by simpa using ht
      obtain ⟨-, hagrees, hstore, h9⟩ := hvideo ht h0
      simp [hagrees, hstore, h9] at h
    · simp [(hrx (by simpa using ht)).2.2.2] at h
    · obtain ⟨-, h7, h8, h9⟩ := haudio ht h1
      simp [h7, h8, h9] at h
  have hbeside : ¬(bb c 0 10 = true ∧ bf c 0 12 11 = 2 ∧ (bn c 9 ≠ 0 ∨
      (!((tget s.eth.flows (bf c 7 9 0)).map (fun v => v.tx && decide (v.essence = 0 ∧ v.owner = c.page))).getD false) = true ∨
      (bn c 8 ≠ 0 ∧ sinkHead s (bf c 7 9 0) ≠ some (dHead (bn c 8))))) := by
    rintro ⟨ht, h2, h⟩
    obtain ⟨-, -, h9, ⟨v, hv, hvtx, hvess, hvown⟩, hfrom⟩ := hanc ht h2
    rcases h with h | h | ⟨h8, h⟩
    · exact h h9
    · simp [hv, hvtx, hvess, hvown] at h
    · exact h (hfrom h8).2.2
  unfold cmdCreateFlow
  dsimp only
  rw [if_neg hrange, if_neg hagree, if_neg hbeside, if_neg (by simp [hfree])]
  rw [← askedFlow_eq]
  rw [withAskedFlow_eq] at hroom ⊢
  exact admitted_fits hroom

/-! ### The commands -/

/-- Settles O50, row by row: the named entry or flow is the issuer's, then the section's own guards. -/
theorem ethernetCommands : Obligations.EthernetCommands := by
  refine ⟨row_of_run (issues fun _ _ _ => rfl) fun c s ⟨hsub, hpre, hb⟩ => ?_,
    row_of_run (issues fun _ _ _ => rfl) fun c s ⟨hfit, hlen, hquota, hroom⟩ =>
      createStreamEntry_fits hfit hlen hquota hroom,
    fun x e => row_of_run (issues fun _ _ _ => rfl) fun c s ⟨hx, he⟩ => withEntry_owns hx he,
    fun x e => row_of_run (issues fun _ _ _ => rfl) fun c s ⟨hx, he, h0⟩ => ?_,
    fun x e => row_of_run (issues fun _ _ _ => rfl) fun c s ⟨hx, he, h0, h4, haddr, hroom⟩ => ?_,
    row_of_run (issues fun _ _ _ => rfl) fun c s ⟨hfit, hroom⟩ => createFlow_fits hfit hroom,
    fun f => row_of_run (issues fun _ _ _ => rfl) fun c s ⟨⟨hf, hown⟩, hb, htx⟩ => ?_,
    fun f t => row_of_run (issues fun _ _ _ => rfl) fun c s ⟨⟨hf, hown⟩, hb, htx, ht⟩ => ?_,
    fun f => rowRefuses_of_run (issues fun _ _ _ => rfl) fun c s ⟨⟨hf, hown⟩, hb⟩ => ?_,
    row_of_run (issues fun _ _ _ => rfl) fun c s ⟨h2, h1, h0⟩ => ?_,
    fun t => row_of_run (issues fun _ _ _ => rfl) fun c s ⟨h2, hmin, hmax, hhold, hmode, ha, hb, ht⟩ => ?_,
    fun k st t => row_of_run (issues fun _ _ _ => rfl) fun c s ⟨hk, hst, harmed, ht, hup⟩ => ?_,
    rowRefuses_of_run (issues fun _ _ _ => rfl) fun c s h => if_pos h,
    fun y => row_of_run (issues fun _ _ _ => rfl) fun c s ⟨h8, h12, hsub, hy⟩ => ?_,
    fun x m => row_of_run (issues fun _ _ _ => rfl) fun c s ⟨h8, hx, hm, hsub, hown⟩ => ?_,
    row_of_run (issues fun _ _ _ => rfl) fun c s ⟨h8, hsub, hpage, hes, hfs⟩ => ?_,
    fun f => row_of_run (issues fun _ _ _ => rfl) fun c s ⟨⟨hf, hown⟩, htx, hess, hlen, h1, h8, hgood, hroom⟩ => ?_,
    fun f => rowRefuses_of_run (issues fun _ _ _ => rfl) fun c s ⟨⟨hf, hown⟩, htx, hess, hlen, h1, h8, hbad⟩ => ?_⟩
  · show cmdSetEthPort c s = _
    unfold cmdSetEthPort
    dsimp only
    rw [if_neg ?_, if_neg (by simp [hb])]
    · rfl
    · rintro (⟨h6, h⟩ | h)
      · exact h (hsub (by simpa using h6))
      · omega
  · refine (withEntry_owns hx he).trans (if_pos ?_)
    exact List.all_eq_true.mpr fun k hk => by simp [h0 k (List.mem_range.mp hk)]
  · obtain ⟨k, hk, h0⟩ := h0
    refine (withEntry_owns hx he).trans ((if_neg ?_).trans ?_)
    · intro hall
      exact h0 (by simpa using List.all_eq_true.mp hall k (List.mem_range.mpr hk))
    · dsimp only
      rw [if_neg (by omega), if_neg (by simp [haddr])]
      exact admitted_fits hroom
  · show cmdDeleteFlow c s = _
    simp only [cmdDeleteFlow, hf, htx, hb, Bool.false_eq_true, if_false, if_true]
    exact if_neg (fun h => hown.elim h.1 h.2)
  · show cmdDeleteFlow c s = _
    rw [ht]
    simp only [cmdDeleteFlow, hf, htx, hb, Bool.false_eq_true, if_false]
    exact if_neg (fun h => hown.elim h.1 h.2)
  · show cmdDeleteFlow c s = _
    simp only [cmdDeleteFlow, hf, hb, if_true]
    exact if_neg (fun h => hown.elim h.1 h.2)
  · show cmdArmYoyo c s = _
    simp only [cmdArmYoyo, h2, h1, h0, Bool.not_false, if_true]
    exact if_neg (by simp)
  · show cmdArmYoyo c s = _
    rw [ht]
    simp only [cmdArmYoyo, h2, Bool.not_true, Bool.false_eq_true, if_false]
    unfold orDefault at *
    rw [if_neg (by omega), if_neg (by simp [hmode, ha, hb])]
    rfl
  · show cmdYoyoSwitch c s = _
    subst hk
    unfold cmdYoyoSwitch
    dsimp only
    rw [if_neg harmed, ← ht, ← hst]
    by_cases h : (pairGet t (bf c 0 1 0)).state = st
    · rw [if_pos h, if_pos h]
      rfl
    · rw [if_neg h, if_neg h, if_neg (by simp [hup h])]
      rfl
  · show cmdGetEthStatus c s = _
    unfold cmdGetEthStatus
    dsimp only
    rw [if_neg (by omega), if_pos h8, hy]
    rfl
  · show cmdGetEthStatus c s = _
    unfold cmdGetEthStatus
    dsimp only
    rw [if_neg ?_, if_neg (by omega), if_neg ?_, hx, hm]
    · rfl
    · rintro ⟨hpage, hnone⟩
      simp only [Bool.not_eq_true', Bool.or_eq_false_iff, List.any_eq_false, Bool.and_eq_true, decide_eq_true_eq] at hnone
      rcases hown with h | ⟨e, he, hmine⟩ | ⟨f, hf, hmine⟩
      · exact hpage h
      · exact hnone.1 e he hmine
      · exact hnone.2 f hf hmine
    · rintro (h | ⟨h0, h | h⟩)
      · omega
      · omega
      · simp [hsub.resolve_left h0] at h
  · show cmdGetEthStatus c s = _
    unfold cmdGetEthStatus
    dsimp only
    rw [if_neg (by omega), if_neg (by omega), if_pos ?_]
    · rfl
    · refine ⟨hpage, ?_⟩
      simp only [Bool.not_eq_true', Bool.or_eq_false_iff, List.any_eq_false, Bool.and_eq_true, decide_eq_true_eq]
      exact ⟨fun e he h => hes e he h.1 h.2, fun f hf h => hfs f hf h.1 h.2⟩
  · show cmdSendAnc c s = _
    simp only [cmdSendAnc, hf]
    rw [if_neg (fun h => hown.elim h.1 h.2), if_neg (by simp [htx, hess]), if_neg (by simp [hlen]), if_neg ?_,
      if_neg (by omega)]
    · rfl
    · rintro (h | h | h)
      · omega
      · omega
      · obtain ⟨a, ha, hz⟩ := List.any_eq_true.mp h
        have := hgood a ha
        simp [this] at hz
  · show cmdSendAnc c s = _
    simp only [cmdSendAnc, hf]
    rw [if_neg (fun h => hown.elim h.1 h.2), if_neg (by simp [htx, hess]), if_neg (by simp [hlen]), if_pos ?_]
    obtain ⟨a, ha, hz⟩ := hbad
    exact .inr (.inr (List.any_eq_true.mpr ⟨a, ha, by simpa using hz⟩))

/-! ### The events -/

/-- A port runs where its mode is set; a sub-port other than the first also asks for the breakout (R304). -/
theorem ethRuns_ethKey (s : State) (p : Fin 8) (sub : Fin 4) : ethRuns s (ethKey p.val sub.val) =
    (decide ((ethGet s p.val).mode ≠ 0) && (decide (sub = 0) || (ethGet s p.val).breakout)) := by
  have hmod : ethKey p.val sub.val % 8 = p.val := by
    unfold ethKey
    omega
  have hsub : (ethKey p.val sub.val < 8) = (sub = 0) := by
    unfold ethKey
    exact propext ⟨fun h => by omega, fun h => by omega⟩
  simp only [ethRuns, hmod, hsub]

/-- Settles O51: each event of a port or a pair by the branch that its hypotheses select. -/
theorem ethernetEvents : Obligations.EthernetEvents := by
  refine ⟨fun p k s h => ?_, fun p k s hruns hlen => ?_, fun p k s hruns hlen hk hes hfs => ?_,
    fun p k h e s hruns hlen hk hes henc hm hfs => ?_, fun p k s hruns hlen => ⟨fun hk => ?_, fun mac hk => ?_⟩,
    fun p sub k s t hk hup ht => ?_, fun p sub s h => ?_, fun p sub k s hk hdown hruns => ?_, fun p sub s h => ?_,
    fun p sub k n s t hh hk hn ht => ?_, fun k s => rfl, fun k s hst hc hr hp => if_pos ⟨hst, hc, hr, hp⟩,
    fun k p s hact hst hc hhops hp => ?_, fun k s h => ⟨?_, ?_, ?_, ?_, ?_⟩, fun k s h => ?_,
    fun p sub a m s h => ⟨?_, ?_⟩, fun p sub a m k h s t hk hh ht hact => ?_, fun s => rfl,
    fun p sub a k h s hk hh => ?_, fun k t s hc hst hclean ht => ?_, fun k s h => ?_,
    fun k s hst ht => if_pos ⟨hst, ht⟩, fun k t s hr hst hrecv ht => ?_⟩
  · have hruns : ethRuns s (ethKey p.val k.subport.val) = false := by
      rw [ethRuns_ethKey]
      rcases h with h | ⟨h0, h⟩
      · simp [h]
      · simp [h0, h]
    simp [exec, execEthPacket, hruns]
  · simp only [exec, execEthPacket, hruns, Bool.not_true, Bool.false_eq_true, if_false]
    exact if_pos hlen
  · simp only [exec, execEthPacket, hruns, Bool.not_true, Bool.false_eq_true, if_false, hk]
    rw [if_neg (by omega), if_pos ?_]
    · rfl
    · have hes' : ∀ e ∈ s.eth.entries, ¬(e.2.encoder.isNone && addrMatch s p.val e.2.addr e.2.src k) = true := by
        intro e he h
        simp only [Bool.and_eq_true, Option.isNone_iff_eq_none] at h
        simp [hes e he h.1] at h
      have hfs' : ∀ f ∈ s.eth.flows, ¬(!f.2.tx && addrMatch s p.val f.2.addr f.2.src k) = true := by
        intro f hf h
        simp only [Bool.and_eq_true, Bool.not_eq_true'] at h
        simp [hfs f hf h.1] at h
      rw [List.filter_eq_nil_iff.mpr hes', List.filter_eq_nil_iff.mpr hfs']
      exact ⟨rfl, rfl⟩
  · simp only [exec, execEthPacket, hruns, Bool.not_true, Bool.false_eq_true, if_false, hk, hes, hfs]
    rw [if_neg (by omega)]
    simp [henc, hm]
  · simp only [exec, execEthPacket, hruns, Bool.not_true, Bool.false_eq_true, if_false, hk]
    exact if_neg (by omega)
  · simp only [exec, execEthPacket, hruns, Bool.not_true, Bool.false_eq_true, if_false, hk]
    exact if_neg (by omega)
  · subst hk
    simp only [exec, execEthLinkDown, hup, Bool.not_true, Bool.false_eq_true, if_false, ht]
  · simp [exec, execEthLinkDown, h]
  · subst hk
    exact if_neg (by simp [hdown, hruns])
  · refine if_pos (h.imp_right fun h => ?_)
    simp [ethRuns_ethKey, h]
  · subst hk
    rw [ht, hn]
    simp only [exec, execFecCodewordUncorrected, hh, Bool.false_eq_true, if_false]
  · simp only [exec, execNexthopTimeout, hact]
    exact if_pos ⟨hst, hc, by simp [hhops], hp⟩
  · exact if_neg (by simp [h])
  · simp [exec, execNexthopTimeout, h, activeIn]
  · simp [exec, execNexthopProbe, h]
  · exact if_neg (by simp [h])
  · simp only [exec, execBothLostNexthopHold, h, if_true]
    split <;> simp
  · simp [exec, execNexthopProbe, h]
  · simp [exec, execArpReply, h]
  · simp [exec, execResolveFail, h]
  · subst hk
    rw [ht]
    simp only [exec, execArpReply, hh, Option.isNone_some, Bool.false_eq_true, if_false]
    exact if_neg fun h => hact h.2
  · subst hk
    simp only [exec, execResolveFail, hh, Option.isNone_some, Bool.false_eq_true, if_false]
    rfl
  · simp only [exec, execHoldoffExpiry, hc]
    exact if_pos ⟨hst, hclean, ht⟩
  · simp [exec, execHoldoffExpiry, h]
  · simp only [exec, execBothLostNexthopHold, hr, Bool.false_eq_true, if_false]
    rw [if_neg (by simp [hst, hrecv]; omega)]
    rfl

end Sys2Proof.Proofs
end

section
/-! Proofs of the statements about the recording pool, recorded streams and encode contexts (chapter 14). -/

namespace Sys2Proof.Proofs

open Sys2Proof Sys2Proof.Machine Sys2Proof.Safety Sys2Proof.Laws

/-! ### The commands -/

/-- FORMAT_POOL of drives that may become members, with an area for segments on each and no more of them than a pool
holds (R328). -/
theorem formatPool_fits {c : Ctx} {s : State} (hslots : askedSlots c ≠ []) (hidle : s.pool.formatting = none)
    (hstreams : s.pool.streams = []) (hshifts : s.shifts = [])
    (hstate : ∀ x ∈ askedDrives c s, x.state = 1 ∨ x.state = 6 ∧ bb c 9 0 = true)
    (harea : ∀ x ∈ askedDrives c s, segArea x.slots (bn c 8) (askedSlots c).length < x.slots)
    (hsum : ((askedDrives c s).map (fun x => x.slots - segArea x.slots (bn c 8) (askedSlots c).length)).sum ≤ 2 ^ 32) :
    cmdFormatPool c s = .done .ok [] ((askedSlots c).foldl (fun t k => layOut (askedSlots c) (bn c 8) k t)
      (setPool { s.pool with formatting := some (askedSlots c, bn c 8), formats := s.pool.formats + 1 } s)) := by
  have hempty : ¬(askedSlots c).isEmpty = true := by simpa using hslots
  have husable : ¬((askedDrives c s).any (fun x => !(decide (x.state = 1) || (decide (x.state = 6) && bb c 9 0))) = true ∨
      (!s.pool.streams.isEmpty) = true ∨ (!s.shifts.isEmpty) = true) := by
    rintro (h | h | h)
    · obtain ⟨x, hx, hbad⟩ := List.any_eq_true.mp h
      rcases hstate x hx with h1 | ⟨h6, hforce⟩
      · simp [h1] at hbad
      · simp [h6, hforce] at hbad
    · simp [hstreams] at h
    · simp [hshifts] at h
  have hroom : ¬((askedDrives c s).any
        (fun x => decide (x.slots ≤ segArea x.slots (bn c 8) (askedSlots c).length)) = true ∨
      2 ^ 32 < ((askedDrives c s).map (fun x => x.slots - segArea x.slots (bn c 8) (askedSlots c).length)).sum) := by
    rintro (h | h)
    · obtain ⟨x, hx, hbad⟩ := List.any_eq_true.mp h
      exact absurd (harea x hx) (by simpa using hbad)
    · exact absurd hsum (by omega)
  exact (if_neg hempty).trans ((if_neg (by simp [hidle])).trans ((if_neg husable).trans (if_neg hroom)))

/-- CREATE_RECORDING under a key that the issuer may record with (R328, R346). -/
theorem createRecording_fits {c : Ctx} {s : State} {i : Nat} {k : KeySlot} (hname : Names c s 7)
    (hkey : keySlot s (bn c 0) = some (i, k)) (hseg : 100 ≤ askedSegMs c) (hseg' : askedSegMs c ≤ 60000)
    (hpre : askedPreroll c ≤ 10000) (hpost : askedPostroll c ≤ 60000)
    (hroll : bb c 1 0 = false → askedPreroll c = 0 ∧ askedPostroll c = 0) (hown : k.owner = c.page)
    (hpol : tb k.policy 0 = true) (hopen : sealed s k = false) (hquota : quotaOf s c.page 10 ≠ 0) :
    cmdCreateRecording c s = .done .ok [word (newHandle c.page 6 s).1, word s.pool.nextStreamId]
      (setPool { (newHandle c.page 6 s).2.pool with
        nextStreamId := s.pool.nextStreamId + 1
        streams := tset (newHandle c.page 6 s).2.pool.streams (newHandle c.page 6 s).1 (askedRecording c s) }
        (newHandle c.page 6 s).2) := by
  have hrange : ¬(askedSegMs c < 100 ∨ 60000 < askedSegMs c ∨ 10000 < askedPreroll c ∨ 60000 < askedPostroll c ∨
      (bb c 1 0 = false ∧ (askedPreroll c ≠ 0 ∨ askedPostroll c ≠ 0))) := by
    rintro (h | h | h | h | ⟨h0, h⟩)
    · omega
    · omega
    · omega
    · omega
    · have := hroll h0
      omega
  have husable : ¬(k.owner ≠ c.page ∨ tb k.policy 0 = false ∨ sealed s k = true) := by
    rw [hown, hpol, hopen]
    simp
  have hname' : handleFault c.page s (bn c 0) [7] = none := hname
  unfold cmdCreateRecording
  simp only [hname', hkey, Bool.not_eq_true']
  exact (if_neg hrange).trans ((if_neg husable).trans (if_neg hquota))

/-- CREATE_ENCODE_CONTEXT in range, at the rate of its domain and within the quotas (R342). -/
theorem createEncode_fits {c : Ctx} {s : State} {k : Nat} (hfit : EncodeInRange c)
    (hrate : (domainGet s (bf c 0 15 12)).rate = bf c 0 19 16) (hctx : quotaUse s c.page 6 < quotaOf s c.page 6)
    (hent : quotaUse s c.page 3 < quotaOf s c.page 3) (hlen : s.eth.entries.length < 8192)
    (hk : k = (if bf c 0 7 0 = 255 then chooseEncoder s ⟨bf c 1 12 0 * bf c 1 28 16 * rate1001 (bf c 0 19 16), 1001⟩
        else bf c 0 7 0))
    (hroom : shortfall s (makeEncode c k s).2.2 = none) :
    cmdCreateEncode c s = .done .ok [word (makeEncode c k s).1, word (makeEncode c k s).2.1, word k]
      (makeEncode c k s).2.2 := by
  obtain ⟨hcore, hr, hw, hw', hw2, hh, hh', hh2, hkbps, hkbps', hport, hpt⟩ := hfit
  have hrange : ¬((15 < bf c 0 7 0 ∧ bf c 0 7 0 ≠ 255) ∨ rate1001 (bf c 0 19 16) = 0 ∨ bf c 1 12 0 < 64 ∨
      3840 < bf c 1 12 0 ∨ bf c 1 12 0 % 2 ≠ 0 ∨ bf c 1 28 16 < 64 ∨ 2160 < bf c 1 28 16 ∨ bf c 1 28 16 % 2 ≠ 0 ∨
      bn c 2 < 64 ∨ 400000 < bn c 2 ∨ 11 < bf c 3 3 0 ∨ bf c 3 10 4 < 96) := by
    omega
  have hquota : ¬(quotaOf s c.page 6 ≤ quotaUse s c.page 6 ∨ quotaOf s c.page 3 ≤ quotaUse s c.page 3 ∨
      8192 ≤ s.eth.entries.length) := by
    omega
  unfold cmdCreateEncode
  dsimp only
  rw [if_neg hrange, if_neg (not_not.mpr hrate), if_neg hquota, ← hk]
  rcases hctx : newHandle c.page 9 s with ⟨ctx, s1⟩
  rcases hen : newHandle c.page 1 s1 with ⟨en, s2⟩
  simp only [makeEncode, hctx, hen] at hroom ⊢
  exact admitted_fits hroom

/-- Settles O52, row by row: the named stream or context is the issuer's, then the section's own guards. -/
theorem poolCommands : Obligations.PoolCommands := by
  refine ⟨fun k => row_of_run (issues fun _ _ _ => rfl) fun c s ⟨hk, h⟩ => ?_,
    fun k => row_of_run (issues fun _ _ _ => rfl) fun c s ⟨hk, h⟩ => ?_,
    row_of_run (issues fun _ _ _ => rfl) fun c s ⟨hslots, hidle, hstreams, hshifts, hstate, harea, hsum⟩ =>
      formatPool_fits hslots hidle hstreams hshifts hstate harea hsum,
    row_of_run (issues fun _ _ _ => rfl) fun c s _ => rfl,
    fun i k => row_of_run (issues fun _ _ _ => rfl)
      fun c s ⟨hname, hkey, hseg, hseg', hpre, hpost, hroll, hown, hpol, hopen, hquota⟩ =>
        createRecording_fits hname hkey hseg hseg' hpre hpost hroll hown hpol hopen hquota,
    fun x => row_of_run (issues fun _ _ _ => rfl) fun c s ⟨⟨hn, hx⟩, hst⟩ =>
      (withRecording_named hn hx).trans (if_neg hst),
    fun x => rowRefuses_of_run (issues fun _ _ _ => rfl) fun c s ⟨⟨hn, hx⟩, hst⟩ =>
      (withRecording_named hn hx).trans (if_pos hst),
    fun x => row_of_run (issues fun _ _ _ => rfl) fun c s ⟨⟨hn, hx⟩, hact, hpart, hst⟩ => ?_,
    fun x => rowWaits_of_run (issues fun _ _ _ => rfl) fun c s ⟨⟨hn, hx⟩, haddr, hunit, hmax⟩ =>
      (withRecording_named hn hx).trans (if_neg (by omega)),
    fun x => rowWaits_of_run (issues fun _ _ _ => rfl) fun c s ⟨⟨hn, hx⟩, haddr, hunit, hmax⟩ =>
      (withRecording_named hn hx).trans (if_neg (by omega)),
    fun x => row_of_run (issues fun _ _ _ => rfl) fun c s ⟨⟨hn, hx⟩, hseq⟩ =>
      (withRecording_named hn hx).trans (if_neg (Nat.not_le.mpr hseq)),
    fun x gs => row_of_run (issues fun _ _ _ => rfl) fun c s ⟨⟨hn, hx⟩, hseq, hgs, hfree⟩ => ?_,
    fun x => rowRefuses_of_run (issues fun _ _ _ => rfl) fun c s ⟨⟨hn, hx⟩, hseq⟩ =>
      (withRecording_named hn hx).trans (if_pos hseq),
    fun x => row_of_run (issues fun _ _ _ => rfl) fun c s ⟨hn, hx⟩ => withRecording_named hn hx,
    fun k => row_of_run (issues fun _ _ _ => rfl) fun c s ⟨hfit, hrate, hctx, hent, hlen, hk, hroom⟩ =>
      createEncode_fits hfit hrate hctx hent hlen hk hroom,
    fun x => row_of_run (issues fun _ _ _ => rfl) fun c s ⟨⟨hn, hx⟩, hb⟩ =>
      (withEncode_named hn hx).trans (if_neg (by simp [hb])),
    fun x => rowRefuses_of_run (issues fun _ _ _ => rfl) fun c s ⟨⟨hn, hx⟩, hb⟩ =>
      (withEncode_named hn hx).trans (if_pos hb),
    fun x => row_of_run (issues fun _ _ _ => rfl) fun c s ⟨hn, hx⟩ => withEncode_named hn hx⟩
  · show cmdGetPoolDrives c s = _
    unfold cmdGetPoolDrives
    dsimp only
    rw [← hk, if_pos h, show min 6 (256 - k) = 6 by omega]
    rfl
  · show cmdGetPoolDrives c s = _
    unfold cmdGetPoolDrives
    dsimp only
    rw [← hk, if_neg (Nat.not_lt.mpr h)]
    rfl
  · refine (withRecording_named hn hx).trans ((if_neg ?_).trans (if_neg (by simp [hst])))
    simp [hact, hpart]
  · refine (withRecording_named hn hx).trans ((if_neg (Nat.not_le.mpr hseq)).trans ?_)
    rw [hgs] at hfree ⊢
    refine if_neg fun h => ?_
    obtain ⟨g, hg, hbusy⟩ := List.any_eq_true.mp h
    simp [hfree g hg] at hbusy

/-! ### The events -/

/-- Where the transfer of EXPORT_SEGMENTS reaches the host, its units are copied. -/
theorem exportDone_reached {n : BitVec 16} {e : Executing} {unit first a want : Nat} {l : List (Nat × Option (List Byte))}
    {full r : List (List Byte) × Nat × Nat} {s : State} (he : s.exec = some e)
    (hl : exportList s e.waits = some (unit, first, a, want, l)) (hfull : full = exportTake want first l)
    (hr : r = (if full.1.length ≤ n.toNat then full else exportTake n.toNat first l))
    (hreach : Reaches s a r.1.flatten.length) :
    exec (.exportDone n false) s = .next (complete e false 0 (if n.toNat < full.1.length then .okPartial else .ok)
      [word (min n.toNat full.1.length), word r.2.1, word r.2.2] (wrote a r.1.flatten s)) := by
  have hr' : r = if min n.toNat full.1.length = full.1.length then full
      else exportTake (min n.toNat full.1.length) first l := by
    rw [hr]
    by_cases h : full.1.length ≤ n.toNat
    · rw [if_pos h, if_pos (Nat.min_eq_right h)]
    · rw [if_neg h, if_neg (by omega), Nat.min_eq_left (by omega)]
  have hstatus : (min n.toNat full.1.length < full.1.length) = (n.toNat < full.1.length) :=
    propext ⟨fun h => by omega, fun h => by omega⟩
  simp only [exec, execExportDone, he, hl, ← hfull, ← hr', hstatus]
  exact if_neg (by simpa [Reaches] using hreach)

/-! #### The headers that a format writes

The fold that lays the members out reads each drive's length as it goes; no step of it changes one. -/

/-- The length of the drive in slot k, 0 where there is none. -/
def driveLen (s : State) (k : Nat) : Nat := ((tget s.pool.drives k).getD {}).slots

/-- In t as many pools have been formatted as in s, and the drives in the slots l are as long. -/
def SameDrives (l : List Nat) (s t : State) : Prop :=
  t.pool.formats = s.pool.formats ∧ ∀ k ∈ l, driveLen t k = driveLen s k

theorem headerOf_sameDrives {l : List Nat} {s t : State} {gib k : Nat} (h : SameDrives l s t) (hk : k ∈ l) :
    headerOf t l gib k = headerOf s l gib k := by
  have hlen : ((tget t.pool.drives k).getD {}).slots = ((tget s.pool.drives k).getD {}).slots := h.2 k hk
  simp only [headerOf, h.1, hlen]

theorem sameDrives_driveMod {l : List Nat} {s t : State} {k : Nat} {f : Drive → Drive} (hf : ∀ x, (f x).slots = x.slots)
    (h : SameDrives l s t) : SameDrives l s (driveMod k f t) := by
  refine ⟨h.1, fun q hq => Eq.trans ?_ (h.2 q hq)⟩
  show ((tget (tmod t.pool.drives k f) q).getD {}).slots = ((tget t.pool.drives q).getD {}).slots
  rw [tget_tmod]
  split
  · cases tget t.pool.drives q with
    | none => rfl
    | some x => exact hf x
  · rfl

theorem postNtf_pool (p type : Nat) (data : List Word) (s : State) : (postNtf p type data s).pool = s.pool := by
  obtain ⟨⟨_, _, _, _, h⟩, -⟩ := onPage_postNtf p type data s
  rw [h]

theorem sameDrives_postNtf {l : List Nat} {s t : State} {p type : Nat} {data : List Word} (h : SameDrives l s t) :
    SameDrives l s (postNtf p type data t) := by
  simpa only [SameDrives, driveLen, postNtf_pool] using h

theorem sameDrives_driveState {l : List Nat} {s t : State} {k st : Nat} (h : SameDrives l s t) :
    SameDrives l s (driveState k st t) := by
  unfold driveState
  split
  · exact h
  · split
    · exact h
    · exact sameDrives_postNtf (sameDrives_driveMod (fun _ => rfl) h)

theorem tget_tdel_ne {α : Type} (t : Tbl α) {k q : Nat} (h : q ≠ k) : tget (tdel t k) q = tget t q := by
  induction t with
  | nil => rfl
  | cons e t ih =>
    obtain ⟨j, b⟩ := e
    by_cases hj : j = k
    · simpa [tdel, tget, hj, h.symm] using ih
    · by_cases hq : j = q
      · simp [tdel, tget, hq, h]
      · simpa [tdel, tget, hj, hq] using ih

theorem sameDrives_tdel {l : List Nat} {s t : State} {k : Nat} (hk : k ∉ l) (h : SameDrives l s t) (u : State) :
    SameDrives l s (setPool { t.pool with drives := tdel t.pool.drives k } u) := by
  refine ⟨h.1, fun q hq => Eq.trans ?_ (h.2 q hq)⟩
  show ((tget (tdel t.pool.drives k) q).getD {}).slots = ((tget t.pool.drives q).getD {}).slots
  rw [tget_tdel_ne _ (show q ≠ k from fun e => hk (by rwa [← e]))]

/-- The members that the new pool leaves out are none of its own. -/
theorem sameDrives_foreigners {l : List Nat} {s t : State} (h : SameDrives l s t) : SameDrives l s (foreigners l s t) := by
  unfold foreigners
  refine List.foldlRecOn (motive := SameDrives l s) _ _ h fun u hu k hk => ?_
  have hkl : k ∉ l := by
    obtain ⟨e, he, rfl⟩ := List.mem_map.mp hk
    have := (List.mem_filter.mp he).2
    simp only [Bool.and_eq_true, Bool.not_eq_true', decide_eq_false_iff_not] at this
    exact this.2
  dsimp only
  split
  · exact sameDrives_tdel hkl hu _
  · exact sameDrives_driveState hu

/-- The members with their headers, each read as it is written. -/
theorem membered_eq {l : List Nat} {gib : Nat} {s t : State} (h : SameDrives l s t) : membered l gib s t =
    l.foldl (fun t k => driveState k (if k ∈ l.filter (driveHere s) then 3 else 5) (driveMod k (fun x => { x with
      member := l.idxOf k, firstSeg := segArea x.slots gib l.length, segs := x.slots - segArea x.slots gib l.length
      used := [], header := some (headerOf t l gib k) }) t)) t := by
  have step : ∀ (xs : List Nat) (t : State), (∀ k ∈ xs, k ∈ l) → SameDrives l s t →
      xs.foldl (fun t k => driveState k (if driveHere s k then 3 else 5) (driveMod k (fun x => { x with
        member := l.idxOf k, firstSeg := segArea x.slots gib l.length, segs := x.slots - segArea x.slots gib l.length
        used := [], header := some (headerOf s l gib k) }) t)) t =
      xs.foldl (fun t k => driveState k (if k ∈ l.filter (driveHere s) then 3 else 5) (driveMod k (fun x => { x with
        member := l.idxOf k, firstSeg := segArea x.slots gib l.length, segs := x.slots - segArea x.slots gib l.length
        used := [], header := some (headerOf t l gib k) }) t)) t := by
    intro xs
    induction xs with
    | nil => exact fun _ _ _ => rfl
    | cons k xs ih =>
      intro t hxs ht
      have hk : k ∈ l := hxs k List.mem_cons_self
      simp only [List.foldl_cons, headerOf_sameDrives ht hk, List.mem_filter, hk, true_and]
      simp only [List.mem_filter] at ih
      exact ih _ (fun q hq => hxs q (List.mem_cons_of_mem k hq))
        (sameDrives_driveState (sameDrives_driveMod (fun _ => rfl) ht))
  exact step l t (fun _ hk => hk) h

/-- The end of a format mounts the pool that it has laid out (R328). -/
theorem poolDone_formatted {l : List Nat} {gib : Nat} {s t : State} (h : s.pool.formatting = some (l, gib))
    (ht : t = membered l gib s (foreigners l s (emptied l gib s))) :
    exec .poolDone s = .next (slotWaiting (postNtf 0 0x0D01 [word (((l.filter (driveHere s)).map (fun k =>
      ((tget t.pool.drives k).getD {}).segs)).sum), word t.pool.tier2] t)) := by
  rw [membered_eq (sameDrives_foreigners (s := s) (t := emptied l gib s) ⟨rfl, fun _ _ => rfl⟩)] at ht
  simp only [exec, execPoolDone, h]
  rw [ht]
  rfl

/-- Settles O53: each event of the pool by the branch that its hypotheses select. -/
theorem poolEvents : Obligations.PoolEvents := by
  refine ⟨fun s h => ?_, fun l gib s t h ht => ?_, fun n err s h => ?_,
    fun n e unit first a want l full r s he hl hfull hr hreach => exportDone_reached he hl hfull hr hreach,
    fun h n clip x s hx hb => ?_, fun h n clip cut x ps s t hx hb hcut hps ht => ?_,
    fun r d s hh => ⟨?_, ?_⟩, fun k ok s h => ?_, fun k op t0 s t hop ht => ⟨?_, fun hne => ?_, fun heq => ?_⟩,
    fun k o s ho hk hlate hread => ?_, fun k s h => ?_, fun k x s t hx hst hat ht => ⟨?_, ?_⟩,
    fun r w s h => ?_, fun r s t hh hat ht => ⟨?_, ?_⟩, fun h s hr => ⟨?_, ?_⟩, fun h x g s hx hg hb hat => ?_,
    fun h x t s hx he ht => ?_, fun s h => ?_, fun r t s hq hv => ?_, fun r t s hq ht he => ?_⟩
  · simp only [exec, execPoolDone, h]
  · exact poolDone_formatted h ht
  · simp only [exec, execExportDone, h]
  · simp only [exec, execEncodeFrameDone, hx]
    exact if_pos hb
  · rw [ht, hps, hcut]
    simp only [exec, execEncodeFrameDone, hx, hb, Bool.true_eq_false, if_false]
    refine congrArg Host.Outcome.next (List.foldl_ext _ _ _ fun u p _ => ?_)
    cases tget u.eth.entries x.entry <;> rfl
  · simp only [exec, execDrivePresenceChange, awake_live hh, if_true]
  · simp only [exec, execDrivePresenceChange, awake_live hh, Bool.false_eq_true, if_false]
  · simp only [exec, execNvmeCompletion, h]
  · simp only [exec, execNvmeCompletion, hop, if_true, ht]
  · simp only [exec, execNvmeCompletion, hop, Bool.false_eq_true, if_false, if_neg hne, ht]
  · simp only [exec, execNvmeCompletion, hop, Bool.false_eq_true, if_false, if_pos heq, ht]
  · have hany : (s.pool.ops.any fun o => decide (o.1 = k.val) && opLate s o.2.1 o.2.2) = true :=
      List.any_eq_true.mpr ⟨o, ho, by simp [hk, hlate]⟩
    exact if_neg (by simp [hany, hread])
  · have hany : (s.pool.ops.any fun o => decide (o.1 = k.val) && opLate s o.2.1 o.2.2) = false :=
      List.any_eq_false.mpr fun o ho => by simp [h o ho]
    exact if_pos (.inl (by simp [hany]))
  · simp only [exec, execStallHeaderRetry, hx]
    rw [if_neg (by omega), ← ht, if_pos trivial]
  · simp only [exec, execStallHeaderRetry, hx]
    rw [if_neg (by omega), ← ht, if_neg (by simp)]
  · exact if_pos (by simp [h])
  · simp only [exec, execSmartPoll, hh]
    rw [if_neg (by simp; omega), if_pos trivial, ht]
  · simp only [exec, execSmartPoll, hh]
    rw [if_neg (by simp; omega), if_neg (by simp), ht]
  · simp only [exec, execSegmentTimeLimit, hr]
  · simp only [exec, execPostrollExpiry, hr, Option.bind_none]
  · simp only [exec, execSegmentTimeLimit, hx, hg]
    exact if_pos ⟨by simp [hb], hat⟩
  · simp only [exec, execPostrollExpiry, hx, Option.bind_some, he]
    exact if_pos ht
  · simp only [exec, execManifestSigned, h]
  · simp only [exec, execManifestSigned, hq]
    refine if_neg ?_
    rcases hv with h | h <;> simp [h]
  · simp only [exec, execManifestSigned, hq]
    exact if_pos ⟨ht, by simp [he]⟩

end Sys2Proof.Proofs
end

section
/-! Proofs of the statements about the key vault (chapter 15). -/

namespace Sys2Proof.Proofs

open Sys2Proof Sys2Proof.Machine Sys2Proof.Safety Sys2Proof.Laws

/-! ### The key commands -/

/-- A key that the issuer may name, in a vault that has passed its tests. -/
theorem withKey_has {c : Ctx} {s : State} {p0 : Bool} {i : Nat} {x : KeySlot} {k : Nat → KeySlot → CmdOut}
    (h : HasKey c s p0 i x) : withKey c s p0 k = k i x := by
  obtain ⟨hname, hown, hkey, htest⟩ := h
  exact (withKey_named hname hown hkey).trans (tested_good htest)

theorem tested_bad {s : State} {k : CmdOut} (h : s.vault.selfTest = false) : tested s k = refuse .state := by
  simp [tested, h]

/-- GENERATE_KEY of a type under a policy that suits it, with a slot that is free (R347). -/
theorem generateKey_fits {c : Ctx} {s : State} {k : Nat} (htest : s.vault.selfTest = true)
    (htype : bf c 0 1 0 = 1 ∧ (bf c 0 6 4 = 1 ∨ bf c 0 6 4 = 2) ∨ bf c 0 1 0 = 2 ∧ bf c 0 6 4 = 4)
    (hent : s.vault.entropy = true)
    (hk : (List.range 1024).find? (fun k => (slotGet s k).key.isNone && !(slotGet s k).retired) = some k)
    (hquota : quotaUse s c.page 11 < quotaOf s c.page 11) :
    cmdGenerateKey c s = .done .ok [word (keyHandle k (madeKey c k s)), word k]
      (slotPut k { madeKey c k s with statement := statementOf s k (madeKey c k s) s.vault.nextKey }
        (setVault { s.vault with nextKey := s.vault.nextKey + 1 } { s with free := s.free + 1 })) := by
  have hrange : ¬(bf c 0 1 0 = 0 ∨ bf c 0 1 0 = 3 ∨ bf c 0 6 4 = 0) := by omega
  have hagree : ¬((bf c 0 1 0 = 1 ∧ bf c 0 6 4 ≠ 1 ∧ bf c 0 6 4 ≠ 2) ∨ (bf c 0 1 0 = 2 ∧ bf c 0 6 4 ≠ 4)) := by omega
  refine (tested_good htest).trans ?_
  dsimp only
  rw [if_neg hrange, if_neg hagree, if_neg (by simp [hent]), hk]
  exact if_neg (Nat.not_le.mpr hquota)

/-- What CRYPT_DATA writes where its transfer reaches the host. -/
theorem cryptWrite_reached {s : State} {a : Nat} {bs : List Byte} (h : Reaches s a bs.length) :
    (if dmaReach s a bs.length < bs.length then
      CmdOut.done .hostDma [] { s with
        hostMem := memWrite 0 s.hostMem a (bs.take (Config.freeNat s.free % (dmaReach s a bs.length + 1))), free := s.free + 1 }
      else .done .ok [word bs.length] { s with hostMem := memWrite 0 s.hostMem a bs })
      = .done .ok [word bs.length] (wrote a bs s) :=
  if_neg (Nat.not_lt.mpr h)

/-- CRYPT_DATA seals the block under the key's next nonce (R351, R354). -/
theorem cryptData_seals {c : Ctx} {s : State} {i : Nat} {x : KeySlot} {data : List Byte} (hk : HasKey c s false i x)
    (hdir : bb c 1 0 = false) (hmin : 1 ≤ bn c 4) (hmax : bn c 4 ≤ 65536) (haddr : bn64 c 5 % 4 = 0)
    (hpol : tb x.policy 2 = true) (hopen : sealed s x = false) (hseals : x.seals < 2 ^ 32)
    (hread : hostRead s (bn64 c 2) (bn c 4) = some data)
    (hreach : Reaches (slotPut i { x with seals := x.seals + 1 } s) (bn64 c 5) (sealedBytes (bn c 0) x data (bn c 4)).length) :
    cmdCryptData c s = .done .ok [word (sealedBytes (bn c 0) x data (bn c 4)).length]
      (wrote (bn64 c 5) (sealedBytes (bn c 0) x data (bn c 4)) (slotPut i { x with seals := x.seals + 1 } s)) := by
  refine (withKey_has hk).trans ?_
  simp only [hdir, Bool.false_eq_true, if_false, Bool.not_false, if_true, hread]
  rw [if_neg (by omega), if_neg (by simp [hpol, hopen]; omega)]
  exact cryptWrite_reached hreach

/-- CRYPT_DATA of a block to open, whose address and length are in range: the tag decides (R351, R354). -/
theorem cryptData_opens {c : Ctx} {s : State} {i : Nat} {x : KeySlot} {data : List Byte} (hk : HasKey c s false i x)
    (hdir : bb c 1 0 = true) (hmin : 29 ≤ bn c 4) (hmax : bn c 4 ≤ 65564) (haddr : bn64 c 5 % 4 = 0)
    (hpol : tb x.policy 2 = true) (hopen : sealed s x = false)
    (hread : hostRead s (bn64 c 2) (bn c 4) = some data)
    (hreach : tagGood (bn c 0) x data (bn c 4) = true → Reaches s (bn64 c 5) (openedBytes (bn c 0) x data (bn c 4)).length) :
    cmdCryptData c s = if tagGood (bn c 0) x data (bn c 4) = true then
        .done .ok [word (openedBytes (bn c 0) x data (bn c 4)).length]
          (wrote (bn64 c 5) (openedBytes (bn c 0) x data (bn c 4)) s)
      else .done .inconsistent [] (unsealFail s) := by
  refine (withKey_has hk).trans ?_
  simp only [hdir, if_true, Bool.not_true, Bool.false_eq_true, if_false, hread, false_and, or_false]
  rw [if_neg (by omega), if_neg (by simp [hpol, hopen])]
  by_cases htag : tagGood (bn c 0) x data (bn c 4) = true
  · rw [if_pos htag]
    refine (if_neg (not_not.mpr (of_decide_eq_true htag))).trans ?_
    exact cryptWrite_reached (hreach htag)
  · rw [if_neg htag]
    exact if_pos fun h => htag (decide_eq_true h)

/-- Settles O54, row by row: the known-answer tests and the key's own checks, then each section's transfer. -/
theorem vaultRows : Obligations.VaultRows := by
  refine ⟨fun k => row_of_run (issues fun _ _ _ => rfl) fun c s ⟨htest, htype, hent, hk, hquota⟩ =>
      generateKey_fits htest htype hent hk hquota,
    rowRefuses_of_run (issues fun _ _ _ => rfl) fun c s h => tested_bad h,
    rowRefuses_of_run (issues fun _ _ _ => rfl) fun c s h => tested_bad h,
    rowRefuses_of_run (issues fun _ _ _ => rfl) fun c s h => tested_bad h,
    fun i x => row_of_run (issues fun _ _ _ => rfl) fun c s ⟨hk, hp⟩ =>
      (withKey_has hk).trans (if_neg (by simp [hp])),
    fun i x => rowWaits_of_run (issues fun _ _ _ => rfl) fun c s ⟨hk, hp⟩ => (withKey_has hk).trans (if_pos hp),
    fun i x => row_of_run (issues fun _ _ _ => rfl) fun c s ⟨hk, haddr, hopen, hreach⟩ => ?_,
    row_of_run (issues fun _ _ _ => rfl) fun c s ⟨htest, haddr, hreach⟩ => ?_,
    fun i x => rowWaits_of_run (issues fun _ _ _ => rfl) fun c s ⟨hk, hlen, haddr, hpol, hopen, hent, hroom⟩ => ?_,
    fun i x data => row_of_run (issues fun _ _ _ => rfl)
      fun c s ⟨hk, hdir, hmin, hmax, haddr, hpol, hopen, hseals, hread, hreach⟩ =>
        cryptData_seals hk hdir hmin hmax haddr hpol hopen hseals hread hreach,
    fun i x data => row_of_run (issues fun _ _ _ => rfl)
      fun c s ⟨hk, hdir, hmin, hmax, haddr, hpol, hopen, hread, htag, hreach⟩ =>
        (cryptData_opens hk hdir hmin hmax haddr hpol hopen hread fun _ => hreach).trans (if_pos htag),
    fun i x data => row_of_run (issues fun _ _ _ => rfl)
      fun c s ⟨hk, hdir, hmin, hmax, haddr, hpol, hopen, hread, htag⟩ =>
        (cryptData_opens hk hdir hmin hmax haddr hpol hopen hread fun h => by simp [htag] at h).trans
          (if_neg (by simp [htag])),
    row_of_run (issues fun _ _ _ => rfl) fun c s h => tested_good h,
    fun healthy s hh => congrArg Host.Outcome.next (awake_live hh _), fun s h => ?_,
    fun e i a dig bs s he hw hq hent hreach hbs => ?_, fun e i a dig s he hw h => ?_⟩
  · refine (withKey_has hk).trans ((if_neg (not_not.mpr haddr)).trans ((if_neg (by simp [hopen])).trans ?_))
    exact hostWrite_reached hreach
  · exact (tested_good htest).trans ((if_neg (not_not.mpr haddr)).trans (hostWrite_reached hreach))
  · refine (withKey_has hk).trans ?_
    rw [if_neg (not_not.mpr hlen), if_neg (not_not.mpr haddr), if_neg (by simp [hpol, hopen, hent]),
      if_neg (Nat.not_le.mpr hroom)]
  · simp only [exec, execDigestSigned, h]
  · simp only [exec, execDigestSigned, he, hw]
    rw [if_neg (by simp [hq, hent]), if_neg (Nat.not_lt.mpr hreach), hbs]
    rfl
  · simp only [exec, execDigestSigned, he, hw]
    refine if_pos (h.imp (fun h => ?_) fun h => by simp [h])
    simpa using h

end Sys2Proof.Proofs
end

section
/-! Proofs of the statements about Domino groups (chapter 16). -/

namespace Sys2Proof.Proofs

open Sys2Proof Sys2Proof.Machine Sys2Proof.Safety Sys2Proof.Laws

/-! ### The commands -/

/-- SET_DOMINO of a group that fits, on ports in Domino mode, with nothing exported or imported (R358). -/
theorem setDomino_fits {c : Ctx} {s : State} (hfit : GroupFits c) (hmode : ∀ p ∈ usedPorts c, (portGet s p).mode = 2)
    (hexp : s.domino.exports = [])
    (himp : ∀ e ∈ s.sources, e.2.deleted = false → ∀ o x r, e.2.kind ≠ .imported o x r) :
    cmdSetDomino c s = .done .ok [] (setDomino { (enterDomino (if bf c 0 4 2 = 0 then 0 else 1) none
        (setDomino (askedGroup c s.domino) s)).domino with since := now s }
      (enterDomino (if bf c 0 4 2 = 0 then 0 else 1) none (setDomino (askedGroup c s.domino) s))) := by
  obtain ⟨hgroup, hunused, hdistinct⟩ := hfit
  have hrange : ¬(bf c 0 4 2 = 1 ∨ 4 < bf c 0 4 2 ∨
      (bf c 0 4 2 ≠ 0 ∧ (bf c 0 4 2 ≤ bf c 0 1 0 ∨ bf c 0 11 8 = 0))) := by
    omega
  have hagree : ¬((bf c 0 4 2 = 0 ∧ (bf c 0 1 0 ≠ 0 ∨ bf c 0 11 8 ≠ 0)) ∨
      ((List.range 4).any (fun r => !tb (bf c 0 11 8) r && decide ((askedPorts c).getD r 0 ≠ 0))) = true ∨
      (usedPorts c).dedup ≠ usedPorts c) := by
    rintro (h | h | h)
    · omega
    · obtain ⟨r, hr, hbad⟩ := List.any_eq_true.mp h
      simp only [Bool.and_eq_true, Bool.not_eq_true', decide_eq_true_eq] at hbad
      exact hbad.2 (hunused r (List.mem_range.mp hr) hbad.1)
    · exact h hdistinct
  have hbusy : ¬(((usedPorts c).any fun p => decide ((portGet s p).mode ≠ 2)) = true ∨ (!s.domino.exports.isEmpty) = true ∨
      (s.sources.any fun e => !e.2.deleted && (match e.2.kind with
        | .imported _ _ _ => true
        | _ => false)) = true) := by
    rintro (h | h | h)
    · obtain ⟨p, hp, hbad⟩ := List.any_eq_true.mp h
      exact absurd (hmode p hp) (by simpa using hbad)
    · simp [hexp] at h
    · obtain ⟨e, he, hbad⟩ := List.any_eq_true.mp h
      simp only [Bool.and_eq_true, Bool.not_eq_true'] at hbad
      obtain ⟨hlive, hkind⟩ := hbad
      split at hkind
      next o x r hk => exact himp e he hlive o x r hk
      next => simp at hkind
  exact (if_neg hrange).trans ((if_neg hagree).trans (if_neg hbusy))

theorem chooseIc_lt {s : State} {f : Format} {u : Nat} (h : chooseIc s f = some u) : u < 8 := by
  unfold chooseIc at h
  dsimp only at h
  split at h
  next v hv =>
    have := List.mem_range.mp (List.mem_of_mem_filter (List.mem_of_find?_eq_some hv))
    simp only [Option.some.injEq] at h
    omega
  next =>
    refine List.foldlRecOn (motive := fun b => b = some u → u < 8) _ _ (by simp) (fun b hb v hv => ?_) h
    have hv8 := List.mem_range.mp (List.mem_of_mem_filter hv)
    split
    · intro hs
      simp only [Option.some.injEq] at hs
      omega
    · split
      · intro hs
        simp only [Option.some.injEq] at hs
        omega
      · exact hb

/-- A stream that some limit cannot take is refused with the words of the need (R48). -/
theorem createStream_short {c : Ctx} {k : SrcKind} {f : Format} {u : Nat} {n : Need} {s : State}
    (hquota : quotaUse s c.page 4 < quotaOf s c.page 4)
    (hu : if f.ic = 15 then chooseIc s f = some u else icStreams s f.ic < 32 ∧ u = f.ic)
    (hobj : (makeSource c.page k f u s).2.objects.length ≤ 262144)
    (hshort : shortfall s (makeSource c.page k f u s).2 = some n) :
    createStream c k f s = .fail .admission (shortWords (spareOf s (makeSource c.page k f u s).2 n) 0) := by
  have hunit : (if f.ic = 15 then chooseIc s f else if icStreams s f.ic < 32 then some f.ic else none) = some u := by
    split at hu
    next h => rw [if_pos h, hu]
    next h => rw [if_neg h, if_pos hu.1, hu.2]
  unfold createStream
  rw [if_neg (Nat.not_le.mpr hquota)]
  dsimp only
  rw [hunit]
  dsimp only
  rw [if_neg (Nat.not_lt.mpr hobj), admitted, hshort]

theorem importFmt_ic (o x ic ring : Nat) : (importFmt o x ic ring).ic = ic := by
  unfold importFmt
  dsimp only
  split <;> rfl

/-- An import from another member of a formed group goes on to the admission of its stream. -/
theorem createImport_reaches {c : Ctx} {s : State} (hmin : 2 ≤ importDepth c) (hmax : importDepth c ≤ 16)
    (hic : bf c 1 15 12 < 8 ∨ 14 < bf c 1 15 12) (hcount : s.domino.count ≠ 0) (hst : s.domino.state ≠ 1)
    (ho : bf c 0 1 0 < s.domino.count) (hself : bf c 0 1 0 ≠ s.domino.member) (hring : bf c 0 17 16 ∈ ringsOf s.domino)
    (hdep : dependsOn s (bf c 0 1 0) = false) (hdiv : s.domino.divergent.getLsbD 3 = false) :
    cmdCreateImport c s = match createStream c (.imported (bf c 0 1 0) (bf c 0 13 8) (bf c 0 17 16))
        (importFmt (bf c 0 1 0) (bf c 0 13 8) (bf c 1 15 12) (importDepth c)) s with
      | .fail st res => .fail st res
      | .done _ res _ =>
        .wait (.importReq (request c.page (bf c 0 1 0) 1 (bf c 0 13 8) (bf c 0 17 16) s).1 (bf c 0 1 0) (bf c 0 13 8)
          (bf c 0 17 16) { importFmt (bf c 0 1 0) (bf c 0 13 8) (bf c 1 15 12) (importDepth c) with ic := (wd res 1).toNat })
          (request c.page (bf c 0 1 0) 1 (bf c 0 13 8) (bf c 0 17 16) s).2
      | .wait w s1 => .wait w s1
      | .dma s1 => .dma s1 := by
  have hrange : ¬(importDepth c < 2 ∨ 16 < importDepth c ∨ (8 ≤ bf c 1 15 12 ∧ bf c 1 15 12 ≤ 14)) := by omega
  refine (if_neg hrange).trans ((if_neg (by simp [hcount, hst])).trans ((if_neg (Nat.not_le.mpr ho)).trans
    ((if_neg (by simp [hself, hring])).trans ((if_neg (by rw [hdep, hdiv]; decide)).trans ?_))))
  rfl

/-- Settles O55, row by row: the group's state, then the section's own guards. -/
theorem dominoCommands : Obligations.DominoCommands := by
  refine ⟨fun t => row_of_run (issues fun _ _ _ => rfl) fun c s ⟨hfit, hmode, hexp, himp, ht⟩ => ?_,
    row_of_run (issues fun _ _ _ => rfl) fun c s h => if_pos h,
    row_of_run (issues fun _ _ _ => rfl) fun c s h => if_neg (not_not.mpr h),
    fun x => row_of_run (issues fun _ _ _ => rfl) fun c s ⟨hx, hkind, hcount, hdiv, hfree⟩ => ?_,
    fun e => row_of_run (issues fun _ _ _ => rfl) fun c s ⟨he, hown⟩ => ?_,
    fun f u => rowWaits_of_run (issues fun _ _ _ => rfl)
      fun c s ⟨hmin, hmax, hic, hcount, hst, ho, hself, hring, hdep, hdiv, hf, hfits⟩ => ?_,
    fun f u n => rowFails_of_run (issues fun _ _ _ => rfl)
      fun c s ⟨hmin, hmax, hic, hcount, hst, ho, hself, hring, hdep, hdiv, hf, hquota, hu, hobj, hshort⟩ => ?_,
    rowWaits_of_run (issues fun _ _ _ => rfl) fun c s ⟨hissued, hdiv, hdiv3⟩ => ?_,
    rowRefuses_of_run (issues fun _ _ _ => rfl) fun c s h => if_pos h⟩
  · rw [ht]
    exact setDomino_fits hfit hmode hexp himp
  · refine (withOwnSource_owns hx).trans ?_
    dsimp only
    rw [if_neg (by simp [hkind]), if_neg hcount, if_neg (by simp [hdiv]), if_neg (by simp [hfree])]
    rfl
  · show cmdDeleteExport c s = _
    simp only [cmdDeleteExport, he]
    exact if_neg fun h => hown.elim h.1 h.2
  · refine (createImport_reaches hmin hmax hic hcount hst ho hself hring hdep hdiv).trans ?_
    have hu32 : (word u).toNat = u := by
      have hu16 : u < 16 := by
        obtain ⟨-, hu, -, -⟩ := hfits
        split at hu
        next => exact (chooseIc_lt hu).trans (by decide)
        next =>
          rw [hu.2, hf, importFmt_ic]
          exact Nat.mod_lt _ (by decide)
      simp only [word, BitVec.toNat_ofNat]
      omega
    rw [← hf, createStream_fits hfits]
    show CmdOut.wait (.importReq _ _ _ _ { f with ic := (word u).toNat }) _ = _
    rw [hu32]
  · refine (createImport_reaches hmin hmax hic hcount hst ho hself hring hdep hdiv).trans ?_
    rw [← hf, createStream_short hquota hu hobj hshort]
  · exact (if_neg (not_not.mpr hissued)).trans (if_neg (by rw [hdiv, hdiv3]; decide))

/-! ### The group's frames -/

/-- The comparison of records leaves the member's place in the group. -/
@[simp] theorem nextFrame_member (s : State) : (nextFrame s).member = s.domino.member := by
  unfold nextFrame
  dsimp only
  split
  · rfl
  · split <;> rfl

/-- Once what is due has been sent, the group frame begins. -/
theorem groupFrameStart_due {s t : State} (ht : openDue s = t) (hcount : t.domino.count ≠ 0) :
    exec .groupFrameStart s
      = .next (setDomino { nextFrame t with lost := 0, opensAt := some (now t + 25 * t.domino.member + 1) } t) := by
  subst ht
  simp only [exec, execGroupFrameStart]
  rw [if_neg hcount]
  by_cases hm : (openDue s).domino.member = 0
  · simp only [nextFrame, hm, if_true]
  · rcases hl : tget (openDue s).domino.heard 0 with _ | l
    · simp only [nextFrame, hm, hl, if_false]
    · simp only [nextFrame, hm, hl, if_false]

theorem openDue_waits {s : State} (h : ∀ q, s.domino.opensAt = some q → now s < q) : openDue s = s := by
  unfold openDue
  split
  next q hq => exact if_neg (Nat.not_le.mpr (h q hq))
  next => rfl

theorem openDue_opens {s : State} {q : Nat} (h : s.domino.opensAt = some q) (hq : q ≤ now s) : openDue s = openWindow s := by
  unfold openDue
  rw [h]
  exact if_pos hq

/-- A member that originates nothing only takes note that its window has opened (R365). -/
theorem openWindow_silent {s : State} (h : s.domino.count = 0 ∨ s.domino.state = 0 ∨ s.domino.state = 3) :
    openWindow s = setDomino { s.domino with
      opensAt := none, beaconAt := if s.domino.member = 0 then now s else s.domino.beaconAt } s := if_pos h

/-- On the rings that are up the window carries the member's own blocks, then what waits as far as it fits (R361). -/
theorem openWindow_sends {s : State} {room : Nat} {ups : List Nat} (hcount : s.domino.count ≠ 0) (h0 : s.domino.state ≠ 0)
    (h3 : s.domino.state ≠ 3) (hups : ups = (ringsOf s.domino).filter (ringUp s)) (hne : ups ≠ [])
    (hroom : room = (if s.domino.state = 4 then 0 else (ups.map (windowBlocks s)).foldl min s.domino.waiting.length)) :
    openWindow s = (windowFirst s ++ s.domino.waiting.take room).foldl (fun t b => ups.foldl (fun t r => sendRing r b t) t)
      (setDomino { s.domino with
        opensAt := none, beaconAt := if s.domino.member = 0 then now s else s.domino.beaconAt
        viewSent := bits (recWord (ownRecord16 s) 0) 31 20, waiting := s.domino.waiting.drop room } s) := by
  have hempty : ¬ups.isEmpty = true := by simpa using hne
  unfold openWindow
  dsimp only
  rw [if_neg (by simp [hcount, h0, h3]), ← hups, ← hroom, if_neg hempty]
  rfl

/-! ### Control blocks and timers -/

/-- Settles O56: the frame start, then each block past the checks of its ring, then the timers. -/
theorem dominoEvents : Obligations.DominoEvents := by
  refine ⟨fun s hcount ho => ?_, fun s hcount ho => groupFrameStart_due (openDue_waits ho) hcount,
    fun q s t hopen hq hcount hst ht => ?_, fun q room ups s t hopen hq hcount h0 h3 hups hne hroom ht htc => ?_,
    fun r b d s hr => ⟨?_, ?_, ?_, ?_, ?_⟩, fun r b d s t hh hm ht => ?_, fun r b d s t u hh hm hu ht => ?_,
    fun r b d s hh hself h0 hlt hlost => ⟨fun hd hact => ?_, fun hd => ?_, fun hd hd' hact => ?_⟩,
    fun r b s hh => congrArg Host.Outcome.next (withDomino_hears hh),
    fun r b s hh => congrArg Host.Outcome.next (withDomino_hears hh),
    fun r b s hh => congrArg Host.Outcome.next (withDomino_hears hh),
    fun s h => ?_, fun e n o x r f s he hw => ?_, fun e n o s he hw => ?_, fun h x o k r s hx hk => ⟨fun ht => ?_, fun ht => ?_⟩,
    fun h s hx => ?_, fun m k r old s hold => ?_, fun s hst ht => if_pos ⟨hst, ht⟩, fun s h2 h3 => ?_,
    fun n s hst ht hshort => ?_, fun n s hst hm hlong => ?_, fun n s hst => ?_,
    fun a s t ha ht => ⟨fun hne => ?_, fun heq hd hag => ?_, fun heq hd => ?_⟩⟩
  · have hdue : openDue s = s := openDue_waits fun q hq => by simp [ho] at hq
    simp only [exec, execGroupFrameStart]
    rw [hdue, if_pos hcount]
  · have hwin : openDue s = t := (openDue_opens hopen hq).trans ((openWindow_silent (.inr hst)).trans ht.symm)
    subst ht
    exact groupFrameStart_due hwin hcount
  · have hwin : openDue s = t :=
      (openDue_opens hopen hq).trans ((openWindow_sends hcount h0 h3 hups hne hroom).trans ht.symm)
    rw [nextFrame_member]
    exact groupFrameStart_due hwin htc
  · exact congrArg Host.Outcome.next (if_pos hr)
  · exact congrArg Host.Outcome.next (if_pos hr)
  · exact congrArg Host.Outcome.next (if_pos hr)
  · exact congrArg Host.Outcome.next (if_pos hr)
  · exact congrArg Host.Outcome.next (if_pos hr)
  · refine congrArg Host.Outcome.next ((withDomino_hears hh).trans ((if_neg hm).trans ?_))
    rw [ht]
  · refine congrArg Host.Outcome.next ((withDomino_hears hh).trans ((if_pos hm).trans ?_))
    rw [ht, hu]
    rfl
  · refine congrArg Host.Outcome.next ((withDomino_hears hh).trans ((if_neg (by omega)).trans ((if_pos ⟨hd, hact⟩).trans ?_)))
    exact if_neg (by simp [hlost])
  · refine congrArg Host.Outcome.next ((withDomino_hears hh).trans ((if_neg (by omega)).trans ((if_neg (by omega)).trans ?_)))
    refine (if_neg (by simp [hself, hlost])).trans ?_
    have hsmall : ¬500 < d.natAbs := by omega
    simp only [if_neg hsmall, ite_self]
  · refine congrArg Host.Outcome.next ((withDomino_hears hh).trans ((if_neg (by omega)).trans ((if_neg (by omega)).trans ?_)))
    refine (if_neg (by simp [hself, hlost])).trans ((if_pos ⟨hact, hlt⟩).trans (if_pos hd))
  · simp only [exec, execImportRequestTimeout, h]
  · simp only [exec, execImportRequestTimeout, he, hw, Bool.or_eq_true, decide_eq_true_eq, Bool.not_eq_true']
  · simp only [exec, execImportRequestTimeout, he, hw, Bool.or_eq_true, decide_eq_true_eq, Bool.not_eq_true',
      List.all_eq_true]
  · simp only [exec, execSubscriptionRenew, hx, hk]
    exact if_pos ht
  · simp only [exec, execSubscriptionRenew, hx, hk]
    exact if_neg (Nat.not_lt.mpr ht)
  · simp only [exec, execSubscriptionRenew, hx]
  · obtain rfl : old = fun u : Sub => decide (u.member = m.val ∧ u.xport = k.val ∧ u.ring = r.val ∧ u.renewed + 3000000 ≤ now s) :=
      funext hold
    by_cases h : s.domino.subs.any (fun u : Sub =>
        decide (u.member = m.val ∧ u.xport = k.val ∧ u.ring = r.val ∧ u.renewed + 3000000 ≤ now s)) = true
    · rw [if_pos h]
      exact if_neg (by simp only [h, Bool.not_true, Bool.false_eq_true, not_false_eq_true])
    · rw [if_neg h]
      exact if_pos (by simpa only [Bool.not_eq_true', Bool.not_eq_true] using h)
  · exact if_neg fun h => h.1.elim h2 h3
  · have hlong : (decide (s.domino.member = 0) &&
        (decide (96000 < n.toNat) || s.domino.loops.any (fun e => decide (96 < e.2)))) = false := by
      rcases hshort with h | ⟨hn, hl⟩
      · simp [h]
      · have hany : s.domino.loops.any (fun e => decide (96 < e.2)) = false :=
          List.any_eq_false.mpr fun e he => by simpa using hl e he
        rw [hany, decide_eq_false (Nat.not_lt.mpr hn), Bool.or_false, Bool.and_false]
    simp only [exec, execFormFail, hlong]
    exact if_pos ⟨hst, .inr ht⟩
  · have hlong' : (decide (s.domino.member = 0) &&
        (decide (96000 < n.toNat) || s.domino.loops.any (fun e => decide (96 < e.2)))) = true := by
      rw [decide_eq_true hm, Bool.true_and, Bool.or_eq_true]
      refine hlong.imp decide_eq_true fun ⟨e, he, hl⟩ => ?_
      exact List.any_eq_true.mpr ⟨e, he, decide_eq_true hl⟩
    simp only [exec, execFormFail, hlong']
    exact if_pos ⟨hst, .inl trivial⟩
  · exact if_neg fun h => hst h.1
  · rw [ht]
    simp only [exec, execDivergencePersist, ← ha]
    exact if_pos hne
  · simp only [exec, execDivergencePersist, ← ha]
    rw [if_neg (not_not.mpr heq), if_pos ⟨hd, hag⟩]
  · simp only [exec, execDivergencePersist, ← ha]
    rw [if_neg (not_not.mpr heq), if_neg (by rintro ⟨h1, h2⟩; exact hd.elim h1 fun h => by omega)]

end Sys2Proof.Proofs
end

section
/-! Proofs of the statements about the event block, and about what raises a source from outside it (chapter 17). -/

namespace Sys2Proof.Proofs

open Sys2Proof Sys2Proof.Machine Sys2Proof.Safety Sys2Proof.Laws

/-- A memory error and another cause of its cycle are raised in the order of their sources (R380). -/
theorem hbmEccUncorrected_rival {n : Fin 256} {k : Fin 16} {s : State} (hsub : (subsOf n.val).getLsbD k.val = true)
    (hlevel : isLevel n.val = false) (hne : n.val ≠ 246) :
    exec (.hbmEccUncorrected [(n, k)]) s = .next ((if n.val < 246 then [(n.val, k.val), (246, 0)]
      else [(246, 0), (n.val, k.val)]).foldl (fun s r => raise r.1 r.2 s) s) := by
  have hcause : ((subsOf n.val).getLsbD k.val && !isLevel n.val) = true := by rw [hsub, hlevel]; rfl
  have hdistinct : ((246, 0) :: [(n.val, k.val)] : List (Nat × Nat)).dedup = [(246, 0), (n.val, k.val)] :=
    List.Nodup.dedup (by simp [Ne.symm hne])
  have hsorted : sortBy causeLe [(246, 0), (n.val, k.val)] = if n.val < 246 then [(n.val, k.val), (246, 0)]
      else [(246, 0), (n.val, k.val)] := by
    by_cases h : n.val < 246
    · have : causeLe (246, 0) (n.val, k.val) = false := decide_eq_false (by simp; omega)
      rw [if_pos h]
      simp [sortBy, insertBy, this]
    · have : causeLe (246, 0) (n.val, k.val) = true := decide_eq_true (by simp; omega)
      rw [if_neg h]
      simp [sortBy, insertBy, this]
  simp only [exec, execHbmEccUncorrected, List.map_cons, List.map_nil, List.filter_cons, hcause, if_true, List.filter_nil,
    hdistinct, hsorted]

/-- A function whose page executes nothing has its pointers at 0 after its reset (R44). -/
theorem box_flrPage {p : Fin 16} {s : State} (h : s.exec = none ∨ ∃ e, s.exec = some e ∧ e.page ≠ p.val) :
    box (flrPage p.val s) p.val = { box s p.val with
      cmdHead := 0, cmdTail := 0, cplHead := 0, cplTail := 0, ntfHead := 0, ntfTail := 0 } := by
  have hpage : (s.exec.map (fun e => e.page)) ≠ some p.val := by
    rcases h with h | ⟨e, he, hp⟩
    · simp [h]
    · simpa [he] using hp
  rw [flrPage, if_neg hpage, zeroPointers, box_modBox, if_pos rfl]

/-- Settles O57: each command by its owner's and range checks, each event by the state it finds. -/
theorem faultRows : Obligations.FaultRows := by
  refine ⟨row_of_run (issues fun _ _ _ => rfl) fun c s h => if_neg ?_,
    rowRefuses_of_run (issues fun _ _ _ => rfl) fun c s h => if_pos h,
    fun l st => row_of_run (issues fun _ _ _ => rfl) fun c s ⟨hall, hl, hst⟩ => ?_,
    rowRefuses_of_run (issues fun _ _ _ => rfl) fun c s h => if_pos h,
    row_of_run (issues fun _ _ _ => rfl) fun c s h => ?_,
    rowRefuses_of_run (issues fun _ _ _ => rfl) fun c s h => if_pos h,
    row_of_run (issues fun _ _ _ => rfl) fun c s _ => rfl,
    row_of_run (issues fun _ _ _ => rfl) fun c s h => if_neg (by omega),
    rowRefuses_of_run (issues fun _ _ _ => rfl) fun c s h => if_pos h,
    row_of_run (issues fun _ _ _ => rfl) fun c s _ => rfl,
    row_of_run (issues fun _ _ _ => rfl) fun c s h => if_neg (Nat.not_lt.mpr h),
    rowRefuses_of_run (issues fun _ _ _ => rfl) fun c s h => if_pos h,
    fun i ms t s h => ⟨fun ht => ?_, fun ht => ?_⟩, fun s => ⟨?_, rfl⟩,
    fun n k s hsub hlevel => ⟨fun hlt => ?_, fun hgt => ?_⟩, fun s hf hq => ?_, fun r s h => ?_, fun r s h h' => ?_,
    fun n t s hr hf ht hfw => ?_, fun n s hf => ?_, fun s => ⟨rfl, rfl, rfl, rfl⟩, fun s hup => ⟨?_, ?_⟩,
    fun s hh hup => ⟨?_, ?_⟩, fun f s hh hf => ?_, fun s hh => ⟨?_, ?_⟩, fun p s h => box_flrPage h, fun p s => rfl,
    fun s hd ha => ⟨?_, ?_, ?_⟩, fun s ha => ⟨?_, ?_, ?_⟩, fun s hd => ?_, fun a s hh => ⟨?_, fun hd => ?_, ?_⟩⟩
  · rintro ⟨h0, hno⟩
    obtain ⟨hown, hint⟩ := h.resolve_left h0
    exact hno.elim (fun h => h hown) fun h => by simp [hint] at h
  · refine (if_neg fun h => h.2 (hall h.1)).trans ?_
    rw [hst, ← hl]
  · refine (if_neg (by simp [h])).trans ?_
    rw [writeSeverity, if_neg (by simp [h])]
    rfl
  · simp only [exec, execEventTimerExpiry, h]
    exact if_pos ht
  · simp only [exec, execEventTimerExpiry, h]
    exact if_neg (Nat.not_le.mpr ht)
  · rfl
  · exact (hbmEccUncorrected_rival hsub hlevel (by omega)).trans (by rw [if_pos hlt]; rfl)
  · exact (hbmEccUncorrected_rival hsub hlevel (by omega)).trans (by rw [if_neg (by omega)]; rfl)
  · have hover : quietOver s = true := by simp [quietOver, hf, hq]
    refine (if_pos hover).trans (congrArg Host.Outcome.next ((if_pos hover).trans ?_))
    rfl
  · exact if_neg (by simp [h])
  · exact (if_pos h).trans (congrArg Host.Outcome.next (if_neg (by simp [h'])))
  · simp only [exec, execMusicBoxFoldExpiry, hr]
    exact if_pos ⟨hf, ht, hfw⟩
  · simp only [exec, execMusicBoxFoldExpiry]
    split
    · exact if_neg fun h => h.1 hf
    · rfl
  · simp [exec, execPcieLinkUp, awake, hup]
  · exact congrArg Host.Outcome.next (if_pos hup)
  · exact congrArg Host.Outcome.next (if_neg (by simp [hup]))
  · exact congrArg Host.Outcome.next ((awake_live hh _).trans (if_neg (by simp [hup])))
  · exact congrArg Host.Outcome.next ((awake_live hh _).trans (if_neg hf))
  · exact congrArg Host.Outcome.next ((awake_live hh _).trans (if_pos rfl))
  · exact congrArg Host.Outcome.next (awake_live hh _)
  · exact congrArg Host.Outcome.next (if_pos (by simp [hd, ha]))
  · exact congrArg Host.Outcome.next (if_neg (by simp [ha]))
  · exact congrArg Host.Outcome.next (if_neg (by simp [ha]))
  · exact congrArg Host.Outcome.next (if_neg (by simp [ha]))
  · exact congrArg Host.Outcome.next (if_pos ha)
  · exact congrArg Host.Outcome.next (if_pos ha)
  · exact congrArg Host.Outcome.next (if_neg (by simp [hd]))
  · exact congrArg Host.Outcome.next (awake_live hh _)
  · exact congrArg Host.Outcome.next ((awake_live hh _).trans (if_pos hd))
  · exact congrArg Host.Outcome.next (awake_live hh _)

end Sys2Proof.Proofs
end

section
/-! Proofs of the statements about the parameter store, the Music Box and the always-on domain (chapter 18). -/

namespace Sys2Proof.Proofs

open Sys2Proof Sys2Proof.Machine Sys2Proof.Safety Sys2Proof.Laws

/-- WRITE_PARAM_PAGE of a length in range, with the body that the length asks for (R385). -/
theorem writeParamPage_fits {c : Ctx} {s : State} {n : Nat} {st : Status} (hmin : 1 ≤ bn c 1) (hmax : bn c 1 ≤ 1024)
    (hbulk : c.bulk = true → c.len = 8 + 4 * cdiv (bn c 1) 4) (hring : c.bulk = false → bn c 1 ≤ 40)
    (hpower : s.persist.powerFail = false) (hn : n = min (bn c 1) (256 - bf c 0 23 16))
    (hst : st = if n < bn c 1 then .okPartial else .ok) :
    cmdWriteParamPage c s = .done st [word n] (setPersist { (storeAdvance s).persist with
      pages := tset (storeAdvance s).persist.pages (bf c 0 9 0) { pageGet (storeAdvance s) (bf c 0 9 0) with
        bytes := memWrite 0 (pageGet (storeAdvance s) (bf c 0 9 0)).bytes (bf c 0 23 16) (((bytesOf c.body).drop 8).take n)
        state := 1 } } (storeAdvance s)) := by
  have hlen : (if c.bulk = true then decide (c.len ≠ 8 + 4 * cdiv (bn c 1) 4) else decide (40 < bn c 1)) = false := by
    cases hb : c.bulk with
    | true => simp [hbulk hb]
    | false => simpa using hring hb
  unfold cmdWriteParamPage
  dsimp only
  rw [if_neg (by omega), hlen, if_neg Bool.false_ne_true, if_neg (by simp [hpower]), ← hn, ← hst]

/-- Settles O58, row by row: the ranges and the power-fail state, then the section's own effect. -/
theorem persistenceRows : Obligations.PersistenceRows := by
  refine ⟨fun n st => row_of_run (issues fun _ _ _ => rfl) fun c s ⟨hmin, hmax, hbulk, hring, hpower, hn, hst⟩ =>
      writeParamPage_fits hmin hmax hbulk hring hpower hn hst,
    rowRefuses_of_run (issues fun _ _ _ => rfl) fun c s ⟨hmin, hmax, hring, hpower⟩ => ?_,
    row_of_run (issues fun _ _ _ => rfl) fun c s ⟨haddr, hreach⟩ =>
      (if_neg (not_not.mpr haddr)).trans (hostWrite_reached hreach),
    rowWaits_of_run (issues fun _ _ _ => rfl) fun c s _ => rfl,
    fun t => row_of_run (issues fun _ _ _ => rfl) fun c s ht => ?_,
    fun q st => row_of_run (issues fun _ _ _ => rfl) fun c s ⟨haddr, hunit, hmin, hmax, hq, hst, hreach⟩ => ?_,
    row_of_run (issues fun _ _ _ => rfl) fun c s _ => rfl,
    fun t => row_of_run (issues fun _ _ _ => rfl) fun c s ht => ?_,
    row_of_run (issues fun _ _ _ => rfl) fun c s _ => rfl,
    row_of_run (issues fun _ _ _ => rfl) fun c s h => if_pos (by simpa using h),
    fun n => rowWaits_of_run (issues fun _ _ _ => rfl) fun c s ⟨hclear, hvalid, hstore⟩ => ?_,
    fun l s => rfl, fun l s h => ?_, fun s hfw ht => if_pos ⟨hfw, ht⟩, fun s ht => if_neg (by omega),
    fun i high s h => if_pos ?_, fun i s t hen ht => ?_, fun v s hh hb => ⟨fun hv => ?_, fun hv => ?_⟩,
    fun v s hb => if_pos (by simp [hb])⟩
  · show cmdWriteParamPage c s = _
    unfold cmdWriteParamPage
    dsimp only
    rw [if_neg (by omega), if_neg (by simpa [hring] using hmax), if_pos hpower]
  · rw [ht]
    rfl
  · refine (if_neg (by omega)).trans ?_
    rw [hq] at hreach hst ⊢
    rw [hst]
    exact hostWrite_reached hreach
  · rw [ht]
    rfl
  · refine (if_neg (by simp [hclear, hvalid])).trans ?_
    simp only [setPersist, hstore]
    rfl
  · simp only [exec, execStoreDone, finishStore, h]
  · rcases h with h | h
    · rw [h]
      rfl
    · rw [Bool.or_eq_true]
      exact .inr (bne_iff_ne.mpr h)
  · rw [ht]
    exact if_neg (by simp only [hen, bne_self_eq_false, Bool.not_true, Bool.or_self, Bool.false_eq_true, not_false_eq_true])
  · have hlow : decide (v.toNat < 2200) = false := decide_eq_false (Nat.not_lt.mpr hv)
    simp only [exec, execVbatCheck, hh, hb, hlow]
    rfl
  · have hlow : decide (v.toNat < 2200) = true := decide_eq_true hv
    simp only [exec, execVbatCheck, hh, hb, hlow]
    rfl

end Sys2Proof.Proofs
end

section
/-! Proofs of the statements about ageing, margins and health (chapter 19). -/

namespace Sys2Proof.Proofs

open Sys2Proof Sys2Proof.Machine Sys2Proof.Safety Sys2Proof.Laws

/-! ### Temperature -/

/-- Without an engine lost, a clock that stays changes nothing. -/
theorem setClock_stays (s : State) : setClock s.engines.clockMHz none s = s := if_pos rfl

/-- A sample below LIMIT leaves the clock as it is (R406, R407). -/
theorem thermalSample_below {l : List Int} {t : Int} {s : State} (hh : held s = false) (hl : l.length = 16)
    (ht : t = l.foldl max (l.headD 0)) (hlim : t < tjLimit) :
    exec (.thermalSample l none) s = .next ((fun u => if decide (tjWarn s ≤ t) && !s.health.warned then raise 231 0 u else u)
      { s with health := { s.health with
        sensors := l, tj := t, atLimit := false, hotSince := none
        warned := if tjWarn s ≤ t then true else if t ≤ tjWarn s - 30 then false else s.health.warned
        coolSince := if t < tjLimit - 50 then some (s.health.coolSince.getD (now s)) else none } }) := by
  have hhot : decide (tjLimit ≤ t) = false := decide_eq_false (by omega)
  simp only [exec, execThermalSample, hl, ne_eq, not_true_eq_false, if_false, hh, Bool.false_eq_true, ← ht, hhot,
    Bool.false_and, Bool.not_false, if_true, decide_eq_true_eq, setClock_stays]
  rfl

/-- A sample at LIMIT or above reaches the clock, which the first of them, with THROTTLE, may lower (R407). -/
theorem thermalSample_hot {l : List Int} {t : Int} {lost : Option (Fin 512 × Bool)} {s : State} (hh : held s = false)
    (hl : l.length = 16) (ht : t = l.foldl max (l.headD 0)) (hwarm : tjWarn s ≤ t) (hlim : tjLimit ≤ t)
    {lower : Bool} (hlower : lower = (s.health.throttle && (!s.health.atLimit || decide (1200 < s.engines.clockMHz)))) :
    exec (.thermalSample l lost) s = .next ((fun u => setClock (if lower then min 1200 u.engines.clockMHz
        else u.engines.clockMHz) lost u)
      ((fun u => if !s.health.atLimit then raise 231 1 u else u) ((fun u => if !s.health.warned then raise 231 0 u else u)
        { s with health := { s.health with
          sensors := l, tj := t, warned := true, atLimit := true
          hotSince := if s.health.atLimit && !lower then s.health.hotSince else some (now s), coolSince := none } }))) := by
  have hcool : ¬t < tjLimit - 50 := by omega
  simp only [exec, execThermalSample, hl, ne_eq, not_true_eq_false, if_false, hh, Bool.false_eq_true, ← ht,
    decide_eq_true hwarm, decide_eq_true hlim, Bool.true_and, if_true, Bool.not_true, hcool, ← hlower]
  rfl

/-! ### The stacks of HBM -/

theorem markStack_set_ne : ∀ (v : BitVec 2) (k : Fin 2), markStack v k.val true ≠ 0 := by decide

/-! ### The analogue inputs -/

/-- A slot of an input has ended only once the scan has come so far. -/
theorem adcDue_reached {i : Nat} {s : State} (h : adcDue s i = true) :
    0 < s.health.convUs ∧ s.health.scanAt + (i % 8 + 1) * s.health.convUs ≤ now s := by
  obtain ⟨hnew, hi⟩ := of_decide_eq_true h
  have hended : 0 < slotsEnded s := Nat.zero_lt_of_lt hnew
  have hconv : 0 < s.health.convUs := by
    refine Nat.pos_of_ne_zero fun h0 => ?_
    simp [slotsEnded, h0] at hended
  have hslots : i % 8 + 1 ≤ slotsEnded s := by omega
  have hreach : slotsEnded s * s.health.convUs ≤ now s - s.health.scanAt := Nat.div_mul_le_self _ _
  have hone : s.health.convUs ≤ slotsEnded s * s.health.convUs := Nat.le_mul_of_pos_left _ hended
  have hmul : (i % 8 + 1) * s.health.convUs ≤ slotsEnded s * s.health.convUs := Nat.mul_le_mul_right _ hslots
  exact ⟨hconv, by omega⟩

/-- The conversion of an enabled input whose slot has ended: suspect where its samples differ, else a wire check or a
value (R410, R411). -/
theorem adcConversionDone_slot {i : Fin 8} {a b : BitVec 12} {s : State} (h : SlotEnds i s) :
    exec (.adcConversionDone i a b) s = .next (if a.toNat + 16 < b.toNat ∨ b.toNat + 16 < a.toNat then
        raise 234 1 (adcPut i.val { adcGet s i.val with
          suspect := true, biasedNext := (adcGet s i.val).owEn } (slotTaken s))
      else if ((adcGet s i.val).owEn && (adcGet s i.val).biasedNext) = true then
        wireCheck i.val (adcRead a.toNat b.toNat) { adcGet s i.val with suspect := false, biasedNext := false } (slotTaken s)
      else takeValue i.val (adcRead a.toNat b.toNat) { adcGet s i.val with
        suspect := false, biasedNext := (adcGet s i.val).owEn && !((adcGet s i.val).owEn && (adcGet s i.val).biasedNext) }
        (slotTaken s)) := by
  obtain ⟨hdue, hen, hh⟩ := h
  simp only [exec, execAdcConversionDone, hdue, hh, hen, Bool.not_true, Bool.or_self, Bool.false_eq_true, if_false]
  split
  · rfl
  · split
    next hb =>
      simp only [hb, Bool.not_true, Bool.and_false]
      rfl
    next => rfl

/-- Settles O59, row by row: the ranges of each command, and the branch of each sample. -/
theorem healthRows : Obligations.HealthRows := by
  refine ⟨row_of_run (issues fun _ _ _ => rfl) fun c s ⟨hmv, h5, henv⟩ => if_neg (by omega),
    rowRefuses_of_run (issues fun _ _ _ => rfl) fun c s h => if_pos h,
    row_of_run (issues fun _ _ _ => rfl) fun c s ⟨hmin, hmax⟩ => if_neg (by omega),
    rowRefuses_of_run (issues fun _ _ _ => rfl) fun c s h => if_pos h,
    row_of_run (issues fun _ _ _ => rfl) fun c s ⟨hus, hus', hd, hd', hlo⟩ =>
      (if_neg (by omega)).trans (if_neg (Nat.not_lt.mpr hlo)),
    rowRefuses_of_run (issues fun _ _ _ => rfl) fun c s ⟨hus, hus', hd, hd', hlo⟩ => (if_neg (by omega)).trans (if_pos hlo),
    row_of_run (issues fun _ _ _ => rfl) fun c s h => ?_, row_of_run (issues fun _ _ _ => rfl) fun c s h => ?_,
    row_of_run (issues fun _ _ _ => rfl) fun c s h => ?_, rowRefuses_of_run (issues fun _ _ _ => rfl) fun c s h => ?_,
    fun l nack es s hl hfw ht => ?_, fun l nack es s hl h => ?_,
    fun l t s hh hl ht hw hlim hm => ?_, fun l t s hh hl ht hw hlim hm => ?_, fun l t s hh hl ht hw hlim => ?_,
    fun l t lost s u hh hl ht hw hlim hat hu => ?_,
    fun l t lost s u hh hl ht hw hlim hat hwarned hu => ⟨fun hth hc => ?_, fun h => ?_⟩,
    fun e trap mhz s he => ⟨if_neg he, setClock_stays s⟩, fun l lost s hl => if_pos hl,
    fun t lost s hh hat hth hhot ht hc hc' => ?_, fun t lost s hh hhot hcool ht hc => ?_, fun s hhot hcool => ?_,
    fun t k s hh ht => ?_, fun t k s hh ht ht' => ?_, fun t k s hh ht => ?_,
    fun r above back s u hh hu => ⟨fun h => ?_, fun t h => ?_⟩, fun i a b s hd hh hen => ?_, fun i a b s h => ?_,
    fun i s h => adcDue_reached h, fun i a b s h hab => (adcConversionDone_slot h).trans (congrArg _ (if_pos hab)),
    fun i a b s h how hab hba hopen hlo hhi => ?_, fun i a b s h how hb hab hba hopen => ?_⟩
  · show cmdGetHealth c s = _
    simp only [cmdGetHealth, h]
    rfl
  · show cmdGetHealth c s = _
    simp only [cmdGetHealth, h]
    rfl
  · show cmdGetHealth c s = _
    simp only [cmdGetHealth, h]
    rfl
  · show cmdGetHealth c s = _
    simp only [cmdGetHealth, h]
  · simp only [exec, execPlannerRun]
    rw [if_neg (not_not.mpr hl), if_neg (by simp [hfw]; omega)]
    rfl
  · simp only [exec, execPlannerRun]
    rw [if_neg (not_not.mpr hl), if_pos (h.imp_left fun h => by simp [h])]
  · have hcold : ¬tjWarn s ≤ t := by omega
    refine (thermalSample_below hh hl ht hlim).trans ?_
    simp only [hcold, decide_false, Bool.false_and, Bool.false_eq_true, if_false, if_neg (show ¬t ≤ tjWarn s - 30 by omega)]
  · have hcold : ¬tjWarn s ≤ t := by omega
    refine (thermalSample_below hh hl ht hlim).trans ?_
    simp only [hcold, decide_false, Bool.false_and, Bool.false_eq_true, if_false, if_pos hm]
  · refine (thermalSample_below hh hl ht hlim).trans ?_
    simp only [hw, decide_true, Bool.true_and, if_true]
    cases s.health.warned <;> rfl
  · refine (thermalSample_hot hh hl ht hw hlim rfl).trans ?_
    rw [hu]
    simp only [hat, Bool.not_false, Bool.true_or, Bool.and_true, Bool.false_and, Bool.false_eq_true, if_false, if_true]
    cases s.health.warned <;> rfl
  · refine (thermalSample_hot hh hl ht hw hlim rfl).trans ?_
    rw [hu]
    simp only [hat, hwarned, hth, hc, decide_true, Bool.not_true, Bool.false_or, Bool.and_self, Bool.and_false, Bool.false_eq_true,
      if_false, if_true]
    rw [Nat.min_eq_left hc.le]
  · refine (thermalSample_hot hh hl ht hw hlim rfl).trans ?_
    have hlower : (s.health.throttle && decide (1200 < s.engines.clockMHz)) = false := by
      rcases h with h | h
      · rw [h, Bool.false_and]
      · rw [decide_eq_false (Nat.not_lt.mpr h), Bool.and_false]
    rw [hu]
    simp only [hat, hwarned, hlower, Bool.not_true, Bool.not_false, Bool.false_or, Bool.true_and, Bool.false_eq_true,
      if_false, if_true]
  · simp only [exec, execThrottleHoldExpiry, hat, hth, hhot, hh, decide_eq_true ht, Bool.and_self, Bool.false_eq_true, if_false,
      Bool.true_and]
    exact if_pos (decide_eq_true ⟨hc, hc'⟩)
  · simp only [exec, execThrottleHoldExpiry, hhot, hcool, hh, decide_eq_true ht, Bool.and_false, Bool.false_and, Bool.false_eq_true,
      if_false, Bool.true_and]
    exact if_pos (decide_eq_true hc)
  · simp only [exec, execThrottleHoldExpiry, hhot, hcool, Bool.and_false, Bool.false_and, Bool.false_eq_true, if_false,
      setClock_stays, ite_self]
  · have hcold : decide (850 ≤ t) = false := decide_eq_false (by omega)
    have hcool : decide (950 ≤ t) = false := decide_eq_false (by omega)
    simp only [exec, execHbmTemperature, hh, hcold, hcool, Bool.false_and, Bool.false_eq_true, if_false]
    rfl
  · have hcool : decide (950 ≤ t) = false := decide_eq_false (by omega)
    simp only [exec, execHbmTemperature, hh, decide_eq_true ht, hcool, Bool.false_and, Bool.false_eq_true, if_false,
      Bool.true_and]
    cases s.health.hbmWarned.getLsbD k.val <;> rfl
  · have hne := markStack_set_ne s.health.hbmLimited k
    have hwarm : decide (850 ≤ t) = true := decide_eq_true (by omega)
    simp only [exec, execHbmTemperature, hh, hwarm, decide_eq_true ht, Bool.false_eq_true, if_false, Bool.true_and,
      decide_eq_true hne]
    cases s.health.hbmWarned.getLsbD k.val <;> cases s.health.hbmLimited.getLsbD k.val <;> rfl
  · rw [hu]
    simp only [exec, execRailExcursion, hh, h]
    rfl
  · rw [hu]
    simp only [exec, execRailExcursion, hh, h]
    rfl
  · simp only [exec, execAdcConversionDone, hd, hh, hen]
    rfl
  · exact if_pos (by rcases h with h | h <;> simp [h])
  · refine (adcConversionDone_slot h).trans ?_
    rw [if_neg (by omega), if_neg (by simp [how]), how]
    have hin : decide (adcRead a.toNat b.toNat < (adcGet s i.val).lo ∨ (adcGet s i.val).hi < adcRead a.toNat b.toNat) = false :=
      decide_eq_false (by omega)
    simp only [takeValue, hopen, hin, Bool.false_and, Bool.false_eq_true, if_false]
  · refine (adcConversionDone_slot h).trans ?_
    rw [if_neg (by omega), if_pos (by rw [how, hb]; rfl)]
    exact congrArg Host.Outcome.next (if_pos hopen)

end Sys2Proof.Proofs
end

section
/-! Proofs of the statements about start-up, resets and the flash (chapter 20). -/

namespace Sys2Proof.Proofs

open Sys2Proof Sys2Proof.Machine Sys2Proof.Safety Sys2Proof.Laws

/-! ### What a reset keeps -/

/-- Spoiling a row changes the persistent image, and takes an open value. -/
theorem spoilRow_eq (r : Nat) (other : List Byte) (s : State) :
    ∃ p n, spoilRow r other s = { s with persist := p, free := n } := by
  unfold spoilRow
  dsimp only
  repeat' split
  all_goals exact ⟨_, _, rfl⟩

theorem tearStore_eq (s : State) : ∃ p n, tearStore s = { s with persist := p, free := n } := by
  unfold tearStore
  dsimp only
  split
  next r hr =>
    split
    next =>
      obtain ⟨p, n, h⟩ := spoilRow_eq r (mediumRow r s) { s with free := s.free + 1 }
      rw [h]
      exact ⟨_, _, rfl⟩
    next => exact ⟨_, _, rfl⟩
  next => exact ⟨_, _, rfl⟩

theorem tornStore_eq (s : State) : ∃ p n, tornStore s = { s with persist := p, free := n } := by
  unfold tornStore
  split
  · obtain ⟨p, hp⟩ := storeAdvance_eq s
    obtain ⟨q, n, h⟩ := tearStore_eq (storeAdvance s)
    rw [h, hp]
    exact ⟨_, _, rfl⟩
  · exact ⟨_, _, rfl⟩

theorem tornFlash_eq (s : State) : ∃ f n, tornFlash s = { s with flash := f, free := n } := by
  unfold tornFlash
  split
  · exact ⟨_, _, rfl⟩
  · exact ⟨_, _, rfl⟩

/-- A reset holds the device with no command executing and no page active; powered time, the vault's slots and host memory
stay (R423). -/
theorem cold_keeps (s : State) : (cold s).sys.porstLow = s.sys.porstLow ∧ (cold s).sys.phase = .held ∧
    (cold s).sys.ptimeRuns = false ∧ (cold s).sys.ptime = s.sys.ptime ∧ (cold s).exec = none ∧
    (∀ p, (box (cold s) p) = box State.reset p) ∧ (cold s).vault.slots = s.vault.slots ∧ (cold s).hostMem = s.hostMem := by
  obtain ⟨f, n, h⟩ := tornFlash_eq s
  unfold cold
  rw [h]
  dsimp only
  split <;> exact ⟨rfl, rfl, rfl, rfl, rfl, fun _ => rfl, rfl, rfl⟩

theorem box_reset_inactive : ∀ p < 16, (box State.reset p).active = false := by decide

/-- PORST_N falls: what the device keeps of the state before (R390, R415). -/
theorem porstNAssert_keeps {s : State} (h : s.sys.porstLow = false) : ∃ t, exec .porstNAssert s = .next t ∧
    t.sys.porstLow = true ∧ t.sys.phase = .held ∧ t.sys.ptimeRuns = false ∧ t.sys.ptime = s.sys.ptime ∧ t.exec = none ∧
    (∀ p < 16, (box t p).active = false) ∧ t.vault.slots = s.vault.slots ∧ t.hostMem = s.hostMem := by
  obtain ⟨p, n, hs⟩ := tornStore_eq s
  obtain ⟨hlow, hphase, hruns, htime, hexec, hbox, hslots, hmem⟩ :=
    cold_keeps (setSys { s.sys with porstLow := true } (tornStore s))
  refine ⟨_, congrArg Host.Outcome.next (if_neg (by simp [h])), hlow, hphase, hruns, htime, hexec,
    fun p hp => by rw [hbox]; exact box_reset_inactive p hp, hslots.trans ?_, hmem.trans ?_⟩
  · rw [hs]
    rfl
  · rw [hs]
    rfl

/-! ### The flash and firmware commands -/

theorem writeBoot_vault (a : Nat) (t : Option Nat) (s : State) : (writeBoot a t s).vault = s.vault := by
  unfold writeBoot
  dsimp only
  split <;> rfl

/-- FW_CONFIRM of a trial makes the slot active and raises the security version (R427). -/
theorem fwConfirm_trial {c : Ctx} {s : State} (h : s.flash.trialRunning = true) : cmdFwConfirm c s = .done .ok []
    { writeBoot s.sys.bootSlot none s with
      vault := { s.vault with minSvn :=
        if s.vault.minSvn.toNat < (headerWord s s.sys.bootSlot 5).toNat then headerWord s s.sys.bootSlot 5 else s.vault.minSvn }
      flash := { (writeBoot s.sys.bootSlot none s).flash with trialRunning := false } } := by
  refine (if_neg (by simp [h])).trans ?_
  dsimp only
  rw [writeBoot_vault]
  rfl

/-- A power fail of a device that runs is dealt with once; a brown-out with it holds the device in reset (R389, R415). -/
theorem powerFailDetect_live {b pf done : Bool} {l : List (Fin 13312)} {f : List Nat} {s : State}
    (hf : f = l.map (fun r => r.val)) (hpower : s.persist.powerFail = false)
    (hphase : s.sys.phase = .ready ∨ s.sys.phase = .romRecovery) (hcause : (b || pf) = true) :
    exec (.powerFailDetect b pf done l) s = .next (if (b && !s.sys.brownOut) = true then
        cold { tornStore (powerFail (if pf = true then 0 else 1) done f s) with
          sys := { (powerFail (if pf = true then 0 else 1) done f s).sys with brownOut := true } }
      else powerFail (if pf = true then 0 else 1) done f s) := by
  simp only [exec, execPowerFailDetect, hcause, decide_eq_true hphase, hpower, Bool.not_false, Bool.and_self, if_true, ← hf]
  rfl

/-- Settles O60, row by row: the flash is idle and the area writable, then each reset by what holds the device. -/
theorem startupRows : Obligations.StartupRows := by
  refine ⟨row_of_run (issues fun _ _ _ => rfl) fun c s _ => rfl,
    row_of_run (issues fun _ _ _ => rfl) fun c s ⟨hmin, hmax, hend, hidle, hreach⟩ =>
      (if_neg (by omega)).trans ((flashIdle_idle hidle).trans (hostWrite_reached hreach)),
    row_of_run (issues fun _ _ _ => rfl) fun c s ⟨ha, hmin, hmax, harea, hidle⟩ => ?_,
    row_of_run (issues fun _ _ _ => rfl) fun c s ⟨hlen, ha, harea, hidle, herased⟩ => ?_,
    rowRefuses_of_run (issues fun _ _ _ => rfl) fun c s ⟨hlen, ha, harea, hidle, hfull⟩ => ?_,
    rowRefuses_of_run (issues fun _ _ _ => rfl) fun c s ⟨ha, hmin, hmax, harea, hbusy⟩ => ?_,
    row_of_run (issues fun _ _ _ => rfl) fun c s ⟨hk, hother, hidle, hcheck⟩ => ?_,
    rowRefuses_of_run (issues fun _ _ _ => rfl) fun c s ⟨hk, hself⟩ => ?_,
    rowFails_of_run (issues fun _ _ _ => rfl) fun c s ⟨hk, hother, hidle, hcheck⟩ => ?_,
    row_of_run (issues fun _ _ _ => rfl) fun c s h => fwConfirm_trial (c := c) h,
    rowRefuses_of_run (issues fun _ _ _ => rfl) fun c s h => if_pos (by simp [h]),
    fun b s h => ?_, fun o s ho hop => ?_, fun o s ho hop => ?_, fun b o s ho hlo hhi => ?_,
    fun st s h => ?_, fun st s hl hb ht => ?_, fun st s hl hb => ?_, fun st s hl hb ht => ?_,
    fun s h => congrArg Host.Outcome.next (if_pos h), fun s h => porstNAssert_keeps h,
    fun s h => if_neg ?_, fun s hw ht => if_pos ⟨hw, ht⟩, fun done l f s hf hpf hph => ⟨?_, fun hb => ⟨?_, ?_⟩⟩,
    fun pf done l s h => ?_, fun st s h => ?_, fun st s hb hl ht => ?_⟩
  · show cmdFlashErase c s = _
    simp only [cmdFlashErase, harea]
    rw [if_neg (by omega), flashIdle_idle hidle]
    rfl
  · show cmdFlashWrite c s = _
    have hany : ((flashBytes s (bn c 0) ((bytesOf c.body).drop 4).length).any fun b => decide (b ≠ 0xFF)) = false :=
      List.any_eq_false.mpr fun b hb => by simpa using herased b hb
    simp only [cmdFlashWrite, harea]
    rw [if_neg (by omega), if_neg (not_not.mpr ha), flashIdle_idle hidle, hany]
    rfl
  · show cmdFlashWrite c s = _
    obtain ⟨b, hb, hne⟩ := hfull
    have hany : ((flashBytes s (bn c 0) ((bytesOf c.body).drop 4).length).any fun b => decide (b ≠ 0xFF)) = true :=
      List.any_eq_true.mpr ⟨b, hb, decide_eq_true hne⟩
    simp only [cmdFlashWrite, harea]
    rw [if_neg (by omega), if_neg (not_not.mpr ha), flashIdle_idle hidle, hany]
    rfl
  · show cmdFlashErase c s = _
    simp only [cmdFlashErase, harea]
    rw [if_neg (by omega), flashIdle, if_pos (Option.isSome_iff_ne_none.mpr hbusy)]
  · refine (if_neg (by omega)).trans ((if_neg hother).trans ((flashIdle_idle hidle).trans ?_))
    exact if_neg (not_not.mpr hcheck)
  · exact (if_neg (by omega)).trans (if_pos hself)
  · exact (if_neg (by omega)).trans ((if_neg hother).trans ((flashIdle_idle hidle).trans (if_pos hcheck)))
  · simp only [exec, execFlashDone, h]
  · simp only [exec, execFlashDone, ho, hop, if_true]
    rfl
  · simp only [exec, execFlashDone, ho, hop, if_neg (show ¬0x1303 = 0x1302 by decide)]
    rfl
  · simp only [exec, execFlashDone, ho]
    rw [if_neg (by omega)]
    exact ⟨_, rfl⟩
  · exact congrArg Host.Outcome.next (if_neg (by simp [h]))
  · refine congrArg Host.Outcome.next ((if_pos hl).trans ((if_neg ?_).trans (if_neg (by simp [ht]))))
    simp [setSys, hb]
  · refine congrArg Host.Outcome.next ((if_pos hl).trans (if_pos ?_))
    exact .inr hb
  · refine congrArg Host.Outcome.next ((if_pos hl).trans ((if_neg ?_).trans (if_pos ht)))
    simp [setSys, hb]
  · rintro ⟨hw, ht⟩
    rcases h with h | h
    · simp [h] at hw
    · omega
  · exact powerFailDetect_live hf hpf hph rfl
  · refine (powerFailDetect_live hf hpf hph rfl).trans (congrArg Host.Outcome.next ?_)
    exact if_pos (by simp [hb])
  · refine (powerFailDetect_live hf hpf hph rfl).trans (congrArg Host.Outcome.next ?_)
    exact if_pos (by simp [hb])
  · simp only [exec, execPowerFailDetect, h, Bool.not_true, Bool.and_false, Bool.false_and, Bool.false_eq_true, if_false]
  · exact congrArg Host.Outcome.next (if_neg (by simp [h]))
  · refine congrArg Host.Outcome.next ((if_pos hb).trans ((if_neg ?_).trans (if_neg (by simp [ht]))))
    simp [setSys, hl]

end Sys2Proof.Proofs
end

section
/-! Proofs of the statements about the step, the tick and the state after reset (chapters 0, 2 and 21). -/

namespace Sys2Proof.Proofs

open Sys2Proof Sys2Proof.Machine Sys2Proof.Safety Sys2Proof.Laws

/-! ### The queue -/

/-- Settles O1: the step by its case of a queue that holds a command. -/
theorem stepRunsFront : Obligations.StepRunsFront := by
  intro s c cs h
  rw [step, h]

/-! ### The tick -/

theorem foldl_unchanged {α : Type} {f : State → α → State} {l : List α} {s : State} (h : ∀ a ∈ l, f s a = s) :
    l.foldl f s = s :=
  List.foldlRecOn (motive := fun t => t = s) l f rfl fun t ht a ha => by rw [ht]; exact h a ha

theorem firePulses_idle {s : State}
    (h : ∀ e ∈ s.time.pulses, e.2.flywheel = false ∧ ∀ d, e.2.due = some d → clockNow s < d) : firePulses s = s := by
  refine foldl_unchanged fun e he => ?_
  obtain ⟨hfly, hdue⟩ := h e he
  simp only [hfly, Bool.false_eq_true, if_false]
  split
  next d hd => exact if_neg fun hfire => absurd hfire.2 (not_le.mpr (hdue d hd))
  next => rfl

theorem prbsTick_idle {s : State} (h : ∀ e ∈ s.ports, e.2.test = false) : prbsTick s = s := by
  unfold prbsTick
  rw [List.filter_eq_nil_iff.mpr fun e he => by simp [h e he]]
  rfl

theorem gapsDue_idle {s : State} (h : ∀ e ∈ s.audio.inputs, ∀ t, e.2.gapDue = some t → now s < t) : gapsDue s = s := by
  unfold gapsDue
  rw [List.filter_eq_nil_iff.mpr fun e he => ?_]
  · rfl
  · split
    next t ht => simpa using h e he t ht
    next => exact Bool.false_ne_true

theorem readDue_idle {s : State} (h : ∀ e ∈ s.dests, ∀ t, e.2.readAt = some t → now s < t) : readDue s = s := by
  unfold readDue
  rw [List.filter_eq_nil_iff.mpr fun e he => ?_]
  · rfl
  · split
    next t ht => simpa using h e he t ht
    next => exact Bool.false_ne_true

theorem hbmWake_idle {s : State} (h : s.health.hbmSleep = 0 ∨ hbmIdle s = true ∧
    (if s.health.hbmSleep = 2 then 3000 else 1050) < lowestTolerance s) : hbmWake s = s := by
  unfold hbmWake
  dsimp only
  rcases h with h | ⟨hidle, htol⟩
  · rw [if_pos h]
  · rw [hidle, decide_eq_true htol, Bool.and_self, if_pos rfl, ite_self]

theorem perstRise_waits {s : State} (h : ∀ t, s.sys.perstDue = some t → now s < t) : perstRise s = s := by
  unfold perstRise
  split
  next t ht => exact if_neg (Nat.not_le.mpr (h t ht))
  next => rfl

/-- A microsecond changes the powered time alone. -/
theorem microsecond_eq (s : State) : ∃ x, microsecond s = { s with sys := x } ∧ x.perstDue = s.sys.perstDue := by
  unfold microsecond
  split
  · exact ⟨_, rfl, rfl⟩
  · exact ⟨_, rfl, rfl⟩

/-- Where nothing before the rise of RP_PERST is due, the tick is that rise. -/
theorem tick_rises {s t : State} (ht : t = microsecond s)
    (hpulses : ∀ e ∈ t.time.pulses, e.2.flywheel = false ∧ ∀ d, e.2.due = some d → clockNow t < d)
    (htest : ∀ e ∈ t.ports, e.2.test = false) (hgaps : ∀ e ∈ t.audio.inputs, ∀ u, e.2.gapDue = some u → now t < u)
    (hreads : ∀ e ∈ t.dests, ∀ u, e.2.readAt = some u → now t < u)
    (hhbm : t.health.hbmSleep = 0 ∨ hbmIdle t = true ∧
      (if t.health.hbmSleep = 2 then 3000 else 1050) < lowestTolerance t)
    (hopen : ∀ u, t.domino.opensAt = some u → now t < u) : tick s = perstRise t := by
  have htick : tick s = perstRise (openDue (hbmWake (readDue (gapsDue (prbsTick (firePulses t)))))) := by
    rw [ht]
    rfl
  rw [htick, firePulses_idle hpulses, prbsTick_idle htest, gapsDue_idle hgaps, readDue_idle hreads, hbmWake_idle hhbm,
    openDue_waits hopen]

/-- Settles O2: the step by its case of an empty queue, and the tick by each of its parts that has nothing to do. -/
theorem stepIdles : Obligations.StepIdles := by
  refine ⟨fun s h => ?_, fun s ⟨hpulses, htest, hgaps, hreads, hhbm, hopen, hperst⟩ =>
      (tick_rises rfl hpulses htest hgaps hreads hhbm hopen).trans (perstRise_waits hperst),
    fun s t hdue ht hpulses htest hgaps hreads hhbm hopen => ?_⟩
  · rw [step, h]
  · obtain ⟨x, hx, hperst⟩ := microsecond_eq s
    rw [hx] at ht ⊢
    have hrise : tick s = perstRise { s with sys := x } :=
      tick_rises hx.symm (fun e he => by simp [hpulses] at he) htest (fun e he u hu => by simp [hgaps e he] at hu)
        (fun e he u hu => by simp [hreads e he] at hu) (.inl hhbm) (fun u hu => by simp [hopen] at hu)
    have hx' : x.perstDue = some t := hperst.trans hdue
    rw [hrise, perstRise]
    simp only [hx']
    exact if_pos ht

/-! ### The state after reset -/

/-- Settles O5, by the reset value of each register. -/
theorem resetLeaves : Obligations.ResetLeaves := by
  refine ⟨fun p hp => ⟨rfl, rfl, rfl, rfl, rfl, rfl, rfl⟩, fun n hn => ?_, fun o => ?_, fun h hh => ⟨rfl, rfl⟩, rfl, rfl, rfl, rfl⟩
  · have hcause : causeOf State.reset n = 0 := by
      unfold causeOf
      split <;> rfl
    exact ⟨by simp [isPending, hcause], hcause⟩
  · unfold readGlobal
    split
    case h_11 h0 _ _ h12 _ _ _ _ _ _ =>
      split
      · exact absurd rfl h0
      · exact absurd rfl h12
      · rfl
    all_goals rfl

end Sys2Proof.Proofs
end

section
/-! Proofs of the statements about the window and the event registers (chapters 2 and 17). -/

namespace Sys2Proof.Proofs

open Sys2Proof Sys2Proof.Machine Sys2Proof.Safety Sys2Proof.Laws

/-! ### What the rows of the event registers may change -/

theorem raised_awake {f : State → State} {s : State} (h : Raised s (f s)) : Raised s (awake f s) := Raised.ite (Raised.refl s) h

theorem raised_foldl {α : Type} {f : State → α → State} (hf : ∀ s a, Raised s (f s a)) (l : List α) (s : State) :
    Raised s (l.foldl f s) :=
  List.foldlRecOn (motive := Raised s) l f (Raised.refl s) fun t ht a _ => ht.trans (hf t a)

theorem raised_settle (n : Nat) (s : State) : Raised s (settle n s) := by
  obtain ⟨e, o, h⟩ := settle_eq n s
  exact ⟨e, o, _, h⟩

theorem raised_clearCause (n : Nat) (m : BitVec 16) (s : State) : Raised s (clearCause n m s) :=
  Raised.ite (Raised.refl s) ((raised_evPut _ _ _).trans (raised_settle _ _))

theorem raised_raiseAll (n : Nat) (m : BitVec 16) (s : State) : Raised s (raiseAll n m s) :=
  raised_foldl (fun s k => raised_raise n k s) _ s

theorem raised_raiseRival (r : Option (Fin 256 × Fin 16)) (s : State) : Raised s (raiseRival r s) := by
  unfold raiseRival
  split
  · exact Raised.refl s
  · exact Raised.ite (raised_raise _ _ _) (Raised.refl s)

theorem raised_writeQuiet (n : Nat) (s : State) : Raised s (writeQuiet n s) :=
  Raised.ite (Raised.refl s) (Raised.ite (((raised_setHub _ _).trans (raised_setHub _ _)).trans (raised_raise _ _ _))
    (raised_setHub _ _))

theorem raised_releaseVector (fn v : Nat) (s : State) : Raised s (releaseVector fn v s) := by
  unfold releaseVector
  dsimp only
  exact Raised.ite ⟨_, _, _, rfl⟩ (Raised.refl s)

theorem awake_unchanged {f : State → State} {s : State} (h : f s = s) : awake f s = s := by
  rw [awake, h, ite_self]

theorem eventsAlone_of_raised {s t : State} {i : Instr} (h : exec i s = .next t) (hr : Raised s t) : EventsAlone s i := by
  obtain ⟨e, o, q, rfl⟩ := hr
  exact ⟨e, o, q, h⟩

theorem eventsAlone_causeClear (n : Fin 256) (c r : BitVec 16) (s : State) : EventsAlone s (.causeClear n c r) := by
  by_cases h : isLevel n.val = true
  · exact eventsAlone_of_raised (if_pos h) (Raised.refl s)
  · exact eventsAlone_of_raised (if_neg h) (raised_awake ((raised_raiseAll _ _ _).trans (raised_clearCause _ _ _)))

theorem eventsAlone_severityWrite (n : Fin 256) (v : Word) (s : State) : EventsAlone s (.severityWrite n v) :=
  eventsAlone_of_raised rfl (raised_awake (Raised.ite (Raised.refl s) (raised_evPut _ _ _)))

theorem eventsAlone_firstValidClear (r : Option (Fin 256 × Fin 16)) (s : State) : EventsAlone s (.firstValidClear r) :=
  eventsAlone_of_raised rfl (raised_awake (Raised.ite (raised_raiseRival r s)
    ((raised_raiseRival r s).trans (raised_setHub _ _))))

theorem eventsAlone_overflowClear (r : Option (Fin 256 × Fin 16)) (s : State) : EventsAlone s (.overflowClear r) :=
  eventsAlone_of_raised rfl (raised_awake ((raised_setHub _ _).trans (raised_raiseRival r _)))

theorem eventsAlone_quietMsWrite (v : Word) (s : State) : EventsAlone s (.quietMsWrite v) :=
  eventsAlone_of_raised rfl (raised_awake (raised_writeQuiet _ _))

theorem eventsAlone_msixUnmask (f : Fin 16) (w : MsixWrite) (s : State) : EventsAlone s (.msixUnmask f w) := by
  cases w with
  | entry v i x => exact eventsAlone_of_raised rfl (raised_awake (Raised.trans ⟨_, _, _, rfl⟩ (raised_releaseVector _ _ _)))
  | enable on =>
    exact eventsAlone_of_raised rfl (raised_awake (Raised.trans ⟨_, _, _, rfl⟩
      (raised_foldl (fun s v => raised_releaseVector f.val v s) _ _)))

/-- A command past its bound is marked late, once, with its event (R31). -/
theorem lateCompletion_late {p : Fin 16} {e : Executing} {s : State} (he : s.exec = some e)
    (h : e.page = p.val ∧ !e.late ∧ e.takenAt + e.bound < now s) :
    exec (.lateCompletion p) s = .next (raise 250 0 { s with exec := some { e with late := true } }) := by
  simp only [exec, execLateCompletion, he]
  exact if_pos h

theorem lateCompletion_inTime {p : Fin 16} {e : Executing} {s : State} (he : s.exec = some e)
    (h : ¬(e.page = p.val ∧ !e.late ∧ e.takenAt + e.bound < now s)) : exec (.lateCompletion p) s = .next s := by
  simp only [exec, execLateCompletion, he]
  exact if_neg h

theorem lateCompletion_none {p : Fin 16} {s : State} (he : s.exec = none) : exec (.lateCompletion p) s = .next s := by
  simp only [exec, execLateCompletion, he]

/-- Only the executing command's mark of lateness goes with the event. -/
theorem lateCompletion_alone (p : Fin 16) (s : State) : ∃ x e o q,
    exec (.lateCompletion p) s = .next { s with exec := x, events := e, out := o, persist := q } ∧
    x.map (fun y => { y with late := true }) = s.exec.map (fun y => { y with late := true }) := by
  rcases he : s.exec with _ | e
  · exact ⟨none, _, _, _, by rw [lateCompletion_none he, ← he], rfl⟩
  · by_cases h : e.page = p.val ∧ !e.late ∧ e.takenAt + e.bound < now s
    · obtain ⟨_, _, _, hr⟩ := raised_raise 250 0 { s with exec := some { e with late := true } }
      exact ⟨_, _, _, _, (lateCompletion_late he h).trans (congrArg Host.Outcome.next hr), rfl⟩
    · exact ⟨some e, _, _, _, by rw [lateCompletion_inTime he h, ← he], rfl⟩

/-! ### The window -/

theorem writeBar0_unused {o : Nat} {v : Word} {s : State}
    (h : 0x28 ≤ o ∧ o < 0x1000 ∨ 0x3000 ≤ o ∧ o < 0x10000 ∨ 0x110000 ≤ o ∨ o < 0x20) : writeBar0 o v s = s := by
  unfold writeBar0
  rw [if_neg (by omega), if_neg (by omega), if_neg (by omega), if_neg (by omega), if_neg (by omega)]

theorem writePage_ring {p o : Nat} {v : Word} {s : State} (hlo : 0x4000 ≤ o) (hhi : o < 0x8000) :
    writePage p o v s = modBox p (fun m => { m with cmdRing := tset m.cmdRing ((o - 0x4000) / 4) v }) s :=
  if_pos ⟨hlo, hhi⟩

theorem writePage_enables (p : Nat) (v : Word) (s : State) :
    writePage p 0x08 v s = modBox p (fun m => { m with cplIE := bit v 0, ntfIE := bit v 1, stallIE := bit v 2 }) s :=
  if_neg (by decide)

/-- An aligned write reaches the window (R25). -/
theorem registerWrite_aligned {f : Fin 16} {o : BitVec 23} {v : Word} {s : State} (h : o.toNat % 4 = 0) :
    exec (.registerWrite f o v none) s = .next (awake (writeWindow f.val o.toNat v) s) := by
  have hgood : accessBad { fn := f, offset := o, write := true, bytes := 4 } = false :=
    decide_eq_false (by rintro (h4 | h4); exacts [h4 (.inl rfl), h4 h])
  simp only [exec, execRegisterWrite, Option.isSome_none, Bool.false_eq_true, if_false, hgood]

/-- A 64-bit write is two writes at ascending addresses (R25). -/
theorem registerWrite_wide {f : Fin 16} {o : BitVec 23} {v w : Word} {s : State} (h : o.toNat % 8 = 0) :
    exec (.registerWrite f o v (some w)) s
      = .next (awake (fun s => writeWindow f.val (o.toNat + 4) w (writeWindow f.val o.toNat v s)) s) := by
  have hgood : accessBad { fn := f, offset := o, write := true, bytes := 8 } = false :=
    decide_eq_false (by rintro (h8 | h8); exacts [h8 (.inr rfl), h8 h])
  simp only [exec, execRegisterWrite, Option.isSome_some, if_true, hgood, Bool.false_eq_true, if_false]

/-- Settles O33: each write and read by the row that decodes it. -/
theorem windowWrites : Obligations.WindowWrites := by
  refine ⟨fun p v s h => ⟨?_, ?_, ?_, ?_⟩, fun p v s hh h => ?_, fun p s hh => ⟨?_, ?_, ?_, ?_⟩, fun p again s hh => ?_,
    fun s hh => ⟨?_, ?_⟩, fun a s hh hb hgood => ⟨?_, ?_, ?_⟩, fun v s hh => ?_, fun o v s ho hun => ?_,
    fun f o v s hh hf ho => ?_, fun f o v w s hh ho => ?_, fun f o v w s hh => ⟨fun ho => ?_, fun ho => ?_⟩,
    fun p o v s hlo hhi => ?_, fun p v s => ?_, fun p o v b a s hh hb => ⟨?_, ?_, ?_, ?_, ?_, ?_, ?_, ?_⟩,
    fun n c k v r f w s => ⟨eventsAlone_causeClear n c k s, eventsAlone_severityWrite n v s, eventsAlone_firstValidClear r s,
      eventsAlone_overflowClear r s, eventsAlone_quietMsWrite v s, eventsAlone_msixUnmask f w s, lateCompletion_alone f s⟩⟩
  · exact congrArg Host.Outcome.next (awake_unchanged (if_neg (by simp [h])))
  · exact congrArg Host.Outcome.next (awake_unchanged (if_pos (by simp [h])))
  · exact congrArg Host.Outcome.next (awake_unchanged (if_pos (by simp [h])))
  · simp only [canTake, h, Bool.false_and]
  · exact congrArg Host.Outcome.next ((awake_live hh _).trans (if_pos h))
  · exact congrArg Host.Outcome.next (awake_live hh _)
  · exact congrArg Host.Outcome.next (awake_live hh _)
  · exact congrArg Host.Outcome.next (awake_live hh _)
  · refine ⟨_, congrArg Host.Outcome.next (awake_live hh _), fun q => ?_⟩
    simp only [if_true, ringFault, box_raise, box_modBox]
    split <;> rfl
  · refine ⟨_, congrArg Host.Outcome.next (awake_live hh _), rfl, fun q => ?_⟩
    refine (box_setBox p.val q _ s).trans ?_
    cases again <;> rfl
  · exact congrArg Host.Outcome.next (awake_live hh _)
  · exact congrArg Host.Outcome.next (awake_live hh _)
  · refine (if_neg hb).trans (congrArg Host.Outcome.next ((awake_live hh _).trans (if_neg (by simp [hgood]))))
  · refine (if_neg hb).trans (congrArg Host.Outcome.next ((awake_live hh _).trans ?_))
    simp only [accessBar2, hgood, Bool.false_eq_true, if_false]
  · refine (if_neg hb).trans (congrArg Host.Outcome.next ((awake_live hh _).trans (if_neg (by simp [hgood]))))
  · refine (registerWrite_aligned (by decide)).trans (congrArg Host.Outcome.next ((awake_live hh _).trans ?_))
    rfl
  · refine (registerWrite_aligned ho).trans (congrArg Host.Outcome.next (awake_unchanged ?_))
    exact (if_pos rfl).trans (writeBar0_unused (by omega))
  · exact (registerWrite_aligned ho).trans (congrArg Host.Outcome.next ((awake_live hh _).trans (if_neg hf)))
  · exact (registerWrite_wide ho).trans (congrArg Host.Outcome.next (awake_live hh _))
  · exact congrArg Host.Outcome.next ((awake_live hh _).trans (if_pos (decide_eq_true (.inr ho))))
  · exact congrArg Host.Outcome.next ((awake_live hh _).trans (if_pos (decide_eq_true (.inr ho))))
  · rw [writePage_ring hlo hhi, box_modBox, if_pos rfl]
  · rw [writePage_enables, box_modBox, if_pos rfl]
    rfl
  · exact congrArg Host.Outcome.next (awake_held hh _)
  · exact congrArg Host.Outcome.next (awake_held hh _)
  · exact congrArg Host.Outcome.next (awake_held hh _)
  · exact congrArg Host.Outcome.next (awake_held hh _)
  · exact congrArg Host.Outcome.next (awake_held hh _)
  · exact congrArg Host.Outcome.next (awake_held hh _)
  · exact (if_neg hb).trans (congrArg Host.Outcome.next (awake_held hh _))
  · exact (if_neg hb).trans (congrArg Host.Outcome.next (awake_held hh _))

/-! ### The event registers -/

theorem evGet_evPut_eq (n m : Nat) (x : EventSrc) (s : State) : evGet (evPut n x s) m = if m = n then x else evGet s m := by
  unfold evGet
  rw [evPut_events, tget_tset]
  split <;> rfl

theorem evGet_message (fn v m : Nat) (s : State) : evGet (message fn v s) m = evGet s m := by
  unfold message
  split <;> rfl

/-- Delivering a source leaves every CAUSE as it is. -/
theorem settle_cause (n m : Nat) (s : State) : (evGet (settle n s) m).cause = (evGet s m).cause := by
  have hput : (evGet (if (isPending s n != (evGet s n).wasPending) = true then
      evPut n { evGet s n with wasPending := isPending s n } s else s) m).cause = (evGet s m).cause := by
    split
    · rw [evGet_evPut_eq]
      split
      next h => rw [h]
      next => rfl
    · rfl
  unfold settle
  dsimp only
  split
  · rw [evGet_message, hput]
  · exact hput

theorem clearCause_cause {n : Nat} {m : BitVec 16} {s : State} (h : isLevel n = false) :
    (evGet (clearCause n m s) n).cause = (evGet s n).cause &&& ~~~ m := by
  rw [clearCause, if_neg (by simp [h]), settle_cause, evGet_evPut]

theorem testBit_bitmap (l : List Nat) (k : Nat) : (bitmap l).testBit k = decide (k ∈ l) := by
  induction l with
  | nil => rw [bitmap, Nat.zero_testBit]; rfl
  | cons i l ih =>
    rw [bitmap, Nat.testBit_or, ih, Nat.testBit_two_pow, Bool.eq_iff_iff]
    simp only [Bool.or_eq_true, decide_eq_true_eq, List.mem_cons, @eq_comm _ i k]

theorem mem_members {m n k : Nat} : k ∈ members m n ↔ k < n ∧ m.testBit k = true := by
  simp [members, tb]

theorem setters_getLsbD (s : State) (n : Nat) (r : BitVec 16) {k : Nat} (hk : k < 16) : (setters s n r).getLsbD k = true ↔
    r.getLsbD k = true ∧ (subsOf n).getLsbD k = true ∧ sevOf s n k ≠ 0 := by
  rw [setters, BitVec.getLsbD_ofNat, testBit_bitmap]
  simp only [hk, decide_true, Bool.true_and, decide_eq_true_eq, List.mem_filter, mem_members, true_and, BitVec.testBit_toNat,
    BitVec.getLsbD_and, Bool.and_eq_true, and_assoc]

theorem members_zero_and (m : BitVec 16) : members ((0 : BitVec 16) &&& m).toNat 16 = [] := by
  have h : (0 : BitVec 16) &&& m = 0 := BitVec.zero_and
  rw [h]
  decide

theorem setters_zero (s : State) (n : Nat) : setters s n 0 = 0 := by
  rw [setters, members_zero_and]
  rfl

theorem raiseAll_zero (n : Nat) (s : State) : raiseAll n 0 s = s := by
  rw [raiseAll, members_zero_and]
  rfl

/-! #### The latch of the first CRITICAL -/

/-- The fault hub holds a first source (R380). -/
def Latched (s : State) : Prop := s.events.hub.firstValid = true

theorem latched_of_persist {s t : State} (h : ∃ p, t = { s with persist := p }) (hs : Latched s) : Latched t := by
  obtain ⟨p, rfl⟩ := h
  exact hs

theorem latched_settle {s : State} (n : Nat) (h : Latched s) : Latched (settle n s) := by
  unfold settle message
  dsimp only
  repeat' split
  all_goals exact h

theorem latched_setCause {s : State} (n sub : Nat) (h : Latched s) : Latched (setCause n sub s) := latched_settle n h

theorem latched_ite {c : Prop} [Decidable c] {a b : State} (ha : Latched a) (hb : Latched b) :
    Latched (if c then a else b) := by
  split
  · exact ha
  · exact hb

/-- A CRITICAL sub-cause leaves the latch holding a source, whether or not it held one before (R380). -/
theorem latched_critical {more : Nat → Nat → State → State} (hm : ∀ a b s, Latched s → Latched (more a b s)) (n sub : Nat)
    (s : State) : Latched (critical more n sub s) := by
  unfold critical
  dsimp only
  have tail : ∀ t, Latched t → Latched (if s.events.hub.fault then t else setCause 247 0 t) :=
    fun t ht => latched_ite ht (latched_setCause _ _ ht)
  apply tail
  split
  next h => exact latched_setCause _ _ h
  next =>
    split
    next k hk =>
      refine latched_ite (hm _ _ _ ?_) ?_
      all_goals exact latched_of_persist (startStore_eq _) (latched_of_persist (boxPut_eq _ _ _ _) rfl)
    next => exact latched_ite (hm _ _ _ (latched_of_persist (boxAppend_eq _ _) rfl)) (latched_of_persist (boxAppend_eq _ _) rfl)

theorem latched_fwRecord {more : Nat → Nat → State → State} (hm : ∀ a b s, Latched s → Latched (more a b s))
    (n sub sev : Nat) {s : State} (h : Latched s) : Latched (fwRecord more n sub sev s) := by
  have hput : ∀ x, Latched (evPut n x (boxAppend (eventRecord s n sub sev 0) s).1) :=
    fun x => (latched_of_persist (boxAppend_eq _ s) h : Latched (boxAppend _ s).1)
  exact latched_ite h (latched_ite (hm _ _ _ (hput _)) (hput _))

theorem latched_raiseN (k n sub : Nat) {s : State} (h : Latched s) : Latched (raiseN k n sub s) := by
  induction k generalizing n sub s with
  | zero => exact h
  | succ k ih =>
    have hm : ∀ a b s, Latched s → Latched (raiseN k a b s) := fun a b s hs => ih a b hs
    have h2 : Latched (if sevOf s n sub = 3 then critical (raiseN k) n sub (setCause n sub s) else setCause n sub s) :=
      latched_ite (latched_critical hm _ _ _) (latched_setCause _ _ h)
    exact latched_ite h (latched_ite h2 (latched_ite (latched_fwRecord hm _ _ _ h2) h2))

/-- A raise that acts as CRITICAL leaves the latch holding a source. -/
theorem latched_raise_critical {n sub : Nat} {s : State} (hh : held s = false) (h : sevOf s n sub = 3) :
    Latched (raise n sub s) := by
  have hm : ∀ a b s, Latched s → Latched (raiseN 3 a b s) := fun a b s hs => latched_raiseN 3 a b hs
  have h2 : Latched (if sevOf s n sub = 3 then critical (raiseN 3) n sub (setCause n sub s) else setCause n sub s) := by
    rw [if_pos h]
    exact latched_critical hm _ _ _
  rw [raise, awake_live hh, raiseN, if_neg (by omega)]
  exact latched_ite h2 (latched_ite (latched_fwRecord hm _ _ _ h2) h2)

/-! #### The MSI-X vectors -/

theorem vecGet_vecPut (f v : Nat) (x : Vector) (s : State) : vecGet (vecPut f v x s) f v = x := by
  simp [vecGet, vecPut]

/-- Only the pending mark of a vector goes when its message leaves. -/
theorem releaseVector_words (f v : Nat) (s : State) : (vecGet (releaseVector f v s) f v).words = (vecGet s f v).words := by
  unfold releaseVector
  dsimp only
  split
  · have h := congrArg Vector.words (vecGet_vecPut f v { vecGet s f v with pending := false } s)
    exact h
  · rfl

theorem releaseVector_msixOn (f v : Nat) (s : State) : (releaseVector f v s).events.msixOn = s.events.msixOn := by
  unfold releaseVector
  dsimp only
  split <;> rfl

/-- A vector that nothing holds once it is released is released: its message is sent and it is no longer pending. -/
theorem releaseVector_sends {f v : Nat} {s : State} (hp : (vecGet s f v).pending = true)
    (h : vecHeld (releaseVector f v s) f v = false) :
    (releaseVector f v s).out = .msi f v :: s.out ∧ (vecGet (releaseVector f v s) f v).pending = false := by
  have hfree : vecHeld s f v = false := by
    rw [← h, vecHeld, vecHeld, releaseVector_words, releaseVector_msixOn]
  have hsend : releaseVector f v s = send (.msi f v) (vecPut f v { vecGet s f v with pending := false } s) :=
    if_pos (by rw [hp, hfree]; rfl)
  rw [hsend]
  exact ⟨rfl, congrArg Vector.pending (vecGet_vecPut f v _ s)⟩

theorem foldl_releaseVector_msixOn (f : Nat) (l : List Nat) (s : State) :
    (l.foldl (fun s v => releaseVector f v s) s).events.msixOn = s.events.msixOn :=
  List.foldlRecOn (motive := fun t => t.events.msixOn = s.events.msixOn) l _ rfl
    fun t ht v _ => (releaseVector_msixOn f v t).trans ht

/-! #### The settlement -/

/-- A CRITICAL rival of a clear raises, and so keeps the latch (R6, R380). -/
theorem latched_raiseRival {r : Fin 256 × Fin 16} {s : State} (hh : held s = false)
    (h : rivalCritical (some r) s = true) : Latched (raiseRival (some r) s) := by
  obtain ⟨n, k⟩ := r
  simp only [rivalCritical, Bool.and_eq_true, decide_eq_true_eq] at h
  obtain ⟨hrow, hsev⟩ := h
  rw [raiseRival, if_pos (by simpa using hrow)]
  exact latched_raise_critical hh hsev

theorem clearFirst_unlatched {s : State} (h : s.events.hub.firstValid = false) : clearFirst s = s := by
  rw [clearFirst, ← h]
  rfl

theorem writeQuiet_ignored {n : Nat} {s : State} (h : n = 0 ∨ 600000 < n) : writeQuiet n s = s := if_pos h

theorem writeQuiet_inRange {n : Nat} {s : State} (h1 : 1 ≤ n) (h2 : n ≤ 600000) : writeQuiet n s =
    if quietOver (setHub { s.events.hub with quietMs := n } s) then leaveFault (setHub { s.events.hub with quietMs := n } s)
    else setHub { s.events.hub with quietMs := n } s := if_neg (by omega)

theorem quietOver_quietMs {n : Nat} {s : State} : quietOver (setHub { s.events.hub with quietMs := n } s) = true ↔
    s.events.hub.fault = true ∧ s.events.hub.lastCritical + n * 1000 ≤ now s := by
  simp only [quietOver, Bool.and_eq_true, decide_eq_true_eq]
  rfl

/-- Settles O34: each register by the row that writes it, a clear by the lemmas on CAUSE and the latch above. -/
theorem eventRegisters : Obligations.EventRegisters := by
  have clear : ∀ (n : Fin 256) (c r : BitVec 16) (s : State), held s = false → isLevel n.val = false → ∃ t,
      exec (.causeClear n c r) s = .next t ∧ (evGet t n.val).cause
        = (evGet (raiseAll n.val r s) n.val).cause &&& ~~~ (c &&& ~~~ setters s n.val r) := fun n c r s hh h =>
    ⟨_, (if_neg (by simp [h])).trans (congrArg Host.Outcome.next (awake_live hh _)), clearCause_cause h⟩
  refine ⟨fun n c s hh h => ?_, clear, fun n r k s => setters_getLsbD s n.val r k.isLt,
    fun r s hh => ⟨fun h => ?_, fun h => ?_, ?_⟩, fun n c r s h => if_pos h, fun n v s hh h => ?_, fun n v s h => ?_,
    fun s hh _ => ?_, fun s h => ?_, fun s hh => ?_, fun v s h => ?_, fun v s hh h1 h2 h => ?_,
    fun v s hh h1 h2 hf h => ?_, fun f v i x s hh => ?_, fun f on s hh => ?_,
    fun p e s he hp hl h => lateCompletion_late he ⟨hp, by simp [hl], h⟩, fun p s he => lateCompletion_none he⟩
  · obtain ⟨t, ht, hc⟩ := clear n c 0 s hh h
    refine ⟨t, ht, hc.trans ?_⟩
    have hnone : c &&& ~~~ (0 : BitVec 16) = c := BitVec.and_allOnes
    rw [setters_zero, raiseAll_zero, hnone]
  · exact ⟨_, congrArg Host.Outcome.next ((awake_live hh _).trans (if_pos h)), latched_raiseRival hh h⟩
  · exact congrArg Host.Outcome.next ((awake_live hh _).trans (if_neg (by simp [h])))
  · exact congrArg Host.Outcome.next (awake_live hh _)
  · exact congrArg Host.Outcome.next ((awake_live hh _).trans (if_neg (by simp [h])))
  · exact congrArg Host.Outcome.next (awake_unchanged (if_pos h))
  · exact congrArg Host.Outcome.next (awake_live hh _)
  · exact congrArg Host.Outcome.next (awake_unchanged (clearFirst_unlatched h))
  · exact congrArg Host.Outcome.next (awake_live hh _)
  · exact congrArg Host.Outcome.next (awake_unchanged (writeQuiet_ignored h))
  · refine congrArg Host.Outcome.next ((awake_live hh _).trans ((writeQuiet_inRange h1 h2).trans (if_neg fun hq => ?_)))
    obtain ⟨hf, hle⟩ := quietOver_quietMs.1 hq
    rcases h with h | h
    · simp [h] at hf
    · omega
  · exact congrArg Host.Outcome.next ((awake_live hh _).trans ((writeQuiet_inRange h1 h2).trans
      (if_pos (quietOver_quietMs.2 ⟨hf, h⟩))))
  · refine ⟨_, congrArg Host.Outcome.next (awake_live hh _), ?_, fun hp hfree => ?_⟩
    · rw [releaseVector_words, vecGet_vecPut]
    · exact releaseVector_sends (by rw [vecGet_vecPut]; exact hp) hfree
  · refine ⟨_, congrArg Host.Outcome.next (awake_live hh _), ?_⟩
    rw [foldl_releaseVector_msixOn]
    cases on <;> simp

end Sys2Proof.Proofs
end
